-- ==== Sys2Proof/Word.lean ====
section
/-! DEFINITION. The word types of the Brivan B1 and the plain containers its state is made of. -/

namespace Sys2Proof

/-- One byte of memory. -/
abbrev Byte := BitVec 8

/-- One register of the register window (R57: registers are accessed as 4-byte words). -/
abbrev W32 := BitVec 32

/-- A register pair, an address or a count of 64 bits. -/
abbrev W64 := BitVec 64

/-- A command word (R146). -/
abbrev W128 := BitVec 128

/-- Sparse data by number, in ascending key order: register files, tables, counters.
What an unlisted key reads as is said where the store is read. -/
abbrev Store (α : Type) := List (Nat × α)

/-- Byte-addressed memory: the listed bytes, in ascending address order, none of them zero.
An unlisted address reads as zero (log entry 6). -/
abbrev Memory := List (Nat × Byte)

end Sys2Proof
end

