-- ==== Sys2Proof/Syntax.lean ====
section
/-! DEFINITION. The commands of the Brivan B1: one constructor per row of the opcode table, with the operands that the
rules of the row read (log entry 3). -/

namespace Sys2Proof

/-- A 64-byte record: a cart descriptor (R187), a request command (R278) or a ring entry (R486). -/
abbrev W512 := BitVec 512

/-- A 32-byte record: an environment message header (R295). -/
abbrev W256 := BitVec 256

/-- A 128-byte record: an attention job (R193), a request entry image (R272) or a shard header (R350). -/
abbrev W1024 := BitVec 1024

/-- The write classes (table above R70). -/
inductive Cls where
  | m | f | t | d | x
deriving DecidableEq, Repr

/-- Who makes a register write: what R70, R71 and the ledger record of R75 read of it. -/
structure Writer where
  /-- The write class. -/
  cls : Cls
  /-- PATH of R75: 0 PCIe, 1 I3C, 2 PCIe VDM, 3 firmware core, 4 debug port, 5 crier. -/
  path : Nat
  /-- For class T: the function whose VF carries the write. -/
  fn : Nat
  /-- SOURCE of R75. -/
  source : Nat
  /-- For class X: the membership epoch of the carrying packet. -/
  mepoch : Nat
  /-- For class F: the write is made on an M command (R69, R70). -/
  onM : Bool
deriving DecidableEq, Repr

/-- The dispatch of the next command of a stream (R112, R167): the logical tile, how long the dispatch waited, and the
scratchpad errors its reads meet (R132, R133). -/
structure Disp where
  /-- Module-wide hamlet. -/
  hamlet : Nat
  /-- Logical tile. -/
  tile : Nat
  /-- Nanoseconds the dispatch waited (R624). -/
  waited : Nat
  /-- What it waited for, as KIND of a wait record says it. -/
  kind : Nat
  /-- Single-bit scratchpad errors that the command's reads correct (R132). -/
  corr : Nat
  /-- The scratchpad address of an uncorrectable word that its reads find (R133). -/
  unc : Option Nat
deriving DecidableEq, Repr

/-- The units that complete a command of a stream after its dispatch (R148). -/
inductive UnitK where
  | grid | mv | vec | cart | ats | upd
deriving DecidableEq, Repr

/-- The memory errors that the reads of a job meet: how many lines are corrected, at which module offset a line is
uncorrectable (R379, R380), and how the hamlet store answers (R400). -/
structure MemOutcome where
  /-- Corrected reads, by module offset. -/
  corr : List Nat
  /-- The first uncorrectable line, by module offset. -/
  unc : Option Nat
  /-- A hamlet-store error: the byte offset in the store and whether it is uncorrectable (R400). -/
  hst : Option (Nat × Bool)
deriving DecidableEq, Repr

/-- No memory error. -/
def MemOutcome.clean : MemOutcome := ⟨[], none, none⟩

/-- Where a request command comes from (R278, R477). -/
structure Origin where
  /-- The origin code: a function, or 0x200 for the PF. -/
  fn : Nat
deriving DecidableEq, Repr

/-- A packet of the fabric between modules: its header (R424), its data, its virtual channel and the port it came in on (16
and above: an Ethernet port). -/
structure Packet where
  dst : Nat
  src : Nat
  mepoch : Nat
  /-- 1 LOAD, 2 LOAD_RESP, 3 STORE, 4 PUT, 5 GET, 6 GET_RESP, 7 REDUCE_PUT, 8 ACK. -/
  op : Nat
  /-- [0] ORDERED; [1] NF; [2] RETX. -/
  flags : Nat
  /-- LEN: data bytes, or the bytes that a LOAD or GET asks for. -/
  len : Nat
  part : Nat
  seq : Nat
  tag : Nat
  addr : Nat
  data : List Byte
  vc : Nat
  port : Nat
deriving DecidableEq, Repr

/-- A crier packet (R468): its header and ARGS, and the plane it came in on. -/
structure Crier where
  dst : Nat
  origin : Nat
  mepoch : Nat
  /-- Crier type. -/
  typ : Nat
  hops : Nat
  /-- Originator's sequence number. -/
  seq : Nat
  /-- Module time at the origin. -/
  time : Nat
  /-- ARGS, 48 bytes. -/
  args : List Byte
  plane : Nat
deriving DecidableEq, Repr

/-- What a boot finds outside the module: the tray position that the TRAY_POS straps give (R631) and, at a cold reset, the near
pseudo-channels, stack × 32 + channel, that fail training (R385). -/
structure BootOutcome where
  tray : Nat
  failed : List Nat
deriving DecidableEq, Repr

/-- What starts a cold reset, beside the supplies and the swap signal, which have rows of their own (R525). -/
inductive ColdSrc where
  | power
  | write (w : Writer) (v : W32)
  | thermal
deriving DecidableEq, Repr

/-- What starts a warm module reset, beside PERST_N (R525). -/
inductive WarmSrc where
  | write (w : Writer) (v : W32)
  | pcie
deriving DecidableEq, Repr

/-- The two modules of a shipment's acceptance (R303, R304). -/
inductive ShipSide where
  /-- This module is the target: the entry as the source sent it, the source's module and slot, and the partition named. -/
  | target (entry : W1024) (src srcSlot part : Nat)
  /-- This module is the source: its slot, the target's slot, and the addresses of the frames at the target. -/
  | source (slot tgtSlot : Nat) (frames : List Nat)
deriving DecidableEq, Repr

/-- A row of a memory controller in which a scrub pass meets errors: where it starts, corrected lines, module offsets of
uncorrectable lines, spare rows left in its bank, and for the far tier the frames that hold part of it (R382 to R384). -/
structure RowErr where
  at_ : Nat
  corr : Nat
  uncs : List Nat
  spares : Nat
  frames : List Nat
deriving DecidableEq, Repr

/-- An object with a byte on a lost stripe (R411). -/
structure LostObj where
  obj : Nat
  stripe : Nat
deriving DecidableEq, Repr

/-- The shared units of a hamlet that can fail (R555). -/
inductive SharedUnit where
  | cart | ats | upd | router | storePort | reeve
deriving DecidableEq, Repr

/-- The number of a unit. -/
def SharedUnit.code : SharedUnit → Nat
  | .cart => 0
  | .ats => 1
  | .upd => 2
  | .router => 3
  | .storePort => 4
  | .reeve => 5

/-- PAGE_ID.CLASS of a unit (R55). -/
def SharedUnit.cls : SharedUnit → Nat
  | .cart => 0x47
  | .ats => 0x42
  | .upd => 0x46
  | .router => 0x48
  | .storePort => 0x43
  | .reeve => 0x41

/-- A unit of a hamlet found failed at a faulted step: one of its halves, or its reeve (R555). -/
structure FailedUnit where
  hamlet : Nat
  u : SharedUnit
deriving DecidableEq, Repr

/-- A checkpoint shard as it is read: its 256-byte header and its body (R588, R589). -/
structure CkShard where
  hdr : List Byte
  body : List Byte
deriving DecidableEq, Repr

/-- A command of the Brivan B1: one constructor per row of the opcode table. -/
inductive Instr where
  /-- REGISTER_WRITE (R70). -/
  | registerWrite (w : Writer) (addr : Nat) (size : Nat) (v : W64)
  /-- BROADCAST_WRITE (R59). -/
  | broadcastWrite (w : Writer) (addr : Nat) (v : W32)
  /-- PAIR_HI_WRITE (R651). -/
  | pairHiWrite (w : Writer) (addr : Nat) (v : W32)
  /-- PAIR_LO_WRITE (R651). -/
  | pairLoWrite (w : Writer) (addr : Nat) (v : W32)
  /-- PAIR_LO_READ (R614). -/
  | pairLoRead (addr : Nat) (size : Nat) (vf : Option Nat)
  /-- RC_READ (R19). -/
  | rcRead (addr : Nat) (size : Nat) (vf : Option Nat)
  /-- ERR_CLR (R64). -/
  | errClr (w : Writer) (page : Nat) (v : W32)
  /-- PAGE_FENCE (R60). -/
  | pageFence (w : Writer) (page : Nat) (v : W32)
  /-- FENCE_COMPLETE (R60). -/
  | fenceComplete (page : Nat)
  /-- QUIESCE_REQ (R65). -/
  | quiesceReq (w : Writer) (page : Nat) (v : W32)
  /-- QUIESCE_RESUME (R65). -/
  | quiesceResume (w : Writer) (page : Nat) (v : W32)
  /-- UNIT_QUIESCED (R64). -/
  | unitQuiesced (page : Nat)
  /-- PAGE_ENABLE (R64). -/
  | pageEnable (w : Writer) (page : Nat) (v : W32)
  /-- PAGE_DISABLE (R64). -/
  | pageDisable (w : Writer) (page : Nat) (v : W32)
  /-- INT_STAT_CLEAR (R67). -/
  | intStatClear (w : Writer) (page : Nat) (v : W32) (same : W32)
  /-- INT_FORCE (R68). -/
  | intForce (w : Writer) (page : Nat) (v : W32)
  /-- OWNER_WRITE (R69). -/
  | ownerWrite (w : Writer) (page : Nat) (v : W32)
  /-- LEDGER_SEAL (R80). -/
  | ledgerSeal
  /-- CTL_NOP (R148). -/
  | ctlNop (d : Disp)
  /-- CTL_SYNC (R150). -/
  | ctlSync (d : Disp)
  /-- WAITN (R155). -/
  | waitn (d : Disp)
  /-- CTL_FENCE (R156). -/
  | ctlFence (d : Disp)
  /-- SETP (R176). -/
  | setp (d : Disp)
  /-- STEP_END (R175). -/
  | stepEnd (d : Disp)
  /-- MMA_FULL (R116). -/
  | mmaFull (d : Disp)
  /-- MMA_QUAD (R121). -/
  | mmaQuad (d : Disp)
  /-- MMA_BLOCK (R121). -/
  | mmaBlock (d : Disp)
  /-- MV (R125). -/
  | mv (d : Disp)
  /-- VEC_ADD (R160). -/
  | vecAdd (d : Disp)
  /-- VEC_SUB (R160). -/
  | vecSub (d : Disp)
  /-- VEC_MUL (R160). -/
  | vecMul (d : Disp)
  /-- VEC_FMA (R160). -/
  | vecFma (d : Disp)
  /-- VEC_MIN (R650). -/
  | vecMin (d : Disp)
  /-- VEC_MAX (R650). -/
  | vecMax (d : Disp)
  /-- VEC_CMP (R160). -/
  | vecCmp (d : Disp)
  /-- VEC_SEL (R160). -/
  | vecSel (d : Disp)
  /-- VEC_IADD (R160). -/
  | vecIadd (d : Disp)
  /-- VEC_ISUB (R160). -/
  | vecIsub (d : Disp)
  /-- VEC_AND (R160). -/
  | vecAnd (d : Disp)
  /-- VEC_OR (R160). -/
  | vecOr (d : Disp)
  /-- VEC_XOR (R160). -/
  | vecXor (d : Disp)
  /-- VEC_SHL (R160). -/
  | vecShl (d : Disp)
  /-- VEC_SHR (R160). -/
  | vecShr (d : Disp)
  /-- VEC_ROTL (R160). -/
  | vecRotl (d : Disp)
  /-- VEC_CVT (R103). -/
  | vecCvt (d : Disp)
  /-- VEC_EXP2 (R101). -/
  | vecExp2 (d : Disp)
  /-- VEC_LN (R101). -/
  | vecLn (d : Disp)
  /-- VEC_RCP (R101). -/
  | vecRcp (d : Disp)
  /-- VEC_RSQRT (R101). -/
  | vecRsqrt (d : Disp)
  /-- VEC_RED (R136). -/
  | vecRed (d : Disp)
  /-- VEC_SCAN (R137). -/
  | vecScan (d : Disp)
  /-- VEC_LRSCAN (R138). -/
  | vecLrscan (d : Disp)
  /-- VEC_LRSCAN_REV (R138). -/
  | vecLrscanRev (d : Disp)
  /-- VEC_LD (R134). -/
  | vecLd (d : Disp)
  /-- VEC_ST (R134). -/
  | vecSt (d : Disp)
  /-- LDSLOT (R127). -/
  | ldslot (d : Disp)
  /-- VEC_KCM (R240). -/
  | vecKcm (d : Disp)
  /-- CRT_SUBMIT (R191). -/
  | crtSubmit (d : Disp)
  /-- ATS_SUBMIT (R193). -/
  | atsSubmit (d : Disp)
  /-- UPD_SUBMIT (R162). -/
  | updSubmit (d : Disp)
  /-- PEN_TRIGGER (R443). -/
  | penTrigger (d : Disp)
  /-- COMMAND_COMPLETE (R168). -/
  | commandComplete (hamlet : Nat) (tile : Nat) (u : UnitK)
  /-- SHADOW_RUN (R558). -/
  | shadowRun (hamlet : Nat) (tile : Nat) (idx : Nat) (mismatch : Bool)
  /-- NF_FLAG_CLEAR (R144). -/
  | nfFlagClear (w : Writer) (page : Nat) (second : Bool) (v : W32) (same : Option W32)
  /-- BND_BOUND_WRITE (R142). -/
  | bndBoundWrite (w : Writer) (page : Nat) (hi : Bool) (v : W32)
  /-- BND_KEY_WRITE (R142). -/
  | bndKeyWrite (w : Writer) (page : Nat) (v : W32)
  /-- RNG_CNT_READ (R140). -/
  | rngCntRead (page : Nat)
  /-- STEP_RELEASE (R176). -/
  | stepRelease (part : Nat)
  /-- HAMLET_STEP_BOUNDARY (R175). -/
  | hamletStepBoundary (hamlet : Nat)
  /-- STEP_HUNG (R174). -/
  | stepHung (hamlet : Nat) (tile : Nat)
  /-- IDLE_BOUNDARY_TICK (R277). -/
  | idleBoundaryTick (part : Nat) (now : Nat)
  /-- PROLOGUE_COMPLETE (R183). -/
  | prologueComplete (part : Nat)
  /-- CART_LIST_START (R191). -/
  | cartListStart (hamlet : Nat)
  /-- CART_COPY (R187). -/
  | cartCopy (hamlet : Nat) (mem : MemOutcome)
  /-- CART_FILL (R187). -/
  | cartFill (hamlet : Nat)
  /-- CART_SIGNAL (R187). -/
  | cartSignal (hamlet : Nat)
  /-- CART_LINK (R187). -/
  | cartLink (hamlet : Nat)
  /-- CRT_FAULT_CLEAR (R192). -/
  | crtFaultClear (w : Writer) (page : Nat) (v : W32)
  /-- ATTENTION_JOB_START (R193). -/
  | attentionJobStart (hamlet : Nat) (mem : MemOutcome)
  /-- ATS_FAULT_CLEAR (R236). -/
  | atsFaultClear (w : Writer) (page : Nat) (v : W32)
  /-- TOKEN_DRAW (R253). -/
  | tokenDraw (slot : Nat) (pos : Nat) (logits : List W32)
  /-- KCM_TEST_START (R269). -/
  | kcmTestStart (w : Writer) (v : W32)
  /-- KCM_TEST_RUN (R270). -/
  | kcmTestRun (hamlet : Nat) (tile : Nat) (good : Bool)
  /-- SMP_LAST_FAULT_CLEAR (R256). -/
  | smpLastFaultClear (w : Writer) (v : W32)
  /-- CMDQ_DOORBELL (R489). -/
  | cmdqDoorbell (fn : Nat) (viaPf : Bool) (off : Nat) (size : Nat) (v : W32)
  /-- HRING_DOORBELL (R487). -/
  | hringDoorbell (fn : Nat) (viaPf : Bool) (off : Nat) (size : Nat) (v : W32)
  /-- COMMAND_FETCH (R486). -/
  | commandFetch (fn : Nat) (entry : W256)
  /-- SUBMIT (R280). -/
  | submit (o : Origin) (cmd : W256)
  /-- APPEND (R278). -/
  | append (o : Origin) (cmd : W256)
  /-- RESUME (R278). -/
  | resume (o : Origin) (cmd : W256)
  /-- PAUSE (R278). -/
  | pause (o : Origin) (cmd : W256)
  /-- PARK (R299). -/
  | park (o : Origin) (cmd : W256)
  /-- CANCEL (R278). -/
  | cancel (o : Origin) (cmd : W256)
  /-- RELEASE (R276). -/
  | release (o : Origin) (cmd : W256)
  /-- DRAFT (R278). -/
  | draft (o : Origin) (cmd : W256)
  /-- SETPRIO (R278). -/
  | setprio (o : Origin) (cmd : W256)
  /-- REWARD (R278). -/
  | reward (o : Origin) (cmd : W256)
  /-- ENVIRONMENT_MESSAGE (R296). -/
  | environmentMessage (qp : Nat) (hdr : W256) (toks : List W32)
  /-- QP_ERROR (R296). -/
  | qpError (qp : Nat)
  /-- BUDGET_REFILL (R286). -/
  | budgetRefill (now : Nat)
  /-- PARK_AFTER_EXPIRY (R299). -/
  | parkAfterExpiry (slot : Nat) (now : Nat)
  /-- PARKED_EXPIRY (R300). -/
  | parkedExpiry (slot : Nat) (now : Nat)
  /-- SHIP_ACCEPT (R304). -/
  | shipAccept (side : ShipSide)
  /-- SHIP_COPY_COMPLETE (R304). -/
  | shipCopyComplete (slot : Nat) (tgtSlot : Nat)
  /-- SHIP_REFUSED (R305). -/
  | shipRefused (slot : Nat) (now : Nat)
  /-- SHIP_RETRY (R305). -/
  | shipRetry (slot : Nat) (now : Nat)
  /-- SHIP_DEADLINE (R305). -/
  | shipDeadline (slot : Nat) (now : Nat)
  /-- SPILL_COMPLETE (R309). -/
  | spillComplete (part : Nat)
  /-- REQ_LAST_REJ_CLEAR (R279). -/
  | reqLastRejClear (w : Writer) (v : W32)
  /-- UPDATE_PROGRAM_START (R326). -/
  | updateProgramStart (hamlet : Nat) (unc : Bool)
  /-- UOP_LDT (R327). -/
  | uopLdt (hamlet : Nat) (unc : Bool)
  /-- UOP_STT (R327). -/
  | uopStt (hamlet : Nat)
  /-- UOP_LDH (R327). -/
  | uopLdh (hamlet : Nat)
  /-- UOP_ADD (R327). -/
  | uopAdd (hamlet : Nat)
  /-- UOP_SUB (R327). -/
  | uopSub (hamlet : Nat)
  /-- UOP_MUL (R327). -/
  | uopMul (hamlet : Nat)
  /-- UOP_FMA (R327). -/
  | uopFma (hamlet : Nat)
  /-- UOP_MIN (R327). -/
  | uopMin (hamlet : Nat)
  /-- UOP_MAX (R327). -/
  | uopMax (hamlet : Nat)
  /-- UOP_RSQRT (R327). -/
  | uopRsqrt (hamlet : Nat)
  /-- UOP_RCP (R327). -/
  | uopRcp (hamlet : Nat)
  /-- UOP_CVTW (R328). -/
  | uopCvtw (hamlet : Nat)
  /-- UOP_NORM (R329). -/
  | uopNorm (hamlet : Nat)
  /-- UOP_AMAX (R329). -/
  | uopAmax (hamlet : Nat)
  /-- UOP_END (R329). -/
  | uopEnd (hamlet : Nat)
  /-- UPD_FAULT_CLEAR (R333). -/
  | updFaultClear (w : Writer) (page : Nat) (v : W32)
  /-- VOTE (R337). -/
  | vote (hamlet : Nat)
  /-- EPOCH_SHARD_ARRIVE (R354). -/
  | epochShardArrive (hdr : W1024) (data : List Byte) (src : Nat)
  /-- EPOCH_ACK (R352). -/
  | epochAck (sub : Nat) (epoch : Nat) (pos : Bool)
  /-- EPOCH_RECHECK (R358). -/
  | epochRecheck (now : Nat)
  /-- EPOCH_LOAD (R366). -/
  | epochLoad (w : Writer) (v : W32)
  /-- EPOCH_LOAD_COMPLETE (R366). -/
  | epochLoadComplete (ok : Bool)
  /-- SLOT_BASE_WRITE (R369). -/
  | slotBaseWrite (w : Writer) (slot : Nat) (size : Bool) (v : W32)
  /-- SCRUB_PASS (R382). -/
  | scrubPass (ctrl : Nat) (rows : List RowErr)
  /-- PC_RETIRE (R384). -/
  | pcRetire (w : Writer) (page : Nat) (v : W32)
  /-- MAP (R390). -/
  | map (w : Writer) (v : W32)
  /-- UNMAP (R389). -/
  | unmap (w : Writer) (v : W32)
  /-- MOVE (R389). -/
  | move (w : Writer) (v : W32)
  /-- ATTR (R389). -/
  | attr (w : Writer) (v : W32)
  /-- CLRCNT (R392). -/
  | clrcnt (w : Writer) (v : W32)
  /-- FAROWN (R376). -/
  | farown (w : Writer) (v : W32)
  /-- MAP_COMMAND_DONE (R389). -/
  | mapCommandDone
  /-- MIGRATION_COMPLETE (R393). -/
  | migrationComplete (vpage : Nat)
  /-- PREFETCH_ENTRY_START (R397). -/
  | prefetchEntryStart (part : Nat)
  /-- LOFT_READ (R405). -/
  | loftRead (w : Writer) (v : W32) (sectors : Nat) (bad : Nat)
  /-- LOFT_WRITE (R404). -/
  | loftWrite (w : Writer) (v : W32)
  /-- LOFT_DELETE (R403). -/
  | loftDelete (w : Writer) (v : W32)
  /-- LOFT_DIR (R403). -/
  | loftDir (w : Writer) (v : W32)
  /-- LOFT_FETCH (R411). -/
  | loftFetch (w : Writer) (v : W32) (data : List Byte)
  /-- LOFT_COMMAND_DONE (R404). -/
  | loftCommandDone
  /-- LOFT_PATROL (R407). -/
  | loftPatrol (sectors : Nat) (lost : List LostObj)
  /-- LOFT_MEMBER_FAIL (R408). -/
  | loftMemberFail (m : Nat) (lost : List LostObj)
  /-- LOFT_REBUILD_DONE (R408). -/
  | loftRebuildDone
  /-- NTM_ERR_CLEAR (R380). -/
  | ntmErrClear (w : Writer) (page : Nat) (v : W32)
  /-- LANE_BAD (R416). -/
  | laneBad (port : Nat) (lane : Nat)
  /-- YLK_RETRAIN (R415). -/
  | ylkRetrain (w : Writer) (port : Nat) (v : W32)
  /-- RETRAIN_COMPLETE (R415). -/
  | retrainComplete (port : Nat) (good : Nat)
  /-- FLIT_RECEIVE (R419). -/
  | flitReceive (port : Nat) (flit : List Byte) (corr : Nat) (unc : Nat)
  /-- NAK (R419). -/
  | nak (port : Nat) (expected : Nat)
  /-- RETRY_LIMIT (R420). -/
  | retryLimit (port : Nat) (seq : Nat)
  /-- LOAD (R430). -/
  | load (p : Packet)
  /-- LOAD_RESP (R424). -/
  | loadResp (p : Packet)
  /-- STORE (R430). -/
  | store (p : Packet)
  /-- PUT (R452). -/
  | put (p : Packet)
  /-- GET (R454). -/
  | get (p : Packet)
  /-- GET_RESP (R454). -/
  | getResp (p : Packet)
  /-- REDUCE_PUT (R458). -/
  | reducePut (p : Packet)
  /-- ACK (R427). -/
  | ack (p : Packet)
  /-- E2E_RESEND (R427). -/
  | e2eResend (dst : Nat) (vc : Nat) (seq : Nat) (now : Nat)
  /-- PORT_DOWN (R433). -/
  | portDown (plane : Nat) (mod : Nat)
  /-- PORT_UP (R433). -/
  | portUp (plane : Nat) (mod : Nat)
  /-- D2D_LANE_REPAIR (R438). -/
  | d2dLaneRepair (die : Nat) (dir : Nat)
  /-- ROUTER_STALL (R437). -/
  | routerStall (page : Nat) (port : Nat) (granted : List Nat)
  /-- FIRING_START (R445). -/
  | firingStart (part : Nat) (chain : Nat)
  /-- DESC_PUT (R454). -/
  | descPut (part : Nat) (chain : Nat) (idx : Nat) (mem : MemOutcome)
  /-- DESC_GET (R454). -/
  | descGet (part : Nat) (chain : Nat) (idx : Nat)
  /-- ALLREDUCE (R455). -/
  | allreduce (part : Nat) (chain : Nat) (idx : Nat)
  /-- DESC_SIGNAL (R447). -/
  | descSignal (part : Nat) (chain : Nat) (idx : Nat)
  /-- PUBLISH (R351). -/
  | publish (part : Nat) (chain : Nat) (idx : Nat)
  /-- SEGMENT_COMBINE (R456). -/
  | segmentCombine (part : Nat) (chain : Nat) (idx : Nat) (seg : Nat)
  /-- DESCRIPTOR_COMPLETE (R446). -/
  | descriptorComplete (part : Nat) (chain : Nat) (idx : Nat)
  /-- PEN_FAULT_CLEAR (R467). -/
  | penFaultClear (w : Writer) (v : W32)
  /-- GROUP_REFORM (R463). -/
  | groupReform (group : Nat) (replace : Bool)
  /-- CRIER_ORIGINATE (R470). -/
  | crierOriginate (w : Writer) (v : W32)
  /-- CRIER_SEND (R470). -/
  | crierSend
  /-- SUSPECT (R566). -/
  | suspect (p : Crier)
  /-- CLEAR (R565). -/
  | clear (p : Crier)
  /-- DEAD (R567). -/
  | dead (p : Crier)
  /-- FENCE_MODULE (R571). -/
  | fenceModule (p : Crier)
  /-- FENCE_STEP (R569). -/
  | fenceStep (p : Crier)
  /-- REG_WRITE (R468). -/
  | regWrite (p : Crier)
  /-- CENSUS (R619). -/
  | census (p : Crier)
  /-- FLR (R501). -/
  | flr (fn : Nat)
  /-- FLR_COMPLETE (R501). -/
  | flrComplete (fn : Nat)
  /-- FUNCTION_ENABLE (R480). -/
  | functionEnable (w : Writer) (fn : Nat) (v : W32)
  /-- FUNCTION_DISABLE (R480). -/
  | functionDisable (w : Writer) (fn : Nat) (v : W32)
  /-- RING_BASE_WRITE (R490). -/
  | ringBaseWrite (w : Writer) (addr : Nat) (v : W32)
  /-- APERTURE_ACCESS (R478). -/
  | apertureAccess (off : Nat) (write : Bool) (n : Nat) (data : List Byte)
  /-- VF_APERTURE_ACCESS (R484). -/
  | vfApertureAccess (fn : Nat) (off : Nat) (write : Bool) (n : Nat) (data : List Byte)
  /-- CREATE (R495). -/
  | create (w : Writer) (part : Nat) (v : W32)
  /-- DESTROY (R499). -/
  | destroy (w : Writer) (part : Nat) (v : W32)
  /-- DESTROY_PROCEED (R499). -/
  | destroyProceed (part : Nat)
  /-- LOAD_IMAGE (R497). -/
  | loadImage (w : Writer) (part : Nat) (v : W32)
  /-- RESET (R503). -/
  | reset (w : Writer) (part : Nat) (v : W32)
  /-- ISL_FREQ_WRITE (R509). -/
  | islFreqWrite (w : Writer) (page : Nat) (v : W32)
  /-- BOUNDARY_EVALUATE (R511). -/
  | boundaryEvaluate (hamlet : Nat) (bnd : Nat) (mvA : Nat) (mvB : Nat) (tA : Int) (tB : Int)
  /-- CLAMP_LOWER (R513). -/
  | clampLower (hamlet : Nat) (bnd : Nat) (mvA : Nat) (mvB : Nat) (tA : Int) (tB : Int)
  /-- DROOP_CROSS (R515). -/
  | droopCross (hamlet : Nat) (isl : Nat) (mv : Nat)
  /-- STRETCH_RELEASE (R516). -/
  | stretchRelease (hamlet : Nat) (isl : Nat)
  /-- ESCALATION (R517). -/
  | escalation (hamlet : Nat) (isl : Nat)
  /-- ESCALATION_LOWER (R517). -/
  | escalationLower (hamlet : Nat) (isl : Nat)
  /-- ISLAND_RESTORE (R518). -/
  | islandRestore (hamlet : Nat) (isl : Nat)
  /-- POWER_SAMPLE (R519). -/
  | powerSample (watts : Nat) (mv : Nat)
  /-- CAP_STEP (R519). -/
  | capStep
  /-- THERMAL_LOWER (R520). -/
  | thermalLower (hamlet : Nat) (isl : Nat) (temp : Int)
  /-- THERMAL_TRIP (R522). -/
  | thermalTrip (hamlet : Nat) (isl : Nat) (temp : Int)
  /-- REF_LOSS (R507). -/
  | refLoss (which : Nat)
  /-- COLD_RESET (R525). -/
  | coldReset (src : ColdSrc) (b : BootOutcome)
  /-- WARM_RESET (R525). -/
  | warmReset (src : WarmSrc) (b : BootOutcome)
  /-- HAMLET_RESET (R527). -/
  | hamletReset (w : Writer) (v : W32)
  /-- BOOT_READY (R535). -/
  | bootReady
  /-- SVN_COMMIT (R532). -/
  | svnCommit (w : Writer) (v : W32)
  /-- BOOT_FAIL_CLEAR (R534). -/
  | bootFailClear (w : Writer) (v : W32)
  /-- LIVE_SWITCH (R543). -/
  | liveSwitch (w : Writer) (v : W32)
  /-- LIVE_SWITCH_COMPLETE (R544). -/
  | liveSwitchComplete (bad : Option Nat)
  /-- SLOT_EXTEND (R542). -/
  | slotExtend (w : Writer) (v : W32)
  /-- OWNER_ENROL (R531). -/
  | ownerEnrol (w : Writer) (v : W32)
  /-- OWNER_REVOKE (R531). -/
  | ownerRevoke (w : Writer) (v : W32)
  /-- GET_VERSION (R540). -/
  | getVersion (req : List Byte)
  /-- CAPABILITIES (R540). -/
  | capabilities (req : List Byte)
  /-- NEGOTIATE_ALGORITHMS (R540). -/
  | negotiateAlgorithms (req : List Byte)
  /-- GET_DIGESTS (R540). -/
  | getDigests (req : List Byte)
  /-- GET_CERTIFICATE (R540). -/
  | getCertificate (req : List Byte)
  /-- CHALLENGE (R540). -/
  | challenge (req : List Byte)
  /-- GET_MEASUREMENTS (R541). -/
  | getMeasurements (req : List Byte)
  /-- SPDM_UNSUPPORTED (R540). -/
  | spdmUnsupported (req : List Byte)
  /-- QUERY_DEVICE_IDENTIFIERS (R546). -/
  | queryDeviceIdentifiers
  /-- GET_FIRMWARE_PARAMETERS (R546). -/
  | getFirmwareParameters
  /-- REQUEST_UPDATE (R547). -/
  | requestUpdate (maxTransfer : Nat)
  /-- PASS_COMPONENT_TABLE (R546). -/
  | passComponentTable (ident : Nat)
  /-- UPDATE_COMPONENT (R546). -/
  | updateComponent (ident : Nat) (size : Nat)
  /-- REQUEST_FIRMWARE_DATA (R546). -/
  | requestFirmwareData (off : Nat) (data : List Byte)
  /-- TRANSFER_COMPLETE (R546). -/
  | transferComplete
  /-- VERIFY_COMPLETE (R547). -/
  | verifyComplete
  /-- APPLY_COMPLETE (R546). -/
  | applyComplete
  /-- ACTIVATE_FIRMWARE (R547). -/
  | activateFirmware (selfContained : Bool)
  /-- GET_STATUS (R546). -/
  | getStatus
  /-- CANCEL_UPDATE (R546). -/
  | cancelUpdate
  /-- FAULTED_STEP_END (R550). -/
  | faultedStepEnd (part : Nat) (failed : List FailedUnit)
  /-- BBR_MIRROR (R582). -/
  | bbrMirror
  /-- TILE_TEST (R561). -/
  | tileTest (hamlet : Nat) (tile : Nat) (pass : Bool)
  /-- RAS_LAST_MM_CLEAR (R560). -/
  | rasLastMmClear (w : Writer) (v : W32)
  /-- HEARTBEAT_SEND (R564). -/
  | heartbeatSend (now : Nat)
  /-- HEARTBEAT (R564). -/
  | heartbeat (src : Nat) (mepoch : Nat) (seq : Nat)
  /-- ECHO (R570). -/
  | echo (src : Nat) (mepoch : Nat) (seq : Nat)
  /-- HEARTBEAT_MISS (R565). -/
  | heartbeatMiss (mod : Nat) (now : Nat)
  /-- REPORT_EXPIRY (R565). -/
  | reportExpiry (mod : Nat) (now : Nat)
  /-- SELF_FENCE (R570). -/
  | selfFence (now : Nat)
  /-- MBR_ID_WRITE (R573). -/
  | mbrIdWrite (w : Writer) (v : W32)
  /-- MBR_INIT (R573). -/
  | mbrInit (w : Writer) (v : W32)
  /-- HALT_SAMPLE (R575). -/
  | haltSample (a : Bool) (b : Bool) (now : Nat)
  /-- HALT_CHECKPOINT_DONE (R604). -/
  | haltCheckpointDone
  /-- HALT_ACK (R579). -/
  | haltAck (w : Writer) (v : W32)
  /-- HALT_CLEAR (R579). -/
  | haltClear
  /-- MIRROR_COMPLETE (R593). -/
  | mirrorComplete
  /-- CKP_RECHECK (R596). -/
  | ckpRecheck (now : Nat)
  /-- SHARD_FLUSH_COMPLETE (R600). -/
  | shardFlushComplete (rank : Nat) (entries : List Byte) (conflicts : Nat)
  /-- MANIFEST_WRITE (R600). -/
  | manifestWrite
  /-- RESTORE_STEP_DECIDE (R605). -/
  | restoreStepDecide (reports : List Nat)
  /-- RESTORE_LOAD (R606). -/
  | restoreLoad (step : Nat) (shards : List CkShard) (complete : Bool)
  /-- CKP_RESTORE (R612). -/
  | ckpRestore (w : Writer) (v : W32) (man : List Byte) (shards : List CkShard)
  /-- COUNTER_SELECT_WRITE (R615). -/
  | counterSelectWrite (w : Writer) (addr : Nat) (v : W32)
  /-- COUNTER_CLEAR (R615). -/
  | counterClear (w : Writer) (page : Nat) (v : W32)
  /-- CENSUS_START (R619). -/
  | censusStart (w : Writer) (v : W32)
  /-- CENSUS_MARKER (R620). -/
  | censusMarker (page : Nat)
  /-- CENSUS_DONE (R623). -/
  | censusDone
  /-- VIN_LOW (R635). -/
  | vinLow
  /-- VIN_RESTORE (R635). -/
  | vinRestore (b : BootOutcome)
  /-- AUX_LOSS (R636). -/
  | auxLoss (b : BootOutcome)
  /-- PERST (R639). -/
  | perst (b : BootOutcome)
  /-- SWAP_REQUEST (R645). -/
  | swapRequest
  /-- SWAP_CANCEL (R645). -/
  | swapCancel (b : BootOutcome)
  /-- SPILL_RESTORE_COMPLETE (R309). -/
  | spillRestoreComplete (part : Nat)
  /-- ETHERNET_LINK_CHANGE (R439). -/
  | ethernetLinkChange (port : Nat) (up : Bool)
  /-- PTP_MESSAGE (R439). -/
  | ptpMessage (port : Nat) (lock : Bool) (now : Nat) (offset : W32)
  /-- REFERENCE_CLOCK_RETURN (R507). -/
  | referenceClockReturn (which : Nat)
  /-- PFC_PAUSE_FRAME (R440). -/
  | pfcPauseFrame (port : Nat) (prio : Nat) (quanta : Nat)
  /-- PCIE_LINK_TRAINING (R474). -/
  | pcieLinkTraining (width : Nat) (gen : Nat) (numvf : Nat)
deriving DecidableEq, Repr

end Sys2Proof
end

