-- ==== Sys2Proof/Decode.lean ====
section
/-! DEFINITION. The commands that the table's words spell: the table gives bits to no row, so no word spells a command. -/

namespace Sys2Proof

/-- The command of a table word: none, since no row of the table has bits. -/
def decodeTableWord (_nbits _w : Nat) : Option Instr := none

end Sys2Proof
end

