-- ==== Sys2Proof/Config.lean ====
section
/-! DEFINITION. What an implementation fixes and the spec does not give: secrets, and the free values of whatever the
spec calls undefined. No constant here has a body, so no proof can rest on a value of one. -/

namespace Sys2Proof.Config

/-- The word that an undefined location holds: the n-th draw of a free value (R326, R399, R462, R550; log entry 8). -/
opaque freeWord : Nat → W32

/-- Query rows of a query block, less one, for a head size and a staging size: the sequencer divides the rows as it likes
(R195; log entry 17). -/
opaque queryBlock : (d stageKib : Nat) → Nat

/-- The unique device secret, fused at manufacture and readable by no one (R537, R538). -/
opaque uds : List Byte

/-- The ECDSA P-384 signature, 96 bytes as r then s, of a message under the key derived from a secret (R529, R537). -/
opaque ecdsaSign : (secret message : List Byte) → List Byte

/-- Whether a 96-byte ECDSA P-384 signature of a message verifies under the key with a digest (R530, R602). -/
opaque ecdsaVerify : (keyDigest message signature : List Byte) → Bool

/-- The digest of the public key derived from a secret (R537). -/
opaque publicDigest : (secret : List Byte) → List Byte

/-- The digest of a fused vendor key, by index (R530). -/
opaque vendorKey : Nat → List Byte

/-- The digest of the boot ROM, fused at test: measurement slot 0 (R533). -/
opaque romDigest : List Byte

/-- The attestation certificate for the attestation secret in force (R537, R539). -/
opaque attCert : (secret : List Byte) → List Byte

/-- The certificate chain of SPDM slot 0, root to attestation certificate, for the attestation secret in force (R540). -/
opaque certChain : (secret : List Byte) → List Byte

end Sys2Proof.Config
end

