-- ==== Sys2Proof/Machine/Bits.lean ====
section
/-! DEFINITION. Bit fields, byte order and saturation: R10 (bits numbered from 0 at the least significant bit, a range
includes both ends) and R11 (least significant byte first). -/

namespace Sys2Proof.Machine

/-- Bits `[hi:lo]` of `x` as a number (R10). -/
def fld {n : Nat} (x : BitVec n) (hi lo : Nat) : Nat := (x.toNat >>> lo) % 2 ^ (hi + 1 - lo)

/-- Bit `i` of `x`. -/
def bit {n : Nat} (x : BitVec n) (i : Nat) : Bool := x.getLsbD i

/-- The mask of bits `[hi:lo]`. -/
def maskOf (hi lo : Nat) : Nat := (2 ^ (hi + 1 - lo) - 1) <<< lo

/-- `x` with bits `[hi:lo]` replaced by `v`. -/
def setFld (x : W32) (hi lo v : Nat) : W32 :=
  (x &&& ~~~(BitVec.ofNat 32 (maskOf hi lo))) ||| BitVec.ofNat 32 ((v % 2 ^ (hi + 1 - lo)) <<< lo)

/-- `x` with bit `i` set to `b`. -/
def setBit (x : W32) (i : Nat) (b : Bool) : W32 := setFld x i i (if b then 1 else 0)

/-- A field of a memory record: `size` bytes at byte offset `off`, least significant byte first (R11). -/
def recF {n : Nat} (x : BitVec n) (off size : Nat) : Nat := (x.toNat >>> (8 * off)) % 2 ^ (8 * size)

/-- The `k` bytes of `v`, least significant first (R11). -/
def bytesOf : Nat → Nat → List Byte
  | 0, _ => []
  | k + 1, v => BitVec.ofNat 8 v :: bytesOf k (v / 256)

/-- The number that bytes stand for, least significant first (R11). -/
def ofBytes : List Byte → Nat
  | [] => 0
  | b :: bs => b.toNat + 256 * ofBytes bs

/-- A big-endian number of bytes (formats that a published standard defines keep its byte order, R11). -/
def ofBytesBE (bs : List Byte) : Nat := ofBytes bs.reverse

/-- `k` bytes of `v`, most significant first. -/
def bytesBE (k v : Nat) : List Byte := (bytesOf k v).reverse

/-- A count of `w` bits that saturates. -/
def satAdd (w x k : Nat) : Nat := min (x + k) (2 ^ w - 1)

/-- `x` rounded up to a multiple of `m`. -/
def roundUp (x m : Nat) : Nat := (x + m - 1) / m * m

/-- The quotient rounded up. -/
def ceilDiv (x m : Nat) : Nat := (x + m - 1) / m

/-- `a` follows `b` in the serial-number arithmetic of RFC 1982 over 16 bits, a difference of exactly 0x8000 counting
as preceding (R425, R655). -/
def serialAfter (a b : Nat) : Bool :=
  let d := (a + 65536 - b % 65536) % 65536
  0 < d && d < 0x8000

/-- The numbers `a, a+1, …`, `k` of them. -/
def natsFrom : Nat → Nat → List Nat
  | _, 0 => []
  | a, k + 1 => a :: natsFrom (a + 1) k

/-- The positions of the bits of `x` that are 1, ascending, among the first `k`. -/
def bitsSet {n : Nat} (x : BitVec n) (k : Nat) : List Nat := (List.range k).filter (fun i => x.getLsbD i)

/-- The floor of the base-2 logarithm; 0 for 0. -/
def log2 (x : Nat) : Nat := Nat.log2 x

end Sys2Proof.Machine
end

