-- ==== Sys2Proof/Machine/RegTable.lean ====
section
/-! DEFINITION. The register table: every block-specific register of the chapters' field tables, with its writers, its
access masks and its reset value (R13 to R18), and the common page header. A reserved bit belongs to no mask (R15). -/

namespace Sys2Proof.Machine

/-- A register, or `n` like registers `st` bytes apart. -/
structure RegRow where
  /-- Byte offset in the page of the first. -/
  off : Nat
  /-- How many. -/
  n : Nat
  /-- Bytes from one to the next. -/
  st : Nat
  /-- The writing classes that the introducing line names: M 1, F 2, T 4, D 8, X 16. -/
  wr : Nat
  /-- 1: the LO register of a pair written HI first; 2: its HI register (R651); 0: neither. -/
  kind : Nat
  /-- A read captures the HI register for its next read (R614 and the pairs' definitions). -/
  cap : Bool
  /-- Only instance 0 of the page has it. -/
  only0 : Bool
  /-- An indexed register: the offset of its index register and the index field. -/
  bank : Option (Nat × Nat × Nat)
  /-- The RW (and RWO) bits. -/
  rw : Nat
  /-- The W1C bits. -/
  w1c : Nat
  /-- The WO bits. -/
  wo : Nat
  /-- The RC bits. -/
  rc : Nat
  /-- The Reset column. -/
  reset : Nat
deriving DecidableEq, Repr

/-- The common page header (R54 to R69). PAGE_ID and PAGE_CAP are computed, not held. -/
def regsCommon : List RegRow := [
  ⟨0x000, 1, 4, 0, 0, false, false, none, 0, 0, 0, 0, 0⟩,
  ⟨0x004, 1, 4, 0, 0, false, false, none, 0, 0, 0, 0, 0⟩,
  ⟨0x008, 1, 4, 3, 0, false, false, none, 3, 0, 0xC, 0, 0⟩,
  ⟨0x00C, 1, 4, 0, 0, false, false, none, 0, 0, 0, 0, 0⟩,
  ⟨0x010, 1, 4, 7, 0, false, false, none, 0, 0xFFFFFFFF, 0, 0, 0⟩,
  ⟨0x014, 1, 4, 7, 0, false, false, none, 0xFFFFFFFF, 0, 0, 0, 0⟩,
  ⟨0x018, 1, 4, 8, 0, false, false, none, 0, 0, 0xFFFFFFFF, 0, 0⟩,
  ⟨0x01C, 1, 4, 0, 0, false, false, none, 0, 0, 0, 0, 0⟩,
  ⟨0x020, 1, 4, 3, 0, false, false, none, 0x8000FFFF, 0, 0, 0, 0x3FF⟩,
  ⟨0x024, 1, 4, 0, 0, false, false, none, 0, 0, 0, 0, 0⟩]

/-- The MOD registers (02_register_pages_and_ledger.md R654). -/
def regsMod : List RegRow := [
  ⟨0x100, 1, 4, 0, 0, false, false, none, 0, 0, 0, 0, 0x80000800⟩,
  ⟨0x104, 4, 4, 0, 0, false, false, none, 0, 0, 0, 0, 0xffffffff⟩,
  ⟨0x114, 1, 4, 0, 0, false, false, none, 0, 0, 0, 0, 1⟩]

/-- The LDG registers (02_register_pages_and_ledger.md R76-R81, R653). -/
def regsLdg : List RegRow := [
  ⟨0x100, 1, 4, 0, 0, false, false, none, 0, 0, 0, 0, 0x40000000⟩,
  ⟨0x104, 1, 4, 0, 0, false, false, none, 0, 0, 0, 0, 0x5f⟩,
  ⟨0x108, 1, 4, 0, 0, true, false, none, 0, 0, 0, 0, 0xffffffff⟩,
  ⟨0x10c, 1, 4, 0, 0, false, false, none, 0, 0, 0, 0, 0xffffffff⟩,
  ⟨0x110, 1, 4, 1, 1, false, false, none, 0xffffffff, 0, 0, 0, 0xffffffff⟩,
  ⟨0x114, 1, 4, 1, 2, false, false, none, 0xffffffff, 0, 0, 0, 0xffffffff⟩,
  ⟨0x118, 1, 4, 0, 0, false, false, none, 0, 0, 0, 0, 0⟩]

/-- The TIL registers (04_tile_compute.md R139-R145). -/
def regsTil : List RegRow := [
  ⟨0x100, 1, 4, 0, 0, false, false, none, 0, 0, 0, 0, 0⟩,
  ⟨0x108, 1, 4, 3, 0, false, false, none, 0, 0x80000000, 0, 0, 0xffff000⟩,
  ⟨0x10c, 1, 4, 3, 0, false, false, none, 0, 0x80000000, 0, 0, 0xffff000⟩,
  ⟨0x110, 1, 4, 0, 0, false, false, none, 0, 0, 0, 0xffffffff, 0⟩,
  ⟨0x114, 1, 4, 0, 0, false, false, none, 0, 0, 0, 0, 0⟩,
  ⟨0x118, 1, 4, 0, 0, false, false, none, 0, 0, 0, 0, 0⟩,
  ⟨0x120, 1, 4, 3, 0, false, false, none, 0x3f, 0, 0, 0, 0⟩,
  ⟨0x124, 1, 4, 3, 0, false, false, some (0x120, 5, 0), 0xc000ffff, 0, 0, 0, 0xffff⟩,
  ⟨0x128, 1, 4, 3, 0, false, false, some (0x120, 5, 0), 0xffffffff, 0, 0, 0, 0xff800000⟩,
  ⟨0x12c, 1, 4, 3, 0, false, false, some (0x120, 5, 0), 0xffffffff, 0, 0, 0, 0x7f800000⟩,
  ⟨0x130, 1, 4, 0, 0, false, false, none, 0, 0, 0, 0xffff, 0⟩,
  ⟨0x134, 1, 4, 0, 0, false, false, none, 0, 0, 0, 0, 0⟩,
  ⟨0x140, 1, 4, 0, 0, false, false, none, 0, 0, 0, 0, 0⟩]

/-- The HAM registers (05_command_streams.md R186). -/
def regsHam : List RegRow := [
  ⟨0x100, 16, 4, 0, 0, false, false, none, 0, 0, 0, 0, 0⟩,
  ⟨0x140, 1, 4, 0, 0, false, false, none, 0, 0, 0, 0, 0⟩,
  ⟨0x144, 1, 4, 0, 0, false, false, none, 0, 0, 0, 0, 0x80001000⟩,
  ⟨0x148, 1, 4, 0, 0, true, false, none, 0, 0, 0, 0, 0⟩,
  ⟨0x14c, 1, 4, 0, 0, false, false, none, 0, 0, 0, 0, 0⟩]

/-- The CRT registers (05_command_streams.md R187-R192). -/
def regsCrt : List RegRow := [
  ⟨0x100, 1, 4, 0, 0, false, false, none, 0, 0, 0, 0, 0⟩,
  ⟨0x104, 1, 4, 0, 0, false, false, none, 0, 0, 0, 0, 0⟩,
  ⟨0x108, 1, 4, 3, 0, false, false, none, 0, 0x80000000, 0, 0, 0⟩,
  ⟨0x10c, 1, 4, 0, 0, true, false, none, 0, 0, 0, 0, 0⟩,
  ⟨0x110, 1, 4, 0, 0, false, false, none, 0, 0, 0, 0, 0⟩,
  ⟨0x120, 1, 4, 0, 0, true, false, none, 0, 0, 0, 0, 0⟩,
  ⟨0x124, 1, 4, 0, 0, false, false, none, 0, 0, 0, 0, 0⟩,
  ⟨0x128, 1, 4, 0, 0, false, false, none, 0, 0, 0, 0xffffffff, 0⟩,
  ⟨0x12c, 1, 4, 0, 0, false, false, none, 0, 0, 0, 0xffffffff, 0⟩]

/-- The ATS registers (06_attention.md R236, R237). -/
def regsAts : List RegRow := [
  ⟨0x100, 1, 4, 0, 0, false, false, none, 0, 0, 0, 0, 0⟩,
  ⟨0x104, 1, 4, 0, 0, false, false, none, 0, 0, 0, 0, 0⟩,
  ⟨0x108, 1, 4, 3, 0, false, false, none, 0, 0x80000000, 0, 0, 0⟩,
  ⟨0x10c, 1, 4, 0, 0, true, false, none, 0, 0, 0, 0, 0⟩,
  ⟨0x110, 1, 4, 0, 0, false, false, none, 0, 0, 0, 0, 0⟩,
  ⟨0x120, 1, 4, 3, 0, false, false, none, 0xf, 0, 0, 0, 4⟩,
  ⟨0x130, 1, 4, 0, 0, false, false, none, 0, 0, 0, 0xffffffff, 0⟩,
  ⟨0x134, 1, 4, 0, 0, false, false, none, 0, 0, 0, 0xffffffff, 0⟩,
  ⟨0x138, 1, 4, 0, 0, false, false, none, 0, 0, 0, 0xffffffff, 0⟩,
  ⟨0x13c, 1, 4, 0, 0, false, false, none, 0, 0, 0, 0xffffffff, 0⟩]

/-- The SMP registers (07_sampling_and_randomness.md R269-R271). -/
def regsSmp : List RegRow := [
  ⟨0x100, 1, 4, 3, 1, false, false, none, 0xffffffff, 0, 0, 0, 0⟩,
  ⟨0x104, 1, 4, 3, 2, false, false, none, 0xffffffff, 0, 0, 0, 0⟩,
  ⟨0x108, 1, 4, 3, 0, false, false, none, 0x1fff, 0, 0, 0, 0⟩,
  ⟨0x110, 1, 4, 0, 0, true, false, none, 0, 0, 0, 0, 0⟩,
  ⟨0x114, 1, 4, 0, 0, false, false, none, 0, 0, 0, 0, 0⟩,
  ⟨0x118, 1, 4, 0, 0, false, false, none, 0, 0, 0, 0xffffffff, 0⟩,
  ⟨0x11c, 1, 4, 3, 0, false, false, none, 0, 0x80000000, 0, 0, 0⟩,
  ⟨0x120, 1, 4, 3, 0, false, false, none, 0, 0, 1, 0, 0⟩,
  ⟨0x124, 1, 4, 0, 0, false, false, none, 0, 0, 0, 0, 0⟩]

/-- The REQ registers (08_generation_engine.md R310). -/
def regsReq : List RegRow := [
  ⟨0x100, 1, 4, 0, 0, false, false, none, 0, 0, 0, 0, 0⟩,
  ⟨0x104, 1, 4, 0, 0, false, false, none, 0, 0, 0, 0xffffffff, 0⟩,
  ⟨0x108, 1, 4, 3, 0, false, false, none, 0, 0x80000000, 0, 0, 0⟩,
  ⟨0x110, 1, 4, 0, 0, true, false, none, 0, 0, 0, 0, 0⟩,
  ⟨0x114, 1, 4, 0, 0, false, false, none, 0, 0, 0, 0, 0⟩,
  ⟨0x118, 1, 4, 0, 0, false, false, none, 0, 0, 0, 0xffffffff, 0⟩,
  ⟨0x11c, 1, 4, 0, 0, false, false, none, 0, 0, 0, 0xffffffff, 0⟩,
  ⟨0x120, 1, 4, 0, 0, false, false, none, 0, 0, 0, 0xffffffff, 0⟩,
  ⟨0x124, 1, 4, 0, 0, false, false, none, 0, 0, 0, 0xffffffff, 0⟩,
  ⟨0x128, 1, 4, 0, 0, false, false, none, 0, 0, 0, 0xffffffff, 0⟩,
  ⟨0x140, 1, 4, 3, 0, false, false, none, 0x3f, 0, 0, 0, 0⟩,
  ⟨0x144, 1, 4, 3, 1, false, false, some (0x140, 5, 0), 0xffffffff, 0, 0, 0, 0⟩,
  ⟨0x148, 1, 4, 3, 2, false, false, some (0x140, 5, 0), 0xffffffff, 0, 0, 0, 0⟩,
  ⟨0x14c, 1, 4, 3, 0, false, false, some (0x140, 5, 0), 0x1fffff, 0, 0, 0, 0⟩,
  ⟨0x150, 1, 4, 3, 0, false, false, some (0x140, 5, 0), 0xffffffff, 0, 0, 0, 0⟩,
  ⟨0x154, 1, 4, 0, 0, false, false, some (0x140, 5, 0), 0, 0, 0, 0, 0⟩]

/-- The ORC registers (08_generation_engine.md R311). -/
def regsOrc : List RegRow := [
  ⟨0x100, 1, 4, 1, 1, false, false, none, 0xffffffff, 0, 0, 0, 0⟩,
  ⟨0x104, 1, 4, 1, 2, false, false, none, 0xffffffff, 0, 0, 0, 0⟩,
  ⟨0x108, 1, 4, 3, 0, false, false, none, 0xffffffff, 0, 0, 0, 0xffffffff⟩,
  ⟨0x10c, 1, 4, 0, 0, false, false, none, 0, 0, 0, 0xffffffff, 0⟩,
  ⟨0x140, 1, 4, 3, 0, false, false, none, 0x1f, 0, 0, 0, 0⟩,
  ⟨0x144, 1, 4, 3, 0, false, false, some (0x140, 4, 0), 0xffff, 0, 0, 0, 0x1000⟩,
  ⟨0x148, 1, 4, 3, 0, false, false, some (0x140, 4, 0), 0xffff1fff, 0, 0, 0, 0x20000400⟩,
  ⟨0x14c, 1, 4, 3, 1, false, false, some (0x140, 4, 0), 0xffffffff, 0, 0, 0, 0⟩,
  ⟨0x150, 1, 4, 3, 2, false, false, some (0x140, 4, 0), 0xffffffff, 0, 0, 0, 0⟩,
  ⟨0x154, 1, 4, 3, 0, false, false, some (0x140, 4, 0), 0x1f, 0, 0, 0, 0⟩,
  ⟨0x158, 1, 4, 3, 0, false, false, some (0x140, 4, 0), 0xffffff, 0, 0, 0, 0x4400⟩,
  ⟨0x160, 1, 4, 0, 0, true, false, some (0x140, 4, 0), 0, 0, 0, 0, 0⟩,
  ⟨0x164, 1, 4, 0, 0, false, false, some (0x140, 4, 0), 0, 0, 0, 0, 0⟩,
  ⟨0x168, 1, 4, 3, 1, false, false, some (0x140, 4, 0), 0xffffffff, 0, 0, 0, 0⟩,
  ⟨0x16c, 1, 4, 3, 2, false, false, some (0x140, 4, 0), 0xffffffff, 0, 0, 0, 0⟩,
  ⟨0x170, 1, 4, 0, 0, false, false, some (0x140, 4, 0), 0, 0, 0, 0xffffffff, 0⟩,
  ⟨0x174, 1, 4, 0, 0, false, false, some (0x140, 4, 0), 0, 0, 0, 0xffffffff, 0⟩]

/-- The UPD registers (09_learning_and_update.md R343). -/
def regsUpd : List RegRow := [
  ⟨0x100, 1, 4, 0, 0, false, false, none, 0, 0, 0, 0, 0⟩,
  ⟨0x104, 1, 4, 3, 1, false, false, none, 0xffffffff, 0, 0, 0, 0⟩,
  ⟨0x108, 1, 4, 3, 2, false, false, none, 0xffffffff, 0, 0, 0, 0⟩,
  ⟨0x10c, 1, 4, 3, 1, false, false, none, 0xffffffff, 0, 0, 0, 0⟩,
  ⟨0x110, 1, 4, 3, 2, false, false, none, 0xffffffff, 0, 0, 0, 0⟩,
  ⟨0x114, 1, 4, 3, 0, false, false, none, 0xffff, 0, 0, 0, 0⟩,
  ⟨0x118, 1, 4, 3, 1, false, false, none, 0xffffffff, 0, 0, 0, 0⟩,
  ⟨0x11c, 1, 4, 3, 2, false, false, none, 0xffffffff, 0, 0, 0, 0⟩,
  ⟨0x120, 1, 4, 0, 0, false, false, none, 0, 0, 0, 0, 0⟩,
  ⟨0x124, 1, 4, 0, 0, true, false, none, 0, 0, 0, 0, 0⟩,
  ⟨0x128, 1, 4, 0, 0, false, false, none, 0, 0, 0, 0, 0⟩,
  ⟨0x12c, 1, 4, 0, 0, false, false, none, 0, 0, 0, 0xffffffff, 0⟩,
  ⟨0x130, 1, 4, 0, 0, false, false, none, 0, 0, 0, 0xffffffff, 0⟩,
  ⟨0x134, 1, 4, 3, 0, false, false, none, 0, 0x80000000, 0, 0, 0⟩]

/-- The EPO registers (10_weight_epochs.md R369, R370). -/
def regsEpo : List RegRow := [
  ⟨0x100, 1, 4, 3, 0, false, false, none, 0x1ffff, 0, 0, 0, 0xe10⟩,
  ⟨0x110, 3, 16, 0, 0, false, false, none, 0, 0, 0, 0, 0⟩,
  ⟨0x114, 3, 16, 0, 0, false, false, none, 0, 0, 0, 0, 0xffffffff⟩,
  ⟨0x118, 3, 16, 1, 0, false, false, none, 0x7ffffff, 0, 0, 0, 0⟩,
  ⟨0x11c, 3, 16, 1, 0, false, false, none, 0xffff, 0, 0, 0, 0⟩,
  ⟨0x150, 1, 4, 1, 0, false, false, none, 0xffffffff, 0, 0, 0, 0⟩,
  ⟨0x154, 1, 4, 1, 0, false, false, none, 0xffffffff, 0, 0, 0, 0⟩,
  ⟨0x158, 1, 4, 1, 0, false, false, none, 0xffffffff, 0, 0, 0, 0⟩,
  ⟨0x15c, 1, 4, 1, 0, false, false, none, 0xffffffff, 0, 0, 0, 0⟩,
  ⟨0x160, 1, 4, 1, 0, false, false, none, 0, 0, 1, 0, 0⟩,
  ⟨0x180, 1, 4, 3, 0, false, false, none, 0x1f, 0, 0, 0, 0⟩,
  ⟨0x184, 1, 4, 3, 0, false, false, some (0x180, 4, 0), 0xc00fffff, 0, 0, 0, 0x20040⟩,
  ⟨0x188, 1, 4, 3, 0, false, false, some (0x180, 4, 0), 0xffffffff, 0, 0, 0, 0xffffffff⟩,
  ⟨0x18c, 1, 4, 0, 0, false, false, some (0x180, 4, 0), 0, 0, 0, 0, 0xffffffff⟩,
  ⟨0x190, 1, 4, 0, 0, false, false, some (0x180, 4, 0), 0, 0, 0, 0xffffffff, 0⟩,
  ⟨0x1a0, 1, 4, 3, 0, false, false, none, 0x800000ff, 0, 0, 0, 1⟩,
  ⟨0x1a4, 1, 4, 3, 0, false, false, none, 0xffffffff, 0, 0, 0, 0⟩,
  ⟨0x1a8, 1, 4, 3, 0, false, false, none, 0xffffffff, 0, 0, 0, 0⟩,
  ⟨0x1ac, 1, 4, 3, 0, false, false, none, 0xffffffff, 0, 0, 0, 1⟩,
  ⟨0x1b0, 1, 4, 0, 0, true, false, none, 0, 0, 0, 0, 0⟩,
  ⟨0x1b4, 1, 4, 0, 0, false, false, none, 0, 0, 0, 0, 0⟩,
  ⟨0x1b8, 1, 4, 0, 0, false, false, none, 0, 0, 0, 0xffffffff, 0⟩,
  ⟨0x1c0, 1, 4, 0, 0, false, false, none, 0, 0, 0, 0xffffffff, 0⟩,
  ⟨0x1c4, 1, 4, 0, 0, false, false, none, 0, 0, 0, 0xffffffff, 0⟩,
  ⟨0x1c8, 1, 4, 0, 0, false, false, none, 0, 0, 0, 0xffffffff, 0⟩,
  ⟨0x1d0, 1, 4, 1, 1, false, false, none, 0xffffffff, 0, 0, 0, 0⟩,
  ⟨0x1d4, 1, 4, 1, 2, false, false, none, 0xffffffff, 0, 0, 0, 0⟩]

/-- The HST registers (11_memory_tiers_and_loft.md R398-R400). -/
def regsHst : List RegRow := [
  ⟨0x100, 1, 4, 3, 0, false, false, none, 0xffffffff, 0, 0, 0, 0xffffffff⟩,
  ⟨0x104, 1, 4, 0, 0, false, false, none, 0, 0, 0, 0, 0⟩,
  ⟨0x108, 1, 4, 0, 0, false, false, none, 0, 0, 0, 0, 0⟩,
  ⟨0x110, 1, 4, 0, 0, false, false, none, 0, 0, 0, 0xffffffff, 0⟩,
  ⟨0x114, 1, 4, 0, 0, false, false, none, 0, 0, 0, 0xffffffff, 0⟩,
  ⟨0x118, 1, 4, 0, 0, false, false, none, 0, 0, 0, 0xffffffff, 0⟩,
  ⟨0x11c, 1, 4, 0, 0, false, false, none, 0, 0, 0, 0xffff, 0⟩,
  ⟨0x120, 1, 4, 0, 0, false, false, none, 0, 0, 0, 0, 0⟩]

/-- The NTM registers (11_memory_tiers_and_loft.md R380-R385). -/
def regsNtm : List RegRow := [
  ⟨0x100, 32, 4, 0, 0, false, false, none, 0, 0, 0, 0, 0x10001000⟩,
  ⟨0x180, 1, 4, 0, 0, false, false, none, 0, 0, 0, 0xffffffff, 0⟩,
  ⟨0x184, 1, 4, 0, 0, false, false, none, 0, 0, 0, 0, 0⟩,
  ⟨0x188, 1, 4, 0, 0, false, false, none, 0, 0, 0, 0, 0⟩,
  ⟨0x18c, 1, 4, 3, 0, false, false, none, 0, 0x80000000, 0, 0, 0⟩,
  ⟨0x190, 1, 4, 3, 0, false, false, none, 0xffff, 0, 0, 0, 0x418⟩,
  ⟨0x194, 1, 4, 0, 0, false, false, none, 0, 0, 0, 0xffffffff, 0⟩,
  ⟨0x198, 1, 4, 1, 0, false, false, none, 0x1f, 0, 0x100, 0, 0⟩]

/-- The FTM registers (11_memory_tiers_and_loft.md R389-R397). -/
def regsFtm : List RegRow := [
  ⟨0x100, 1, 4, 0, 0, false, false, none, 0, 0, 0, 0xffffffff, 0⟩,
  ⟨0x104, 1, 4, 0, 0, false, false, none, 0, 0, 0, 0, 0⟩,
  ⟨0x108, 1, 4, 0, 0, false, false, none, 0, 0, 0, 0, 0⟩,
  ⟨0x10c, 1, 4, 3, 0, false, false, none, 0, 0x80000000, 0, 0, 0⟩,
  ⟨0x110, 1, 4, 3, 0, false, false, none, 0xffff, 0, 0, 0, 0x418⟩,
  ⟨0x114, 1, 4, 0, 0, false, false, none, 0, 0, 0, 0xffffffff, 0⟩,
  ⟨0x118, 1, 4, 0, 0, false, false, none, 0, 0, 0, 0, 0⟩,
  ⟨0x200, 1, 4, 0, 0, true, true, none, 0, 0, 0, 0, 0x44000000⟩,
  ⟨0x204, 1, 4, 0, 0, false, true, none, 0, 0, 0, 0, 0x5f⟩,
  ⟨0x208, 1, 4, 0, 0, true, true, none, 0, 0, 0, 0, 0x46000000⟩,
  ⟨0x20c, 1, 4, 0, 0, false, true, none, 0, 0, 0, 0, 0x5f⟩,
  ⟨0x210, 1, 4, 0, 0, true, true, none, 0, 0, 0, 0, 0x47000000⟩,
  ⟨0x214, 1, 4, 0, 0, false, true, none, 0, 0, 0, 0, 0x5f⟩,
  ⟨0x220, 1, 4, 3, 0, false, true, none, 0xff, 0, 0, 0, 0⟩,
  ⟨0x224, 1, 4, 3, 0, false, true, none, 0x1fffff, 0, 0, 0, 0⟩,
  ⟨0x228, 1, 4, 3, 0, false, true, none, 0x3fffff, 0, 0, 0, 0⟩,
  ⟨0x22c, 1, 4, 3, 0, false, true, none, 0xffffffff, 0, 0, 0, 0⟩,
  ⟨0x230, 1, 4, 3, 0, false, true, none, 0, 0, 1, 0, 0⟩,
  ⟨0x234, 1, 4, 0, 0, false, true, none, 0, 0, 0, 0, 0⟩,
  ⟨0x240, 1, 4, 3, 0, false, true, none, 0x1f, 0, 0, 0, 0⟩,
  ⟨0x244, 1, 4, 3, 1, false, true, some (0x240, 4, 0), 0xffffffff, 0, 0, 0, 0⟩,
  ⟨0x248, 1, 4, 3, 2, false, true, some (0x240, 4, 0), 0xffffffff, 0, 0, 0, 0⟩,
  ⟨0x24c, 1, 4, 3, 0, false, true, some (0x240, 4, 0), 0x1fff, 0, 0, 0, 0⟩,
  ⟨0x250, 1, 4, 0, 0, true, true, none, 0, 0, 0, 0, 0⟩,
  ⟨0x254, 1, 4, 0, 0, false, true, none, 0, 0, 0, 0, 0⟩,
  ⟨0x258, 1, 4, 0, 0, false, true, none, 0, 0, 0, 0xffffffff, 0⟩]

/-- The LFT registers (11_memory_tiers_and_loft.md R402-R412). -/
def regsLft : List RegRow := [
  ⟨0x100, 1, 4, 0, 0, false, false, none, 0, 0, 0, 0, 0xa03ff⟩,
  ⟨0x104, 1, 4, 0, 0, false, false, none, 0, 0, 0, 0, 0x4000⟩,
  ⟨0x108, 1, 4, 0, 0, false, false, none, 0, 0, 0, 0, 0⟩,
  ⟨0x10c, 1, 4, 0, 0, false, false, none, 0, 0, 0, 0, 0⟩,
  ⟨0x110, 1, 4, 3, 0, false, false, none, 0xff3f, 0, 0, 0, 0x714⟩,
  ⟨0x114, 1, 4, 0, 0, false, false, none, 0, 0, 0, 0xffffffff, 0⟩,
  ⟨0x118, 1, 4, 0, 0, false, false, none, 0, 0, 0, 0xffffffff, 0⟩,
  ⟨0x120, 1, 4, 3, 0, false, false, none, 0xffff0001, 0, 0, 0, 0⟩,
  ⟨0x124, 1, 4, 3, 0, false, false, none, 0xffffffff, 0, 0, 0, 0⟩,
  ⟨0x128, 1, 4, 3, 0, false, false, none, 0xffffffff, 0, 0, 0, 0⟩,
  ⟨0x12c, 1, 4, 3, 0, false, false, none, 0xffffffff, 0, 0, 0, 0⟩,
  ⟨0x130, 1, 4, 3, 0, false, false, none, 0xffffffff, 0, 0, 0, 0⟩,
  ⟨0x134, 1, 4, 3, 0, false, false, none, 0xffffffff, 0, 0, 0, 0⟩,
  ⟨0x138, 1, 4, 3, 0, false, false, none, 0, 0, 1, 0, 0⟩,
  ⟨0x13c, 1, 4, 0, 0, false, false, none, 0, 0, 0, 0, 0⟩]

/-- The NET registers (12_yelyo_fabric.md R437). -/
def regsNet : List RegRow := [
  ⟨0x100, 1, 4, 0, 0, false, false, none, 0, 0, 0, 0, 0⟩,
  ⟨0x104, 1, 4, 0, 0, true, false, none, 0, 0, 0, 0, 0⟩,
  ⟨0x108, 1, 4, 0, 0, false, false, none, 0, 0, 0, 0, 0⟩,
  ⟨0x10c, 1, 4, 0, 0, false, false, none, 0, 0, 0, 0xffffffff, 0⟩,
  ⟨0x110, 1, 4, 0, 0, false, false, none, 0, 0, 0, 0xffffffff, 0⟩]

/-- The SPN registers (12_yelyo_fabric.md R437). -/
def regsSpn : List RegRow := [
  ⟨0x100, 1, 4, 0, 0, false, false, none, 0, 0, 0, 0, 0⟩,
  ⟨0x104, 1, 4, 0, 0, false, false, none, 0, 0, 0, 0, 0⟩,
  ⟨0x108, 1, 4, 0, 0, true, false, none, 0, 0, 0, 0, 0⟩,
  ⟨0x10c, 1, 4, 0, 0, false, false, none, 0, 0, 0, 0, 0⟩,
  ⟨0x110, 1, 4, 0, 0, false, false, none, 0, 0, 0, 0xffffffff, 0⟩]

/-- The D2D registers (12_yelyo_fabric.md R438). -/
def regsD2d : List RegRow := [
  ⟨0x100, 1, 4, 0, 0, false, false, none, 0, 0, 0, 0, 4⟩,
  ⟨0x104, 1, 4, 0, 0, false, false, none, 0, 0, 0, 0xffffffff, 0⟩,
  ⟨0x108, 1, 4, 0, 0, false, false, none, 0, 0, 0, 0xffffffff, 0⟩,
  ⟨0x10c, 1, 4, 0, 0, false, false, none, 0, 0, 0, 0xffffffff, 0⟩,
  ⟨0x110, 1, 4, 0, 0, true, false, none, 0, 0, 0, 0, 0⟩,
  ⟨0x114, 1, 4, 0, 0, false, false, none, 0, 0, 0, 0, 0⟩]

/-- The DIE registers (12_yelyo_fabric.md R438, R654). -/
def regsDie : List RegRow := [
  ⟨0x100, 1, 4, 0, 0, false, false, none, 0, 0, 0, 0, 0xffffffff⟩,
  ⟨0x104, 1, 4, 0, 0, false, false, none, 0, 0, 0, 0, 0⟩,
  ⟨0x108, 1, 4, 0, 0, false, false, none, 0, 0, 0, 0, 0⟩,
  ⟨0x10c, 1, 4, 0, 0, false, false, none, 0, 0, 0, 0, 0⟩]

/-- The YLK registers (12_yelyo_fabric.md R415-R427). -/
def regsYlk : List RegRow := [
  ⟨0x100, 1, 4, 0, 0, false, false, none, 0, 0, 0, 0, 0⟩,
  ⟨0x104, 1, 4, 3, 0, false, false, none, 0xfff0, 0, 1, 0, 0x5080⟩,
  ⟨0x108, 1, 4, 0, 0, false, false, none, 0, 0, 0, 0xffffffff, 0⟩,
  ⟨0x10c, 1, 4, 0, 0, false, false, none, 0, 0, 0, 0xffffffff, 0⟩,
  ⟨0x110, 1, 4, 0, 0, false, false, none, 0, 0, 0, 0xffffffff, 0⟩,
  ⟨0x114, 1, 4, 0, 0, false, false, none, 0, 0, 0, 0xffffffff, 0⟩,
  ⟨0x118, 1, 4, 0, 0, false, false, none, 0, 0, 0, 0xffffffff, 0⟩,
  ⟨0x11c, 1, 4, 0, 0, false, false, none, 0, 0, 0, 0xffffffff, 0⟩,
  ⟨0x120, 1, 4, 0, 0, false, false, none, 0, 0, 0, 0, 0⟩,
  ⟨0x140, 1, 4, 1, 1, false, true, none, 0xffffffff, 0, 0, 0, 0⟩,
  ⟨0x144, 1, 4, 1, 2, false, true, none, 0xffffffff, 0, 0, 0, 0⟩,
  ⟨0x148, 1, 4, 1, 0, false, true, none, 0xffffffff, 0, 0, 0, 0xfffefffe⟩,
  ⟨0x14c, 1, 4, 1, 0, false, true, none, 0xffffffff, 0, 0, 0, 0xfffefffe⟩,
  ⟨0x150, 1, 4, 3, 0, false, true, none, 0xf000ffff, 0, 0, 0, 0x400000c8⟩]

/-- The ETH registers (12_yelyo_fabric.md R439, R440). -/
def regsEth : List RegRow := [
  ⟨0x100, 1, 4, 0, 0, false, false, none, 0, 0, 0, 0, 0⟩,
  ⟨0x104, 1, 4, 1, 0, false, false, none, 0x3f1f, 0, 0, 0, 0x2e17⟩,
  ⟨0x108, 1, 4, 0, 0, false, false, none, 0, 0, 0, 0xffffffff, 0⟩,
  ⟨0x10c, 1, 4, 0, 0, false, false, none, 0, 0, 0, 0xffffffff, 0⟩,
  ⟨0x110, 1, 4, 0, 0, false, false, none, 0, 0, 0, 0xffffffff, 0⟩,
  ⟨0x114, 1, 4, 0, 0, false, false, none, 0, 0, 0, 0xffffffff, 0⟩,
  ⟨0x118, 1, 4, 0, 0, false, false, none, 0, 0, 0, 0, 0⟩]

/-- The PEN registers (13_collectives.md R442-R467). -/
def regsPen : List RegRow := [
  ⟨0x100, 1, 4, 0, 0, false, false, none, 0, 0, 0, 0, 0⟩,
  ⟨0x104, 1, 4, 3, 1, false, false, none, 0xffffffff, 0, 0, 0, 0⟩,
  ⟨0x108, 1, 4, 3, 2, false, false, none, 0xffffffff, 0, 0, 0, 0⟩,
  ⟨0x140, 1, 4, 3, 0, false, false, none, 0x1fff, 0, 0, 0, 0⟩,
  ⟨0x144, 1, 4, 3, 1, false, false, some (0x140, 12, 8), 0xffffffff, 0, 0, 0, 0⟩,
  ⟨0x148, 1, 4, 3, 2, false, false, some (0x140, 12, 8), 0xffffffff, 0, 0, 0, 0⟩,
  ⟨0x14c, 1, 4, 3, 0, false, false, some (0x140, 12, 8), 0x7ff, 0, 0, 0, 0⟩,
  ⟨0x150, 1, 4, 0, 0, true, false, none, 0, 0, 0, 0, 0⟩,
  ⟨0x154, 1, 4, 0, 0, false, false, none, 0, 0, 0, 0, 0⟩,
  ⟨0x160, 1, 4, 3, 0, false, false, none, 0, 0x80000000, 0, 0, 0⟩,
  ⟨0x164, 1, 4, 0, 0, true, false, none, 0, 0, 0, 0, 0⟩,
  ⟨0x168, 1, 4, 0, 0, false, false, none, 0, 0, 0, 0, 0⟩,
  ⟨0x170, 1, 4, 0, 0, false, false, none, 0, 0, 0, 0xffffffff, 0⟩,
  ⟨0x174, 1, 4, 0, 0, false, false, none, 0, 0, 0, 0xffffffff, 0⟩,
  ⟨0x178, 1, 4, 0, 0, false, false, none, 0, 0, 0, 0xffffffff, 0⟩]

/-- The CRI registers (13_collectives.md R468-R472). -/
def regsCri : List RegRow := [
  ⟨0x100, 1, 4, 1, 0, false, false, none, 0xff0f01, 0, 0, 0, 0x190400⟩,
  ⟨0x104, 1, 4, 1, 1, false, false, none, 0xffffffff, 0, 0, 0, 0⟩,
  ⟨0x108, 1, 4, 1, 2, false, false, none, 0xffffffff, 0, 0, 0, 0⟩,
  ⟨0x10c, 1, 4, 1, 0, false, false, none, 0x3f, 0, 0, 0, 0⟩,
  ⟨0x110, 1, 4, 1, 0, false, false, none, 0xffff, 0, 0, 0, 0⟩,
  ⟨0x114, 1, 4, 1, 0, false, false, none, 0xff, 0, 0, 0, 0⟩,
  ⟨0x118, 4, 4, 1, 0, false, false, none, 0xffffffff, 0, 0, 0, 0⟩,
  ⟨0x128, 1, 4, 1, 0, false, false, none, 0, 0, 1, 0, 0⟩,
  ⟨0x130, 1, 4, 0, 0, false, false, none, 0, 0, 0, 0xffffffff, 0⟩,
  ⟨0x134, 1, 4, 0, 0, false, false, none, 0, 0, 0, 0xffffffff, 0⟩,
  ⟨0x138, 1, 4, 0, 0, false, false, none, 0, 0, 0, 0xffffffff, 0⟩,
  ⟨0x13c, 1, 4, 0, 0, false, false, none, 0, 0, 0, 0xffffffff, 0⟩,
  ⟨0x140, 1, 4, 0, 0, false, false, none, 0, 0, 0, 0xffffffff, 0⟩]

/-- The FNC registers (14_functions_and_partitions.md R480-R491). -/
def regsFnc : List RegRow := [
  ⟨0x100, 1, 4, 1, 0, false, false, none, 0x8000071f, 0, 0, 0, 0⟩,
  ⟨0x104, 1, 4, 1, 0, false, false, none, 0xffffffff, 0, 0, 0, 0⟩,
  ⟨0x108, 1, 4, 1, 0, false, false, none, 0x3fff7fff, 0, 0, 0, 0⟩,
  ⟨0x10c, 1, 4, 1, 1, false, false, none, 0xffffffff, 0, 0, 0, 0⟩,
  ⟨0x110, 1, 4, 1, 2, false, false, none, 0xffffffff, 0, 0, 0, 0⟩,
  ⟨0x114, 1, 4, 5, 1, false, false, none, 0xffffffff, 0, 0, 0, 0⟩,
  ⟨0x118, 1, 4, 5, 2, false, false, none, 0xffffffff, 0, 0, 0, 0⟩,
  ⟨0x11c, 1, 4, 5, 1, false, false, none, 0xffffffff, 0, 0, 0, 0⟩,
  ⟨0x120, 1, 4, 5, 2, false, false, none, 0xffffffff, 0, 0, 0, 0⟩,
  ⟨0x124, 1, 4, 5, 1, false, false, none, 0xffffffff, 0, 0, 0, 0⟩,
  ⟨0x128, 1, 4, 5, 2, false, false, none, 0xffffffff, 0, 0, 0, 0⟩,
  ⟨0x12c, 1, 4, 5, 0, false, false, none, 0x1f1f, 0, 0, 0, 0⟩,
  ⟨0x130, 1, 4, 0, 0, false, false, none, 0, 0, 0, 0, 0⟩,
  ⟨0x134, 1, 4, 0, 0, false, false, none, 0, 0, 0, 0, 0⟩,
  ⟨0x138, 1, 4, 0, 0, false, false, none, 0, 0, 0, 0, 0⟩,
  ⟨0x13c, 1, 4, 0, 0, false, false, none, 0, 0, 0, 0, 0⟩,
  ⟨0x140, 1, 4, 0, 0, false, false, none, 0, 0, 0, 0xffffffff, 0⟩,
  ⟨0x144, 1, 4, 0, 0, false, false, none, 0, 0, 0, 0xffffffff, 0⟩,
  ⟨0x148, 1, 4, 0, 0, false, false, none, 0, 0, 0, 0xffffffff, 0⟩,
  ⟨0x14c, 1, 4, 0, 0, false, false, none, 0, 0, 0, 0xffffffff, 0⟩]

/-- The PRT registers (14_functions_and_partitions.md R494-R500). -/
def regsPrt : List RegRow := [
  ⟨0x100, 1, 4, 3, 0, false, false, none, 0xff000007, 0, 0, 0, 0⟩,
  ⟨0x104, 1, 4, 3, 0, false, false, none, 0, 0, 1, 0, 0⟩,
  ⟨0x108, 1, 4, 0, 0, false, false, none, 0, 0, 0, 0, 0⟩,
  ⟨0x10c, 1, 4, 0, 0, false, false, none, 0, 0, 0, 0, 0⟩,
  ⟨0x110, 4, 4, 3, 0, false, false, none, 0xffffffff, 0, 0, 0, 0⟩,
  ⟨0x120, 8, 4, 3, 0, false, false, none, 0xffffffff, 0, 0, 0, 0⟩,
  ⟨0x140, 1, 4, 3, 0, false, false, none, 0xffffffff, 0, 0, 0, 0⟩,
  ⟨0x144, 1, 4, 3, 0, false, false, none, 0xe0000007, 0, 0, 0, 0⟩,
  ⟨0x148, 1, 4, 1, 0, false, false, none, 1, 0, 0, 0, 0⟩,
  ⟨0x14c, 1, 4, 3, 0, false, false, none, 0xffffff, 0, 0, 0, 0x186a0⟩,
  ⟨0x150, 1, 4, 3, 1, false, false, none, 0xffffffff, 0, 0, 0, 0⟩,
  ⟨0x154, 1, 4, 3, 2, false, false, none, 0xffffffff, 0, 0, 0, 0⟩,
  ⟨0x158, 1, 4, 3, 0, false, false, none, 0x8001ffff, 0, 0, 0, 0⟩,
  ⟨0x15c, 1, 4, 3, 1, false, false, none, 0xffffffff, 0, 0, 0, 0⟩,
  ⟨0x160, 1, 4, 3, 2, false, false, none, 0xffffffff, 0, 0, 0, 0⟩]

/-- The PCI registers (14_functions_and_partitions.md R474, R491). -/
def regsPci : List RegRow := [
  ⟨0x100, 1, 4, 0, 0, false, false, none, 0, 0, 0, 0, 0⟩,
  ⟨0x104, 1, 4, 1, 0, false, false, none, 0x3fff, 0, 0, 0, 0⟩,
  ⟨0x11c, 1, 4, 1, 1, false, false, none, 0xffffffff, 0, 0, 0, 0⟩,
  ⟨0x120, 1, 4, 1, 2, false, false, none, 0xffffffff, 0, 0, 0, 0⟩,
  ⟨0x124, 1, 4, 1, 1, false, false, none, 0xffffffff, 0, 0, 0, 0⟩,
  ⟨0x128, 1, 4, 1, 2, false, false, none, 0xffffffff, 0, 0, 0, 0⟩,
  ⟨0x12c, 1, 4, 1, 0, false, false, none, 0x1f1f, 0, 0, 0, 0⟩,
  ⟨0x130, 1, 4, 0, 0, false, false, none, 0, 0, 0, 0, 0⟩,
  ⟨0x134, 1, 4, 0, 0, false, false, none, 0, 0, 0, 0, 0⟩,
  ⟨0x138, 1, 4, 0, 0, false, false, none, 0, 0, 0, 0, 0⟩,
  ⟨0x140, 1, 4, 0, 0, false, false, none, 0, 0, 0, 0xffffffff, 0⟩,
  ⟨0x144, 1, 4, 0, 0, false, false, none, 0, 0, 0, 0xffffffff, 0⟩,
  ⟨0x148, 1, 4, 0, 0, false, false, none, 0, 0, 0, 0xffffffff, 0⟩,
  ⟨0x14c, 1, 4, 0, 0, false, false, none, 0, 0, 0, 0xffffffff, 0⟩,
  ⟨0x150, 1, 4, 0, 0, false, false, none, 0, 0, 0, 0xffffffff, 0⟩]

/-- The ISL registers (15_islands_clocks_power.md R509-R518). -/
def regsIsl : List RegRow := [
  ⟨0x100, 1, 4, 3, 0, false, false, none, 0x1f, 0, 0, 0, 0⟩,
  ⟨0x104, 1, 4, 3, 0, false, false, some (0x100, 4, 0), 0x7f, 0, 0, 0, 0x30⟩,
  ⟨0x108, 1, 4, 3, 0, false, false, some (0x100, 4, 0), 0xffffff, 0, 0, 0, 0x46321e⟩,
  ⟨0x10c, 1, 4, 0, 0, false, false, some (0x100, 4, 0), 0, 0, 0, 0, 0x30ce400⟩,
  ⟨0x110, 1, 4, 0, 0, false, false, some (0x100, 4, 0), 0, 0, 0, 0, 0⟩,
  ⟨0x114, 1, 4, 0, 0, false, false, some (0x100, 4, 0), 0, 0, 0, 0xffffffff, 0⟩,
  ⟨0x118, 1, 4, 0, 0, false, false, some (0x100, 4, 0), 0, 0, 0, 0xffffffff, 0⟩,
  ⟨0x11c, 1, 4, 0, 0, false, false, some (0x100, 4, 0), 0, 0, 0, 0xffffffff, 0⟩,
  ⟨0x120, 1, 4, 3, 0, false, false, none, 0xffffffff, 0, 0, 0, 0x10032⟩]

/-- The PWR registers (15_islands_clocks_power.md R519-R523). -/
def regsPwr : List RegRow := [
  ⟨0x100, 1, 4, 1, 0, false, false, none, 0xfff, 0, 0, 0, 0xc80⟩,
  ⟨0x104, 1, 4, 0, 0, false, false, none, 0, 0, 0, 0, 0⟩,
  ⟨0x108, 1, 4, 0, 0, false, false, none, 0, 0, 0, 0, 0⟩,
  ⟨0x10c, 1, 4, 3, 0, false, false, none, 0xff, 0, 0, 0, 0x5f⟩,
  ⟨0x110, 1, 4, 0, 0, false, false, none, 0, 0, 0, 0, 0⟩,
  ⟨0x114, 1, 4, 0, 0, false, false, none, 0, 0, 0, 0, 0⟩,
  ⟨0x118, 1, 4, 0, 0, false, false, none, 0, 0, 0, 0xffffffff, 0⟩,
  ⟨0x11c, 1, 4, 0, 0, false, false, none, 0, 0, 0, 0xffffffff, 0⟩]

/-- The CLK registers (15_islands_clocks_power.md R507). -/
def regsClk : List RegRow := [
  ⟨0x100, 1, 4, 0, 0, false, false, none, 0, 0, 0, 0, 0⟩,
  ⟨0x104, 1, 4, 0, 0, true, false, none, 0, 0, 0, 0, 0⟩,
  ⟨0x108, 1, 4, 0, 0, false, false, none, 0, 0, 0, 0, 0⟩,
  ⟨0x10c, 1, 4, 0, 0, false, false, none, 0, 0, 0, 0xffffffff, 0⟩]

/-- The BOOT registers (16_boot_and_attestation.md R527-R545). -/
def regsBoot : List RegRow := [
  ⟨0x100, 1, 4, 0, 0, false, false, none, 0, 0, 0, 0, 0⟩,
  ⟨0x104, 1, 4, 1, 0, false, false, none, 1, 0, 0, 0, 0⟩,
  ⟨0x108, 1, 4, 3, 0, false, false, none, 0x37f, 0, 0x80000000, 0, 0⟩,
  ⟨0x10c, 1, 4, 3, 0, false, false, none, 0, 0, 1, 0, 0⟩,
  ⟨0x110, 1, 4, 3, 0, false, false, none, 0, 0x80000000, 0, 0, 0⟩,
  ⟨0x114, 1, 4, 0, 0, false, false, none, 0, 0, 0, 0, 0⟩,
  ⟨0x118, 1, 4, 1, 0, false, false, none, 0, 0, 1, 0, 0⟩]

/-- The ATT registers (16_boot_and_attestation.md R531, R540-R542). -/
def regsAtt : List RegRow := [
  ⟨0x100, 1, 4, 3, 0, false, false, none, 0x1f, 0, 0, 0, 0⟩,
  ⟨0x104, 12, 4, 0, 0, false, false, none, 0, 0, 0, 0, 0⟩,
  ⟨0x140, 12, 4, 1, 0, false, false, none, 0xffffffff, 0, 0, 0, 0⟩,
  ⟨0x170, 1, 4, 1, 0, false, false, none, 0x1f, 0, 0x80000000, 0, 0⟩,
  ⟨0x174, 1, 4, 1, 0, false, false, none, 0x40000001, 0, 0x80000000, 0, 0⟩,
  ⟨0x178, 1, 4, 0, 0, false, false, none, 0, 0, 0, 0, 0⟩,
  ⟨0x180, 5, 4, 0, 0, false, false, none, 0, 0, 0, 0, 0⟩,
  ⟨0x194, 1, 4, 0, 0, false, false, none, 0, 0, 0, 0xffffffff, 0⟩,
  ⟨0x198, 1, 4, 0, 0, false, false, none, 0, 0, 0, 0xffffffff, 0⟩]

/-- The RAS registers (17_faults_and_recovery.md R557-R562). -/
def regsRas : List RegRow := [
  ⟨0x100, 1, 4, 3, 0, false, false, none, 7, 0, 0, 0, 1⟩,
  ⟨0x104, 1, 4, 3, 0, false, false, none, 0xffffffff, 0, 0, 0, 0xa0018⟩,
  ⟨0x108, 1, 4, 0, 0, false, false, none, 0, 0, 0, 0, 0⟩,
  ⟨0x10c, 1, 4, 0, 0, false, false, none, 0, 0, 0, 0xffffffff, 0⟩,
  ⟨0x110, 1, 4, 0, 0, false, false, none, 0, 0, 0, 0xffffffff, 0⟩,
  ⟨0x114, 1, 4, 0, 0, false, false, none, 0, 0, 0, 0xffffffff, 0⟩,
  ⟨0x118, 1, 4, 3, 0, false, false, none, 0, 0x80000000, 0, 0, 0⟩,
  ⟨0x120, 1, 4, 0, 0, true, false, none, 0, 0, 0, 0, 0x48000000⟩,
  ⟨0x124, 1, 4, 0, 0, false, false, none, 0, 0, 0, 0, 0x5f⟩,
  ⟨0x128, 1, 4, 1, 0, false, false, none, 0x1f, 0, 0, 0, 0⟩,
  ⟨0x12c, 1, 4, 0, 0, false, false, none, 0, 0, 0, 0, 0⟩,
  ⟨0x130, 1, 4, 3, 0, false, false, none, 0xfff, 0, 0, 0, 0⟩,
  ⟨0x134, 1, 4, 0, 0, false, false, some (0x130, 11, 0), 0, 0, 0, 0, 0⟩]

/-- The MBR registers (17_faults_and_recovery.md R564-R573). -/
def regsMbr : List RegRow := [
  ⟨0x100, 1, 4, 1, 0, false, false, none, 0xffff, 0, 0, 0, 0xfffe⟩,
  ⟨0x104, 1, 4, 0, 0, false, false, none, 0, 0, 0, 0, 0⟩,
  ⟨0x108, 1, 4, 1, 0, false, false, none, 0xffffffff, 0, 0, 0, 0xfffefffe⟩,
  ⟨0x10c, 1, 4, 1, 0, false, false, none, 0xffffffff, 0, 0, 0, 0xfffefffe⟩,
  ⟨0x110, 1, 4, 1, 0, false, false, none, 0xffffffff, 0, 0, 0, 0xfffefffe⟩,
  ⟨0x114, 1, 4, 1, 0, false, false, none, 0xffffffff, 0, 0, 0, 0xfffefffe⟩,
  ⟨0x118, 1, 4, 1, 1, false, false, none, 0xffffffff, 0, 0, 0, 0⟩,
  ⟨0x11c, 1, 4, 1, 2, false, false, none, 0xffffffff, 0, 0, 0, 0⟩,
  ⟨0x120, 1, 4, 1, 0, false, false, none, 0xffff, 0, 0x80000000, 0, 0⟩,
  ⟨0x124, 1, 4, 0, 0, false, false, none, 0, 0, 0, 0xffffffff, 0⟩,
  ⟨0x128, 1, 4, 0, 0, false, false, none, 0, 0, 0, 0xffffffff, 0⟩,
  ⟨0x12c, 1, 4, 0, 0, false, false, none, 0, 0, 0, 0xffffffff, 0⟩]

/-- The HLT registers (17_faults_and_recovery.md R575-R579). -/
def regsHlt : List RegRow := [
  ⟨0x100, 1, 4, 1, 0, false, false, none, 0xff, 0, 0, 0, 0x14⟩,
  ⟨0x104, 1, 4, 0, 0, false, false, none, 0, 0, 0, 0, 0x10000000⟩,
  ⟨0x108, 1, 4, 1, 0, false, false, none, 0, 0, 1, 0, 0⟩,
  ⟨0x10c, 1, 4, 0, 0, false, false, none, 0, 0, 0, 0xffffffff, 0⟩,
  ⟨0x110, 1, 4, 0, 0, false, false, none, 0, 0, 0, 0xffffffff, 0⟩]

/-- The BBR registers (17_faults_and_recovery.md R580-R582). -/
def regsBbr : List RegRow := [
  ⟨0x100, 1, 4, 0, 0, true, false, none, 0, 0, 0, 0, 0xffffffff⟩,
  ⟨0x104, 1, 4, 0, 0, false, false, none, 0, 0, 0, 0, 0xffffffff⟩,
  ⟨0x108, 1, 4, 0, 0, true, false, none, 0, 0, 0, 0, 0xffffffff⟩,
  ⟨0x10c, 1, 4, 0, 0, false, false, none, 0, 0, 0, 0, 0xffffffff⟩,
  ⟨0x110, 1, 4, 3, 1, false, false, none, 0xffffffff, 0, 0, 0, 0⟩,
  ⟨0x114, 1, 4, 3, 2, false, false, none, 0xffffffff, 0, 0, 0, 0⟩,
  ⟨0x118, 16, 4, 0, 0, false, false, none, 0, 0, 0, 0, 0⟩,
  ⟨0x158, 1, 4, 0, 0, false, false, none, 0, 0, 0, 0xffffffff, 0⟩]

/-- The CKP registers (18_checkpoint_and_restore.md R588-R613). -/
def regsCkp : List RegRow := [
  ⟨0x100, 1, 4, 3, 0, false, false, none, 0x80ffffff, 0, 0, 0, 0x10000⟩,
  ⟨0x104, 1, 4, 1, 0, false, false, none, 0xffff003f, 0, 0, 0, 0⟩,
  ⟨0x108, 1, 4, 1, 0, false, false, none, 0xffffffff, 0, 0, 0, 0⟩,
  ⟨0x10c, 1, 4, 1, 0, false, false, none, 0x3ffffff, 0, 0, 0, 0⟩,
  ⟨0x110, 1, 4, 1, 0, false, false, none, 0xffff, 0, 0, 0, 0⟩,
  ⟨0x114, 1, 4, 1, 1, false, false, none, 0xffffffff, 0, 0, 0, 0⟩,
  ⟨0x118, 1, 4, 1, 2, false, false, none, 0xffffffff, 0, 0, 0, 0⟩,
  ⟨0x11c, 1, 4, 1, 0, false, false, none, 0xffffffff, 0, 0, 0, 0⟩,
  ⟨0x120, 1, 4, 1, 1, false, false, none, 0xffffffff, 0, 0, 0, 0⟩,
  ⟨0x124, 1, 4, 1, 2, false, false, none, 0xffffffff, 0, 0, 0, 0⟩,
  ⟨0x128, 1, 4, 1, 1, false, false, none, 0xffffffff, 0, 0, 0, 0⟩,
  ⟨0x12c, 1, 4, 1, 2, false, false, none, 0xffffffff, 0, 0, 0, 0⟩,
  ⟨0x130, 1, 4, 1, 0, false, false, none, 0xffffffff, 0, 0, 0, 0x100⟩,
  ⟨0x140, 1, 4, 1, 0, false, false, none, 7, 0, 0x80000000, 0, 0⟩,
  ⟨0x144, 1, 4, 0, 0, false, false, none, 0, 0, 0, 0, 0⟩,
  ⟨0x148, 1, 4, 0, 0, true, false, none, 0, 0, 0, 0, 0⟩,
  ⟨0x14c, 1, 4, 0, 0, false, false, none, 0, 0, 0, 0, 0⟩,
  ⟨0x150, 1, 4, 0, 0, true, false, none, 0, 0, 0, 0, 0⟩,
  ⟨0x154, 1, 4, 0, 0, false, false, none, 0, 0, 0, 0, 0⟩,
  ⟨0x158, 1, 4, 0, 0, true, false, none, 0, 0, 0, 0, 0⟩,
  ⟨0x15c, 1, 4, 0, 0, false, false, none, 0, 0, 0, 0, 0⟩,
  ⟨0x160, 1, 4, 0, 0, false, false, none, 0, 0, 0, 0xffffffff, 0⟩,
  ⟨0x164, 1, 4, 0, 0, false, false, none, 0, 0, 0, 0xffffffff, 0⟩,
  ⟨0x168, 1, 4, 0, 0, false, false, none, 0, 0, 0, 0xffffffff, 0⟩,
  ⟨0x16c, 1, 4, 0, 0, false, false, none, 0, 0, 0, 0xffffffff, 0⟩]

/-- The CNT registers (19_observability.md R614-R618). -/
def regsCnt : List RegRow := [
  ⟨0x100, 1, 4, 7, 0, false, false, none, 0x1f, 0, 0, 0, 0⟩,
  ⟨0x104, 1, 4, 7, 0, false, false, none, 0xffff0000, 0, 1, 0, 0xffff0000⟩,
  ⟨0x200, 64, 4, 7, 0, false, false, some (0x100, 4, 0), 0xc000ffff, 0, 0, 0, 0⟩,
  ⟨0x300, 64, 8, 0, 0, true, false, some (0x100, 4, 0), 0, 0, 0, 0, 0⟩,
  ⟨0x304, 64, 8, 0, 0, false, false, some (0x100, 4, 0), 0, 0, 0, 0, 0⟩,
  ⟨0x500, 16, 4, 7, 0, false, false, none, 0xc000ffff, 0, 0, 0, 0⟩,
  ⟨0x540, 16, 8, 0, 0, true, false, none, 0, 0, 0, 0, 0⟩,
  ⟨0x544, 16, 8, 0, 0, false, false, none, 0, 0, 0, 0, 0⟩]

/-- The MCN registers (19_observability.md R614-R628). -/
def regsMcn : List RegRow := [
  ⟨0x100, 1, 4, 3, 0, false, false, none, 0x40ffffff, 0, 0x80000000, 0, 0⟩,
  ⟨0x104, 1, 4, 0, 0, false, false, none, 0, 0, 0, 0, 0⟩,
  ⟨0x108, 1, 4, 0, 0, false, false, none, 0, 0, 0, 0xffffffff, 0⟩,
  ⟨0x10c, 1, 4, 3, 1, false, false, none, 0xffffffff, 0, 0, 0, 0⟩,
  ⟨0x110, 1, 4, 3, 2, false, false, none, 0xffffffff, 0, 0, 0, 0⟩,
  ⟨0x120, 8, 8, 0, 0, true, false, none, 0, 0, 0, 0, 0⟩,
  ⟨0x124, 8, 8, 0, 0, false, false, none, 0, 0, 0, 0, 0⟩,
  ⟨0x180, 1, 4, 3, 0, false, false, none, 0x1f, 0, 0, 0, 0⟩,
  ⟨0x184, 1, 4, 3, 0, false, false, some (0x180, 4, 0), 0x9fffffff, 0, 0, 0, 0x2710⟩,
  ⟨0x188, 1, 4, 3, 1, false, false, some (0x180, 4, 0), 0xffffffff, 0, 0, 0, 0⟩,
  ⟨0x18c, 1, 4, 3, 2, false, false, some (0x180, 4, 0), 0xffffffff, 0, 0, 0, 0⟩,
  ⟨0x190, 1, 4, 0, 0, false, false, some (0x180, 4, 0), 0, 0, 0, 0xffffffff, 0⟩]

/-- The registers of a page class (R55). -/
def regsOf (cls : Nat) : List RegRow :=
  match cls with
  | 1 => regsMod
  | 2 => regsPwr
  | 3 => regsHlt
  | 4 => regsClk
  | 5 => regsLdg
  | 6 => regsBbr
  | 7 => regsBoot
  | 8 => regsAtt
  | 9 => regsRas
  | 0xa => regsMcn
  | 0xb => regsMbr
  | 0xc => regsCkp
  | 0x10 => regsReq
  | 0x11 => regsSmp
  | 0x12 => regsEpo
  | 0x13 => regsOrc
  | 0x14 => regsFtm
  | 0x15 => regsLft
  | 0x16 => regsYlk
  | 0x17 => regsEth
  | 0x18 => regsPen
  | 0x19 => regsCri
  | 0x1a => regsPci
  | 0x1b => regsFnc
  | 0x1c => regsPrt
  | 0x40 => regsTil
  | 0x41 => regsHam
  | 0x42 => regsAts
  | 0x43 => regsHst
  | 0x44 => regsIsl
  | 0x45 => regsCnt
  | 0x46 => regsUpd
  | 0x47 => regsCrt
  | 0x48 => regsNet
  | 0x50 => regsDie
  | 0x51 => regsSpn
  | 0x52 => regsD2d
  | 0x53 => regsNtm
  | _ => []

end Sys2Proof.Machine
end

