-- ==== Sys2Proof/Machine/RegNames.lean ====
section
/-! DEFINITION. The byte offset of every register in its page, by its name in the spec. -/

namespace Sys2Proof.Machine.Off

abbrev pageId : Nat := 0
abbrev pageCap : Nat := 4
abbrev pageCtl : Nat := 8
abbrev pageStat : Nat := 0xc
abbrev intStat : Nat := 0x10
abbrev intEn : Nat := 0x14
abbrev intForce : Nat := 0x18
abbrev errCnt : Nat := 0x1c
abbrev owner : Nat := 0x20
abbrev ledgerSeq : Nat := 0x24
abbrev modGrade : Nat := 0x100
abbrev modHmap : Nat := 0x104
abbrev modDcl : Nat := 0x114
abbrev ldgRingBaseLo : Nat := 0x100
abbrev ldgRingBaseHi : Nat := 0x104
abbrev ldgHeadSeqLo : Nat := 0x108
abbrev ldgHeadSeqHi : Nat := 0x10c
abbrev ldgAckSeqLo : Nat := 0x110
abbrev ldgAckSeqHi : Nat := 0x114
abbrev ldgLost : Nat := 0x118
abbrev tilMap : Nat := 0x100
abbrev tilNfA : Nat := 0x108
abbrev tilNfB : Nat := 0x10c
abbrev tilRngCnt : Nat := 0x110
abbrev tilRngLoc : Nat := 0x114
abbrev tilRngVal : Nat := 0x118
abbrev tilBndIdx : Nat := 0x120
abbrev tilBndKey : Nat := 0x124
abbrev tilBndLo : Nat := 0x128
abbrev tilBndHi : Nat := 0x12c
abbrev tilSpadEcc : Nat := 0x130
abbrev tilSpadEaddr : Nat := 0x134
abbrev tilCmdStat : Nat := 0x140
abbrev hamTmap : Nat := 0x100
abbrev hamPlace : Nat := 0x140
abbrev hamFold : Nat := 0x144
abbrev hamStepLo : Nat := 0x148
abbrev hamStepHi : Nat := 0x14c
abbrev crtStat : Nat := 0x100
abbrev crtCurList : Nat := 0x104
abbrev crtFault : Nat := 0x108
abbrev crtFaultAddrLo : Nat := 0x10c
abbrev crtFaultAddrHi : Nat := 0x110
abbrev crtBytesLo : Nat := 0x120
abbrev crtBytesHi : Nat := 0x124
abbrev crtDesc : Nat := 0x128
abbrev crtSpills : Nat := 0x12c
abbrev atsJobStat : Nat := 0x100
abbrev atsCurJob : Nat := 0x104
abbrev atsFault : Nat := 0x108
abbrev atsFaultAddrLo : Nat := 0x10c
abbrev atsFaultAddrHi : Nat := 0x110
abbrev atsPrefetch : Nat := 0x120
abbrev atsAppendTok : Nat := 0x130
abbrev atsKblk : Nat := 0x134
abbrev atsGskip : Nat := 0x138
abbrev atsEmpty : Nat := 0x13c
abbrev smpProfBaseLo : Nat := 0x100
abbrev smpProfBaseHi : Nat := 0x104
abbrev smpProfCnt : Nat := 0x108
abbrev smpDrawsLo : Nat := 0x110
abbrev smpDrawsHi : Nat := 0x114
abbrev smpFaults : Nat := 0x118
abbrev smpLastFault : Nat := 0x11c
abbrev smpKcmTest : Nat := 0x120
abbrev smpKcmStat : Nat := 0x124
abbrev reqActive : Nat := 0x100
abbrev reqCmdRej : Nat := 0x104
abbrev reqLastRej : Nat := 0x108
abbrev reqTokensLo : Nat := 0x110
abbrev reqTokensHi : Nat := 0x114
abbrev reqBudgetSkip : Nat := 0x118
abbrev reqKvSkip : Nat := 0x11c
abbrev reqRingSkip : Nat := 0x120
abbrev reqExpired : Nat := 0x124
abbrev reqShipped : Nat := 0x128
abbrev reqKvpIdx : Nat := 0x140
abbrev reqKvpBaseLo : Nat := 0x144
abbrev reqKvpBaseHi : Nat := 0x148
abbrev reqKvpFrames : Nat := 0x14c
abbrev reqKvpFbytes : Nat := 0x150
abbrev reqKvpFree : Nat := 0x154
abbrev orcBudBaseLo : Nat := 0x100
abbrev orcBudBaseHi : Nat := 0x104
abbrev orcParkAfter : Nat := 0x108
abbrev orcEnvDisc : Nat := 0x10c
abbrev orcPidx : Nat := 0x140
abbrev orcPChunk : Nat := 0x144
abbrev orcPLimits : Nat := 0x148
abbrev orcPGrnBaseLo : Nat := 0x14c
abbrev orcPGrnBaseHi : Nat := 0x150
abbrev orcPGrnSize : Nat := 0x154
abbrev orcPGrnReserve : Nat := 0x158
abbrev orcPGrnHeadLo : Nat := 0x160
abbrev orcPGrnHeadHi : Nat := 0x164
abbrev orcPGrnTailLo : Nat := 0x168
abbrev orcPGrnTailHi : Nat := 0x16c
abbrev orcPSwitch : Nat := 0x170
abbrev orcPHold : Nat := 0x174
abbrev updStat : Nat := 0x100
abbrev updHpBaseLo : Nat := 0x104
abbrev updHpBaseHi : Nat := 0x108
abbrev updNormBaseLo : Nat := 0x10c
abbrev updNormBaseHi : Nat := 0x110
abbrev updNormCnt : Nat := 0x114
abbrev updVoteBaseLo : Nat := 0x118
abbrev updVoteBaseHi : Nat := 0x11c
abbrev updOutcome : Nat := 0x120
abbrev updOutStepLo : Nat := 0x124
abbrev updOutStepHi : Nat := 0x128
abbrev updCommits : Nat := 0x12c
abbrev updSkips : Nat := 0x130
abbrev updFault : Nat := 0x134
abbrev epoCfg : Nat := 0x100
abbrev epoSStat : Nat := 0x110
abbrev epoSEpoch : Nat := 0x114
abbrev epoSBase : Nat := 0x118
abbrev epoSSize : Nat := 0x11c
abbrev epoLoadObj : Nat := 0x150
abbrev epoLoadEpoch : Nat := 0x154
abbrev epoLoadSwLo : Nat := 0x158
abbrev epoLoadSwHi : Nat := 0x15c
abbrev epoLoadGo : Nat := 0x160
abbrev epoPidx : Nat := 0x180
abbrev epoPCfg : Nat := 0x184
abbrev epoPInit : Nat := 0x188
abbrev epoPCur : Nat := 0x18c
abbrev epoPHolds : Nat := 0x190
abbrev epoPubCfg : Nat := 0x1a0
abbrev epoPubSwbLo : Nat := 0x1a4
abbrev epoPubSwbHi : Nat := 0x1a8
abbrev epoPubStride : Nat := 0x1ac
abbrev epoPubOrdLo : Nat := 0x1b0
abbrev epoPubOrdHi : Nat := 0x1b4
abbrev epoPubHold : Nat := 0x1b8
abbrev epoDup : Nat := 0x1c0
abbrev epoRefused : Nat := 0x1c4
abbrev epoRefetch : Nat := 0x1c8
abbrev epoAdpBaseLo : Nat := 0x1d0
abbrev epoAdpBaseHi : Nat := 0x1d4
abbrev hstMode : Nat := 0x100
abbrev hstWays : Nat := 0x104
abbrev hstFoldw : Nat := 0x108
abbrev hstHits : Nat := 0x110
abbrev hstMisses : Nat := 0x114
abbrev hstInval : Nat := 0x118
abbrev hstEcc : Nat := 0x11c
abbrev hstEaddr : Nat := 0x120
abbrev ntmPcStat : Nat := 0x100
abbrev ntmEccCorr : Nat := 0x180
abbrev ntmEccUncorr : Nat := 0x184
abbrev ntmErrAddrLo : Nat := 0x188
abbrev ntmErrAddrHi : Nat := 0x18c
abbrev ntmRepair : Nat := 0x190
abbrev ntmRepairs : Nat := 0x194
abbrev ntmRetire : Nat := 0x198
abbrev ftmEccCorr : Nat := 0x100
abbrev ftmEccUncorr : Nat := 0x104
abbrev ftmErrAddrLo : Nat := 0x108
abbrev ftmErrAddrHi : Nat := 0x10c
abbrev ftmRepair : Nat := 0x110
abbrev ftmRepairs : Nat := 0x114
abbrev ftmRetired : Nat := 0x118
abbrev ftmUmapBaseLo : Nat := 0x200
abbrev ftmUmapBaseHi : Nat := 0x204
abbrev ftmFownBaseLo : Nat := 0x208
abbrev ftmFownBaseHi : Nat := 0x20c
abbrev ftmAccBaseLo : Nat := 0x210
abbrev ftmAccBaseHi : Nat := 0x214
abbrev ftmMcmdOp : Nat := 0x220
abbrev ftmMcmdPage : Nat := 0x224
abbrev ftmMcmdCount : Nat := 0x228
abbrev ftmMcmdArg : Nat := 0x22c
abbrev ftmMcmdGo : Nat := 0x230
abbrev ftmMcmdStat : Nat := 0x234
abbrev ftmPfIdx : Nat := 0x240
abbrev ftmPfBaseLo : Nat := 0x244
abbrev ftmPfBaseHi : Nat := 0x248
abbrev ftmPfCnt : Nat := 0x24c
abbrev ftmMigLo : Nat := 0x250
abbrev ftmMigHi : Nat := 0x254
abbrev ftmPfNoroom : Nat := 0x258
abbrev lftStat : Nat := 0x100
abbrev lftCap : Nat := 0x104
abbrev lftUsed : Nat := 0x108
abbrev lftTodo : Nat := 0x10c
abbrev lftCfg : Nat := 0x110
abbrev lftSectErr : Nat := 0x114
abbrev lftLost : Nat := 0x118
abbrev lftCmd : Nat := 0x120
abbrev lftCmdObj : Nat := 0x124
abbrev lftCmdAddrLo : Nat := 0x128
abbrev lftCmdAddrHi : Nat := 0x12c
abbrev lftCmdLenLo : Nat := 0x130
abbrev lftCmdLenHi : Nat := 0x134
abbrev lftCmdGo : Nat := 0x138
abbrev lftCmdStat : Nat := 0x13c
abbrev netStall : Nat := 0x100
abbrev netFlitsLo : Nat := 0x104
abbrev netFlitsHi : Nat := 0x108
abbrev netRetry : Nat := 0x10c
abbrev netHcMax : Nat := 0x110
abbrev spnStall : Nat := 0x100
abbrev spnStall2 : Nat := 0x104
abbrev spnFlitsLo : Nat := 0x108
abbrev spnFlitsHi : Nat := 0x10c
abbrev spnRetry : Nat := 0x110
abbrev d2dStat : Nat := 0x100
abbrev d2dCrcErr : Nat := 0x104
abbrev d2dRetry : Nat := 0x108
abbrev d2dRepairs : Nat := 0x10c
abbrev d2dBytesLo : Nat := 0x110
abbrev d2dBytesHi : Nat := 0x114
abbrev dieEnabled : Nat := 0x100
abbrev dieRetired : Nat := 0x104
abbrev dieTemp : Nat := 0x108
abbrev diePower : Nat := 0x10c
abbrev ylkStat : Nat := 0x100
abbrev ylkCfg : Nat := 0x104
abbrev ylkFecCorr : Nat := 0x108
abbrev ylkFecUncorr : Nat := 0x10c
abbrev ylkCrcErr : Nat := 0x110
abbrev ylkRetry : Nat := 0x114
abbrev ylkStaleDrop : Nat := 0x118
abbrev ylkAheadDrop : Nat := 0x11c
abbrev ylkVcStall : Nat := 0x120
abbrev ylkRtBaseLo : Nat := 0x140
abbrev ylkRtBaseHi : Nat := 0x144
abbrev ylkTrayA : Nat := 0x148
abbrev ylkTrayB : Nat := 0x14c
abbrev ylkE2e : Nat := 0x150
abbrev ethStat : Nat := 0x100
abbrev ethCfg : Nat := 0x104
abbrev ethEcnMark : Nat := 0x108
abbrev ethCnpTx : Nat := 0x10c
abbrev ethPfcRx : Nat := 0x110
abbrev ethRetx : Nat := 0x114
abbrev ethPtpOfs : Nat := 0x118
abbrev penStat : Nat := 0x100
abbrev penGrpBaseLo : Nat := 0x104
abbrev penGrpBaseHi : Nat := 0x108
abbrev penPidx : Nat := 0x140
abbrev penPRegBaseLo : Nat := 0x144
abbrev penPRegBaseHi : Nat := 0x148
abbrev penPRegCnt : Nat := 0x14c
abbrev penCtrLo : Nat := 0x150
abbrev penCtrHi : Nat := 0x154
abbrev penFault : Nat := 0x160
abbrev penFaultAddrLo : Nat := 0x164
abbrev penFaultAddrHi : Nat := 0x168
abbrev penTxPkt : Nat := 0x170
abbrev penRxPkt : Nat := 0x174
abbrev penRefused : Nat := 0x178
abbrev criCfg : Nat := 0x100
abbrev criRelayBaseLo : Nat := 0x104
abbrev criRelayBaseHi : Nat := 0x108
abbrev criRelayCnt : Nat := 0x10c
abbrev criTxDst : Nat := 0x110
abbrev criTxType : Nat := 0x114
abbrev criTxArg : Nat := 0x118
abbrev criTxGo : Nat := 0x128
abbrev criTxCnt : Nat := 0x130
abbrev criRxCnt : Nat := 0x134
abbrev criDup : Nat := 0x138
abbrev criLimited : Nat := 0x13c
abbrev criLatMax : Nat := 0x140
abbrev fncCfg : Nat := 0x100
abbrev fncPmask : Nat := 0x104
abbrev fncSlots : Nat := 0x108
abbrev fncAllocBaseLo : Nat := 0x10c
abbrev fncAllocBaseHi : Nat := 0x110
abbrev fncSeedLo : Nat := 0x114
abbrev fncSeedHi : Nat := 0x118
abbrev fncCmdqBaseLo : Nat := 0x11c
abbrev fncCmdqBaseHi : Nat := 0x120
abbrev fncHringBaseLo : Nat := 0x124
abbrev fncHringBaseHi : Nat := 0x128
abbrev fncRings : Nat := 0x12c
abbrev fncCmdqCons : Nat := 0x130
abbrev fncHringProd : Nat := 0x134
abbrev fncHringCons : Nat := 0x138
abbrev fncStat : Nat := 0x13c
abbrev fncDbWrites : Nat := 0x140
abbrev fncDbBad : Nat := 0x144
abbrev fncAperErr : Nat := 0x148
abbrev fncHrDrop : Nat := 0x14c
abbrev prtCmd : Nat := 0x100
abbrev prtGo : Nat := 0x104
abbrev prtCmdStat : Nat := 0x108
abbrev prtStat : Nat := 0x10c
abbrev prtHam : Nat := 0x110
abbrev prtPc : Nat := 0x120
abbrev prtWays : Nat := 0x140
abbrev prtMode : Nat := 0x144
abbrev prtExcl : Nat := 0x148
abbrev prtStepLimit : Nat := 0x14c
abbrev prtPeerBaseLo : Nat := 0x150
abbrev prtPeerBaseHi : Nat := 0x154
abbrev prtPeerCnt : Nat := 0x158
abbrev prtImgBaseLo : Nat := 0x15c
abbrev prtImgBaseHi : Nat := 0x160
abbrev pciLink : Nat := 0x100
abbrev pciAperBase : Nat := 0x104
abbrev pciCmdqBaseLo : Nat := 0x11c
abbrev pciCmdqBaseHi : Nat := 0x120
abbrev pciHringBaseLo : Nat := 0x124
abbrev pciHringBaseHi : Nat := 0x128
abbrev pciRings : Nat := 0x12c
abbrev pciCmdqCons : Nat := 0x130
abbrev pciHringProd : Nat := 0x134
abbrev pciHringCons : Nat := 0x138
abbrev pciDbWrites : Nat := 0x140
abbrev pciDbBad : Nat := 0x144
abbrev pciAperErr : Nat := 0x148
abbrev pciAerCorr : Nat := 0x14c
abbrev pciAerUncorr : Nat := 0x150
abbrev islIdx : Nat := 0x100
abbrev islFreq : Nat := 0x104
abbrev islDroop : Nat := 0x108
abbrev islStat : Nat := 0x10c
abbrev islTemp : Nat := 0x110
abbrev islStretchCnt : Nat := 0x114
abbrev islClampCnt : Nat := 0x118
abbrev islEscalCnt : Nat := 0x11c
abbrev islSustain : Nat := 0x120
abbrev pwrCap : Nat := 0x100
abbrev pwrInput : Nat := 0x104
abbrev pwrStat : Nat := 0x108
abbrev pwrTj : Nat := 0x10c
abbrev pwrTempMax : Nat := 0x110
abbrev pwrHotHours : Nat := 0x114
abbrev pwrCapCnt : Nat := 0x118
abbrev pwrThermCnt : Nat := 0x11c
abbrev clkStat : Nat := 0x100
abbrev clkTimeLo : Nat := 0x104
abbrev clkTimeHi : Nat := 0x108
abbrev clkRefLoss : Nat := 0x10c
abbrev bootStat : Nat := 0x100
abbrev bootCfg : Nat := 0x104
abbrev bootReset : Nat := 0x108
abbrev bootSwitch : Nat := 0x10c
abbrev bootFail : Nat := 0x110
abbrev bootLastReset : Nat := 0x114
abbrev bootSvnCommit : Nat := 0x118
abbrev attSlotIdx : Nat := 0x100
abbrev attSlotData : Nat := 0x104
abbrev attExtData : Nat := 0x140
abbrev attExtGo : Nat := 0x170
abbrev attOwner : Nat := 0x174
abbrev attKeys : Nat := 0x178
abbrev attSvn : Nat := 0x180
abbrev attSpdmReq : Nat := 0x194
abbrev attSpdmErr : Nat := 0x198
abbrev rasCheck : Nat := 0x100
abbrev rasTest : Nat := 0x104
abbrev rasStat : Nat := 0x108
abbrev rasMismatch : Nat := 0x10c
abbrev rasTests : Nat := 0x110
abbrev rasTestFail : Nat := 0x114
abbrev rasLastMm : Nat := 0x118
abbrev rasCperBaseLo : Nat := 0x120
abbrev rasCperBaseHi : Nat := 0x124
abbrev rasCperCfg : Nat := 0x128
abbrev rasCperHead : Nat := 0x12c
abbrev rasUnitIdx : Nat := 0x130
abbrev rasUnitState : Nat := 0x134
abbrev mbrId : Nat := 0x100
abbrev mbrStat : Nat := 0x104
abbrev mbrMonA : Nat := 0x108
abbrev mbrMonB : Nat := 0x10c
abbrev mbrCoordA : Nat := 0x110
abbrev mbrCoordB : Nat := 0x114
abbrev mbrSpareBaseLo : Nat := 0x118
abbrev mbrSpareBaseHi : Nat := 0x11c
abbrev mbrInit : Nat := 0x120
abbrev mbrHbMiss : Nat := 0x124
abbrev mbrSuspectTx : Nat := 0x128
abbrev mbrFenceRx : Nat := 0x12c
abbrev hltCfg : Nat := 0x100
abbrev hltStat : Nat := 0x104
abbrev hltAck : Nat := 0x108
abbrev hltDiscCnt : Nat := 0x10c
abbrev hltHaltCnt : Nat := 0x110
abbrev bbrHeadLo : Nat := 0x100
abbrev bbrHeadHi : Nat := 0x104
abbrev bbrMirrorLo : Nat := 0x108
abbrev bbrMirrorHi : Nat := 0x10c
abbrev bbrRdSeqLo : Nat := 0x110
abbrev bbrRdSeqHi : Nat := 0x114
abbrev bbrRdData : Nat := 0x118
abbrev bbrLost : Nat := 0x158
abbrev ckpCfg : Nat := 0x100
abbrev ckpJob : Nat := 0x104
abbrev ckpNs : Nat := 0x108
abbrev ckpBuddy : Nat := 0x10c
abbrev ckpRecheck : Nat := 0x110
abbrev ckpAreaLbaLo : Nat := 0x114
abbrev ckpAreaLbaHi : Nat := 0x118
abbrev ckpAreaLen : Nat := 0x11c
abbrev ckpManLbaLo : Nat := 0x120
abbrev ckpManLbaHi : Nat := 0x124
abbrev ckpObjmanLbaLo : Nat := 0x128
abbrev ckpObjmanLbaHi : Nat := 0x12c
abbrev ckpManLen : Nat := 0x130
abbrev ckpRestore : Nat := 0x140
abbrev ckpStat : Nat := 0x144
abbrev ckpDurableLo : Nat := 0x148
abbrev ckpDurableHi : Nat := 0x14c
abbrev ckpMirrorLo : Nat := 0x150
abbrev ckpMirrorHi : Nat := 0x154
abbrev ckpRestoredLo : Nat := 0x158
abbrev ckpRestoredHi : Nat := 0x15c
abbrev ckpMirHold : Nat := 0x160
abbrev ckpCkHold : Nat := 0x164
abbrev ckpRchkFail : Nat := 0x168
abbrev ckpConflict : Nat := 0x16c
abbrev cntTidx : Nat := 0x100
abbrev cntCtl : Nat := 0x104
abbrev cntTsel : Nat := 0x200
abbrev cntTctrLo : Nat := 0x300
abbrev cntTctrHi : Nat := 0x304
abbrev cntHsel : Nat := 0x500
abbrev cntHctrLo : Nat := 0x540
abbrev cntHctrHi : Nat := 0x544
abbrev mcnCenGo : Nat := 0x100
abbrev mcnCenStat : Nat := 0x104
abbrev mcnCenDrop : Nat := 0x108
abbrev mcnCenBaseLo : Nat := 0x10c
abbrev mcnCenBaseHi : Nat := 0x110
abbrev mcnMctrLo : Nat := 0x120
abbrev mcnMctrHi : Nat := 0x124
abbrev mcnPidx : Nat := 0x180
abbrev mcnPTrCfg : Nat := 0x184
abbrev mcnPTrBaseLo : Nat := 0x188
abbrev mcnPTrBaseHi : Nat := 0x18c
abbrev mcnPTrDrop : Nat := 0x190

end Sys2Proof.Machine.Off
end

