-- ==== Sys2Proof/Machine/State.lean ====
section
/-! DEFINITION. The state of the Brivan B1: every register, memory, queue, counter and mode that the spec gives the module,
as plain data, and the queue of commands that are waiting. -/

namespace Sys2Proof.Machine

/-! ### Tiles and command streams (04, 05) -/

/-- Where a stream is (R175, R180, R183). -/
inductive Phase where
  | idle | prologue | body | ended | stopped
deriving DecidableEq, Repr

/-- Where a signal comes from, as a wait record names it (R624, R625). -/
structure Source where
  /-- S_KIND: 0 stream command, 1 cart descriptor, 2 port-engine counter, 3 reeve. -/
  kind : Nat
  hamlet : Nat
  tile : Nat
  layer : Nat
  op : Nat
  /-- Signals counted before it, over the whole module. -/
  ord : Nat
deriving DecidableEq, Repr

/-- A dispatched command that is not yet complete (R148, R168). -/
structure InFlight where
  u : UnitK
  /-- Its first command word. -/
  word : W128
  /-- For a cart, attention or update command: its job is complete. -/
  done : Bool
  /-- Its index among the stream's GRD, MVP and VEC commands since release (R557). -/
  idx : Nat
deriving DecidableEq, Repr

/-- The command stream of one logical tile. -/
structure Stream where
  phase : Phase
  /-- Module offset of the first prologue word and how many words there are (R179). -/
  proAt : Nat
  proLen : Nat
  /-- The same of the step body. -/
  bodyAt : Nat
  bodyLen : Nat
  /-- Words dispatched of the part that runs. -/
  pos : Nat
  /-- The 64 sync counters (R166); absent means 0. -/
  sync : Store Nat
  /-- The signals that each counter still counts, oldest first (R625). -/
  srcs : Store (List Source)
  /-- P0 to P15 (R176). -/
  params : Store W32
  /-- MAP of the PARAM item, P2 first (R656). -/
  maps : Store W32
  /-- The signal table (R170). -/
  sigtab : Store W32
  /-- The key pair (R241). -/
  key0 : W32
  key1 : W32
  inflight : List InFlight
  /-- LAST_OP of TIL.CMD_STAT. -/
  lastOp : Nat
  /-- GRD, MVP and VEC commands dispatched since the release (R557). -/
  gmv : Nat
deriving DecidableEq, Repr

/-- A stream before any image. -/
def Stream.init : Stream :=
  { phase := .idle, proAt := 0, proLen := 0, bodyAt := 0, bodyLen := 0, pos := 0, sync := [], srcs := [], params := [],
    maps := [], sigtab := [], key0 := 0, key1 := 0, inflight := [], lastOp := 0, gmv := 0 }

/-- What one logical tile's commands act on: the scratchpad, the vector registers and the activation slots of a physical
tile, or of the hamlet-store way that backs a folded logical tile (R185). -/
structure Tile where
  /-- The 256 KiB scratchpad (R130). -/
  spad : Memory
  /-- Vector registers: register × 128 + lane (R134). -/
  vregs : Store W32
  /-- Set when registers 48 to 63 hold undefined words (R326): the number of the first free word. -/
  vfree : Option Nat
  /-- Slot element bytes: slot × 32768 + byte (R159). -/
  slotE : Memory
  /-- Slot scale bytes: slot × 512 + block. -/
  slotS : Memory
  /-- The format last loaded at each block: slot × 512 + block. -/
  slotF : Store Nat
deriving DecidableEq, Repr

/-- A tile that holds nothing. -/
def Tile.init : Tile := { spad := [], vregs := [], vfree := none, slotE := [], slotS := [], slotF := [] }

/-! ### The ledger (02) -/

/-- The ledger between its registers, its ring in memory and its seals. -/
structure Ledger where
  /-- First sequence number of the segment (R76). -/
  first : Nat
  /-- CHAIN of the newest record: 16 bytes (R75). -/
  chain : List Byte
  /-- The ring has been set up by boot (R78). -/
  ringUp : Bool
  /-- Records of boot stages that wait in the staging area (R78). -/
  staging : List (List Byte)
  /-- The first sequence number that no seal covers yet (R80). -/
  unsealed : Nat
  /-- Seals that are due: last sequence number and CHAIN, oldest first (R80). -/
  due : List (Nat × List Byte)
  /-- The boot record that names the segment's first sequence number is written (R76). -/
  named : Bool
deriving DecidableEq, Repr

/-- The ledger of a segment that starts at a sequence number (R76). -/
def Ledger.start (n : Nat) : Ledger :=
  { first := n, chain := List.replicate 16 0, ringUp := false, staging := [], unsealed := n, due := [], named := false }

/-- The ledger at the first cold reset (R76). -/
def Ledger.init : Ledger := Ledger.start 0

/-! ### Hamlets and partitions (05, 14, 17) -/

/-- A job that a stream submitted: which stream, the index it names and its first command word. -/
structure Job where
  tile : Nat
  idx : Nat
  word : W128
deriving DecidableEq, Repr

/-- An update program that runs (R326). -/
structure UpdRun where
  job : Job
  /-- Module offset of the first micro-op, and how many there are. -/
  uopsAt : Nat
  count : Nat
  /-- Module offset of the tensor set. -/
  setAt : Nat
  /-- The hyper-parameter block as read at the start (R330). -/
  hp : List W32
  chunk : Nat
  uop : Nat
  /-- Slots written in this chunk: slot × 128 + lane. -/
  slots : Store W32
  /-- Number of the first free word of a slot that the chunk has not written. -/
  free : Nat
  /-- Accumulators: accumulator × 128 + lane; absent means +0 (R329). -/
  acc : Store W32
  /-- The GRAD status word has NF set (R331). -/
  gradNf : Bool
  /-- The program has raised update-NF (R332). -/
  nf : Bool
deriving DecidableEq, Repr

/-- The cart's running list: its job, the list it is in, the next descriptor's index and those still open (R187, R189). -/
structure CartRun where
  job : Job
  list : Nat
  desc : Nat
  /-- Module offset of the descriptor. -/
  at_ : Nat
  /-- The descriptor waits for another module of the tray (R430). -/
  await : Bool
deriving DecidableEq, Repr

/-- A hamlet's shared units. -/
structure Hamlet where
  /-- The owning partition. -/
  part : Option Nat
  /-- The logical hamlet it runs (HAM.PLACE). -/
  lham : Nat
  /-- The 8 MiB hamlet store: 32 ways of 256 KiB (R188). -/
  store : Memory
  cartQ : List Job
  cart : Option CartRun
  /-- Lists are refused until the next release (R192). -/
  cartOff : Bool
  /-- Steps of a spill or restore that is running: 1 spill, 2 restore, 0 none (R308). -/
  spill : Nat
  /-- The hamlet has reached its step boundary (R175). -/
  bound : Bool
  /-- Tile states by physical tile: 0 OK, 1 SUSPECT, 2 RETIRED, with consecutive passes × 4 (R561, R562). -/
  tstate : Store Nat
  /-- Units that run on one half: 0 cart, 1 attention, 2 update, 3 router, 4 store port (R555). -/
  halves : List Nat
  /-- The reeve has failed and its partner runs the hamlet (R555). -/
  reeveOut : Bool
  retired : Bool
  /-- Attention jobs that wait, oldest first (R193). -/
  atsQ : List Job
  /-- The running attention job and its WORKERS mask (R194). -/
  ats : Option (Job × Nat)
  /-- Jobs are refused until the next release (R236). -/
  atsOff : Bool
  /-- Update programs that wait (R326). -/
  updQ : List Job
  /-- Physical tiles whose vector units an update program has borrowed (R326). -/
  borrow : List Nat
  /-- RES data held: physical tile, tensor ID and bytes (R181). -/
  resid : List (Nat × Nat × Nat)
  upd : Option UpdRun
  /-- Programs are refused until the next step release (R333). -/
  updOff : Bool
  /-- update-NF (R332). -/
  updNf : Bool
  /-- A GRAD status word read in the step has NF set (R337). -/
  gradNf : Bool
  /-- Bits [3:0] of the local vote word of the step (R337). -/
  vote : Nat
  /-- UPD.HP_BASE, NORM_BASE, NORM_CNT and VOTE_BASE as taken at the last step release. -/
  updHp : Nat
  updNorm : Nat
  updCnt : Nat
  updVote : Nat
  /-- Addresses of the norms entries that the step has written (R334, R339). -/
  norms : List Nat
  /-- HST.MODE as taken at the last step release (R399). -/
  modeNow : W32
  /-- Logical tiles that run on the spare while their own tile is tested, and that tile (R561). -/
  testBack : List (Nat × Nat)
deriving DecidableEq, Repr

/-- A hamlet that no partition owns. -/
def Hamlet.init : Hamlet :=
  { part := none, lham := 0, store := [], cartQ := [], cart := none, cartOff := false, spill := 0, bound := true,
    tstate := [], halves := [], reeveOut := false, retired := false, atsQ := [], ats := none, atsOff := false, updQ := [], borrow := [], resid := [], upd := none, updOff := false, updNf := false, gradNf := false, vote := 0, updHp := 0, updNorm := 0, updCnt := 0, updVote := 0, norms := [], modeNow := 0xFFFFFFFF, testBack := [] }

/-- The state of a partition (R494). -/
inductive PState where
  | free | created | running | resetting
deriving DecidableEq, Repr

/-- The first cause of a faulted step, as the FAULT record gives it (R550, R584). -/
structure Cause where
  /-- CAUSE of the event table. -/
  code : Nat
  /-- The page of the unit. -/
  loc : Nat
  arg0 : Nat
  arg1 : Nat
  layer : Nat
  op : Nat
deriving DecidableEq, Repr

/-- A registered schedule image (R178, R497). -/
structure Image where
  base : Nat
  size : Nat
deriving DecidableEq, Repr





/-! ### Requests and generators (08) -/

/-- A request entry (R272), each field as its number, and what the module keeps beside it. -/
structure Req where
  st : Nat
  prio : Nat
  func : Nat
  part : Nat
  bclass : Nat
  profile : Nat
  lc : Nat
  lt : Nat
  lk : Nat
  lmax : Nat
  pageList : Nat
  tokAddr : Nat
  deadline : Nat
  admitNo : Nat
  pin : Nat
  seed : Nat
  ttl : Nat
  eot : Nat
  eos : Nat
  envQp : Nat
  ndraft : Nat
  cause : Nat
  traj : Nat
  expiry : Nat
  ship : Nat
  flags : Nat
  draftAddr : Nat
  shipTok : Nat
  pausedAt : Nat
  /-- No token has been drawn since the last SUBMIT, APPEND or RESUME (R290). -/
  fresh : Bool
  /-- An FLR of its function has begun: no record is sent, and it is freed (R501, R502). -/
  mute : Bool
  /-- SHIPPED and accepted: the slot at the target (R304). -/
  accepted : Option Nat
  /-- Module time of the next offer after a refusal (R305). -/
  retryAt : Option Nat
deriving DecidableEq, Repr

/-- A FREE slot. -/
def Req.free : Req :=
  { st := 0, prio := 0, func := 0, part := 0, bclass := 0, profile := 0, lc := 0, lt := 0, lk := 0, lmax := 0, pageList := 0,
    tokAddr := 0, deadline := 0, admitNo := 0, pin := 0, seed := 0, ttl := 0, eot := 0, eos := 0, envQp := 0, ndraft := 0,
    cause := 0, traj := 0, expiry := 0, ship := 0, flags := 0, draftAddr := 0, shipTok := 0, pausedAt := 0, fresh := false,
    mute := false, accepted := none, retryAt := none }

/-- One draw of a length-table entry (R253 to R260). -/
structure Draw where
  pos : Nat
  tok : Nat
  /-- Cause of R256, 0 none. -/
  fault : Nat
  samp : W32
  pol : W32
  /-- The policy log-probability is the canonical NaN (R260). -/
  nan : Bool
deriving DecidableEq, Repr

/-- A length-table entry of the formed step (R206, R284) and what its draws use. -/
structure LEnt where
  slot : Nat
  nq : Nat
  lc : Nat
  /-- Taken in the chunk pass of R282. -/
  chunk : Bool
  /-- Token IDs of positions LC to LC + NQ − 1, gathered for the image's input region, to which the image format gives no address
  (R284; log entry 18). -/
  inputs : List W32
  /-- Draft tokens of a SPEC entry. -/
  drafts : List Nat
  /-- The profile copied at release, and the bitmap it names (R249); none where the index is not below SMP.PROF_CNT. -/
  prof : Option (List Byte)
  allow : List Byte
  /-- The function's seed as taken at release (R241). -/
  seed : Nat
  /-- The weight epoch of the entry's sub-batch (R363). -/
  epoch : Nat
  draws : List Draw
  /-- Draft tokens that a draft stage has written in the step. -/
  proposed : Nat
deriving DecidableEq, Repr

/-- A command or message that has reached the hub and waits for a boundary (R277). -/
inductive HubItem where
  /-- A request command of a function (0x200 the PF), with its arrival time. -/
  | cmd (fn : Nat) (w : W256) (at_ : Nat)
  /-- An environment message. -/
  | msg (qp : Nat) (hdr : W256) (toks : List W32) (at_ : Nat)
deriving DecidableEq, Repr

/-- The ORC registers of a partition as in effect since its last boundary (R311). -/
structure Gen where
  chunk : Nat
  tokmax : Nat
  seqmax : Nat
  grnBase : Nat
  grnSize : Nat
  reserve : Nat
  tail : Nat
deriving DecidableEq, Repr

/-- A shipment that this module has accepted as target and whose copy is not complete (R304). -/
structure ShipIn where
  src : Nat
  srcSlot : Nat
  req : Req
deriving DecidableEq, Repr

/-- What the module sends that no packet format of the spec carries. -/
inductive OutMsg where
  /-- A RoCEv2 SEND on a queue pair (R294). -/
  | send (qp : Nat) (data : List Byte)
  /-- A SHIPPED request's entry offered to a module and partition (R303). -/
  | shipOffer (mod part slot : Nat)
  /-- The answer to an offer: the source's module and slot, and this module's slot when accepted (R303, R304). -/
  | shipReply (mod slot : Nat) (tgt : Option Nat)
  /-- A destination reported unreachable to the membership monitors (R427). -/
  | unreach (mod : Nat)
  /-- A write to the file store: first block and bytes, then a Flush (R597, R599, R600). -/
  | fsWrite (lba : Nat) (data : List Byte)
  /-- A message of the checkpoint group to a module: 0 manifest entries, 1 the step of its C views and h, 2 the restore step,
  3 a shard that failed its recheck (R596, R600, R605). -/
  | group (dst kind : Nat) (vals : List Nat) (data : List Byte)
  /-- A persistent-reservation action on the file store: 0 register, 1 preempt (R598). -/
  | lease (action key : Nat)
  /-- An answer of a PLDM or SPDM exchange. -/
  | reply (data : List Byte)
deriving DecidableEq, Repr



/-! ### Weight epochs (10) -/

/-- A shard that has arrived in a slot (R351, R354). -/
structure Shard where
  idx : Nat
  off : Nat
  len : Nat
  digest : List Byte
  src : Nat
deriving DecidableEq, Repr

/-- What an epoch slot holds beside its registers (R346, R351). -/
structure EpSlot where
  nshard : Nat
  swstep : Nat
  lstep : Nat
  shards : List Shard
  /-- Failed fetches of a shard (R355). -/
  fails : Store Nat
  /-- A shard is being fetched again: its header and the bytes that have come. -/
  fetch : List (Shard × List (Nat × List Byte))
  /-- Sources that have announced the epoch, for its acknowledgements (R356). -/
  srcs : List Nat
deriving DecidableEq, Repr

/-- An empty slot. -/
def EpSlot.init : EpSlot := { nshard := 0, swstep := 0, lstep := 0, shards := [], fails := [], fetch := [], srcs := [] }



/-! ### The loft (11) -/

/-- An object of the loft (R403) with its bytes. -/
structure LoftObj where
  typ : Nat
  /-- 0 VALID, 1 WRITING, 2 LOST, 3 FETCHING. -/
  st : Nat
  fetchable : Bool
  len : Nat
  created : Nat
  digest : List Byte
  data : Memory
deriving DecidableEq, Repr

/-- The loft command that runs: OP, object, the RESULT it ends with and, for a FETCH, the bytes that came. -/
structure LoftCmd where
  op : Nat
  obj : Nat
  res : Nat
  data : List Byte
deriving DecidableEq, Repr

/-! ### The fabric (12) -/

/-- What a packet was sent for, so that a refusal or an unreachable target can fault the issuing job (R427, R429). -/
inductive Owner where
  /-- Nothing that a refusal faults. -/
  | none
  /-- A cart list of a hamlet. -/
  | cart (h : Nat)
  /-- A descriptor of a firing. -/
  | pen (p chain k desc : Nat)
  /-- A shipment of a request. -/
  | ship (slot : Nat)
  /-- The mirror of a partition's shards (R593). -/
  | mirror (p : Nat)
deriving DecidableEq, Repr

/-- A packet sent and not yet acknowledged (R427). -/
structure Sent where
  pkt : Packet
  sentAt : Nat
  /-- How often it has been sent. -/
  sends : Nat
  plane : Nat
  owner : Owner
deriving DecidableEq, Repr

/-- The sequence numbers applied from one source on one VC: all below `low`, and those in `above` (R427). -/
structure RxWin where
  low : Nat
  above : List Nat
deriving DecidableEq, Repr

/-- A LOAD or GET whose answer is to be written at a local place (R430, R454). -/
structure Want where
  tag : Nat
  dst : Nat
  part : Nat
  /-- The hamlet whose unit asked; 128 for the port engine. -/
  h : Nat
  /-- Where the data goes, as an address of R188. -/
  addr : Nat
  len : Nat
  /-- ADDR of the request. -/
  raddr : Nat
  owner : Owner
deriving DecidableEq, Repr

/-- A flit (R417). -/
structure Flit where
  seq : Nat
  ack : Nat
  vc : Nat
  /-- 0 IDLE, 1 HEAD, 2 BODY, 3 TAIL, 4 SINGLE, 5 CTRL. -/
  typ : Nat
  cvc : Nat
  ccnt : Nat
  /-- 248 bytes. -/
  payload : List Byte
deriving DecidableEq, Repr

/-- The link layer of a port (R417 to R423). -/
structure Link where
  /-- SEQ expected next. -/
  exp : Nat
  /-- A NAK has been sent and its SEQ has not arrived. -/
  nak : Bool
  /-- Payload bytes of a packet that is arriving, by VC. -/
  asm : Store (List Byte)
  /-- The retry buffer: flits sent and not acknowledged, oldest first. -/
  buf : List Flit
  /-- SEQ of the next new flit. -/
  next : Nat
  /-- Resends of the oldest unacknowledged SEQ. -/
  tries : Nat
  /-- Flits that wait for a credit or for room in the retry buffer, oldest first; their SEQ and ACK are set when they go. -/
  wait : List Flit
  /-- Credits held for each VC, and those that VC0 to VC6 share (R422). -/
  cred : Store Nat
  shared : Nat
  /-- The VC after the one served last (R423). -/
  turn : Nat
  /-- Credits owed to the peer by VC. -/
  owed : Store Nat
deriving DecidableEq, Repr

/-- A link as it comes up: the whole receive buffer of the peer is credit (R422). -/
def Link.init : Link :=
  { exp := 0, nak := false, asm := [], buf := [], next := 0, tries := 0, wait := [],
    cred := [(0, 32), (1, 32), (2, 32), (3, 32), (4, 32), (5, 32), (6, 32), (7, 16)], shared := 272, turn := 0, owed := [] }

/-- The fabric's queues. -/
structure Fab where
  /-- Next end-to-end SEQ: destination × 8 + VC. -/
  seq : Store Nat
  unacked : List Sent
  /-- Packets sent: plane (16 Ethernet) and packet, oldest first. -/
  outbox : List (Nat × Packet)
  /-- By source × 8 + VC. -/
  rx : Store RxWin
  /-- ORDERED packets that wait for an earlier one (R428). -/
  held : List Packet
  wants : List Want
  nextTag : Nat
  /-- The last plane used for a destination (R432). -/
  rr : Store Nat
  /-- Port-down notices in force: plane and module (R433). -/
  down : List (Nat × Nat)
  links : Store Link
  /-- Flits put on a link, by port, oldest first. -/
  flits : List (Nat × Flit)
  /-- Modules reported unreachable (R427). -/
  lostMods : List Nat
deriving DecidableEq, Repr

def Fab.init : Fab :=
  { seq := [], unacked := [], outbox := [], rx := [], held := [], wants := [], nextTag := 0, rr := [], down := [],
    links := [], flits := [], lostMods := [] }

/-- A firing of a chain in progress (R445, R446). Segments are named descriptor × 2^28 + segment. -/
structure Firing where
  chain : Nat
  k : Nat
  /-- Descriptors started: those below this index. -/
  started : Nat
  /-- Descriptors complete. -/
  done : List Nat
  /-- ALLREDUCE: segments combined here, and segments whose result is written here. -/
  combined : List Nat
  resulted : List Nat
  /-- ALLREDUCE: bytes of each segment's result that arrived from the parent. -/
  down : Store Nat
  /-- Segments with NF (R459). -/
  nf : List Nat
  /-- PUBLISH: the learner step that the publication carries and its SWITCH_STEP (R344, R350). -/
  lstep : Nat
  sw : Nat
deriving DecidableEq, Repr

/-- The live state of an image in a spill slot (R308): where each logical hamlet ran, its streams and scratchpads by logical
hamlet × 16 + logical tile, the scratch ways of each hamlet's store, and the step number and chains with which the image goes
on (log entry 31). -/
structure Spill where
  img : Nat
  step : Nat
  /-- Hamlet and the logical hamlet that it ran. -/
  lhams : List (Nat × Nat)
  streams : Store Stream
  spads : Store Memory
  stores : Store Memory
  pctr : Store Nat
  firings : List Firing
  fired : Store Nat
  chainOff : List Nat
  arrived : Store (Nat × Bool)
deriving DecidableEq, Repr

/-- A partition. -/
structure Part where
  st : PState
  learner : Bool
  /-- 0 MIXED, 1 PREFILL, 2 DECODE (R30). -/
  pool : Nat
  exclusive : Bool
  spillSlots : Nat
  /-- Its hamlets, module-wide, ascending. -/
  hams : List Nat
  /-- Its pseudo-channels: stack × 32 + channel, ascending. -/
  pcs : List Nat
  /-- Its ways, the same in every hamlet (R495). -/
  ways : W32
  images : Store Image
  resident : Option Nat
  /-- The prologues of the resident image run (R183, R658). -/
  placing : Bool
  /-- The last released step number (R176). -/
  step : Nat
  /-- A step is released and has not reached its boundary. -/
  inStep : Bool
  /-- The next release carries the last step's number again (R176, R552). -/
  again : Bool
  /-- The first cause of the fault of the step in flight (R549). -/
  cause : Option Cause
  /-- STEP_LIMIT, PEER_BASE and PEER_CNT as taken at the last release (R500). -/
  limit : Nat
  peerBase : Nat
  peerCnt : W32
  /-- The PRT command that runs: its OP and image index, 0 none (R494). -/
  cmd : Nat
  cmdImg : Nat
  /-- The shadow divisor as taken at the last release; 0 off (R557). -/
  shadow : Nat
  /-- The step formed at the last boundary, or in flight: its length table (R282). -/
  batch : List LEnt
  /-- Budget charges of the step: entry index and tokens (R286). -/
  charges : List (Nat × Nat)
  gen : Gen
  /-- ORC writes that wait for the next boundary: offset and value (R311). -/
  orcQ : List (Nat × Nat)
  /-- Granary records that wait for room (R298). -/
  grnWait : List (List Byte)
  /-- The release of the next step is held for the granary (R298). -/
  grnHeld : Bool
  /-- Queue pairs in error that the next boundary acts on (R296). -/
  qpErr : List Nat
  /-- The image that a switch brings in, while it runs (R306 to R309). -/
  switchTo : Option Nat
  spills : Store Spill
  /-- EPO.P_CFG and P_INIT as taken at the last release (R370). -/
  epCfg : W32
  epInit : W32
  /-- Draining epochs whose pin window is open, with the steps left (R362). -/
  pins : List (Nat × Nat)
  /-- The hold of the due release has been counted (R359). -/
  epHeld : Bool
  /-- The step of the last recheck pass that found the current epoch clean (R358). -/
  cleanStep : Nat
  /-- Adaptor entries copied at the release, by function (R367). -/
  adp : Store (List Byte)
  /-- The prefetch schedule: base, entries, and the next entry; as taken at the last release (R397). -/
  pfBase : Nat
  pfCnt : Nat
  pfNext : Nat
  /-- The 256 port-engine counters (R442); absent means 0. -/
  pctr : Store Nat
  /-- The counters at the last step release (R396). -/
  pctr0 : Store Nat
  firings : List Firing
  /-- Firings of each chain that have completed. -/
  fired : Store Nat
  /-- Chains that a fault stopped (R467). -/
  chainOff : List Nat
  /-- Contributions that have arrived in ALLREDUCE slots: bytes so far and NF, by
  (((chain × 64 + descriptor) × 2 + parity) × 16 + child) × 2^28 + segment (R458, R459). -/
  arrived : Store (Nat × Bool)
  /-- The chains wait for the first release at which their groups are VALID (R464). -/
  penHeld : Bool
  /-- PEN.P_REG_BASE and P_REG_CNT as taken at the last release. -/
  regBase : Nat
  regCnt : Nat
  /-- A STEP fence that names the step after the last released one: its number, group and ORIGIN (R569). -/
  fenceNext : Option (Nat × Nat × Nat)
  /-- Commits since the start of the job (R349). -/
  commits : Nat
  /-- The last committed learner step: the step of the C views (R605). -/
  cstep : Nat
  /-- Boundaries of a generator since its last mirror (R595). -/
  sinceMir : Nat
  /-- The VOTE program of the step has been counted as held (R594). -/
  mirHeld : Bool
  /-- The learner's commit exchange waits for acknowledgements of a publication or for the shard reads of an ordinal (R352,
  R599). -/
  commitWait : Bool
  /-- Step parameters as the last release wrote them, by logical hamlet × 16 + logical tile (R552). -/
  relPar : Store (Store W32)
  /-- The epochs of the sub-batches still to run in the step, ascending, the running one first (R363). -/
  subs : List Nat
  /-- MCN.P_TR_CFG and P_TR_BASE as taken at the last step release, and a write of either since (R628). -/
  trCfg : W32
  trBase : Nat
  trNew : Bool
deriving DecidableEq, Repr

/-- A FREE partition. -/
def Part.init : Part :=
  { st := .free, learner := false, pool := 0, exclusive := false, spillSlots := 0, hams := [], pcs := [], ways := 0,
    images := [], resident := none, placing := false, step := 0, inStep := false, again := false, cause := none,
    limit := 100000, peerBase := 0, peerCnt := 0, cmd := 0, cmdImg := 0, shadow := 0, batch := [], charges := [], gen := ⟨4096, 8192, 1024, 0, 0, 17408, 0⟩, orcQ := [], grnWait := [], grnHeld := false, qpErr := [], switchTo := none, spills := [], epCfg := 0x00020040, epInit := 0xFFFFFFFF, pins := [], epHeld := false, cleanStep := 0, adp := [], pfBase := 0, pfCnt := 0, pfNext := 0, pctr := [], pctr0 := [], firings := [], fired := [], chainOff := [], arrived := [], penHeld := false, regBase := 0, regCnt := 0, fenceNext := none, commits := 0, cstep := 0, sinceMir := 0, mirHeld := false, commitWait := false, relPar := [], subs := [], trCfg := 0, trBase := 0, trNew := false }

/-! ### Clock islands (15) -/

/-- A tile or hamlet island beside its registers (R513 to R520). -/
structure Island where
  /-- The operating point, in FREQ steps, to which R513, R517 or R520 has lowered it. -/
  low : Option Nat
  /-- Stretch level, 0 to 3 (R515). -/
  stretch : Nat
  /-- Escalated (R517). -/
  escal : Bool
  /-- Its junction is in an episode above TJ_MAX (R520). -/
  hot : Bool
  /-- It has been lowered under R520 and is not back at its setting. -/
  therm : Bool
  /-- Module time of its last temperature sample. -/
  sampled : Nat
deriving DecidableEq, Repr

/-- An island at its setting. -/
def Island.init : Island := { low := none, stretch := 0, escal := false, hot := false, therm := false, sampled := 0 }

/-! ### Boot, attestation, live switch and firmware update (16) -/

/-- A live switch in progress (R543 to R545). -/
structure LiveSw where
  /-- The bank whose reeve and orchestrator firmware comes in. -/
  bank : Nat
  /-- Hamlets that run the new reeve firmware. -/
  changed : List Nat
  /-- A reeve did not start it: every hamlet returns to the old firmware (R545). -/
  back : Bool
  /-- The headers of the reeve and the orchestrator component, as checked. -/
  reeve : List Byte
  orch : List Byte
deriving DecidableEq, Repr

/-- The SPDM exchange with the requester (R540). -/
structure Spdm where
  /-- The version that the last CAPABILITIES request took, 0x12 or 0x13; 0 before it. -/
  ver : Nat
  /-- NEGOTIATE_ALGORITHMS is done. -/
  algo : Bool
  /-- What the signature of CHALLENGE covers: version, capabilities and algorithms; digests and certificate. -/
  msgA : List Byte
  msgB : List Byte
  /-- Measurement requests and answers since the last signed one. -/
  msgL : List Byte
deriving DecidableEq, Repr

/-- No SPDM exchange. -/
def Spdm.init : Spdm := { ver := 0, algo := false, msgA := [], msgB := [], msgL := [] }

/-- The PLDM firmware update (R546, R547). -/
structure Pldm where
  /-- 0 idle, 1 learning components, 2 ready to transfer, 3 download, 4 verify, 5 apply. -/
  st : Nat
  /-- The bank that it writes. -/
  bank : Nat
  /-- Bytes of the bundle, and those that have come. -/
  size : Nat
  got : Nat
  /-- The loft object that receives the bundle. -/
  obj : Nat
  /-- A bundle has passed its checks and been applied. -/
  applied : Bool
deriving DecidableEq, Repr

/-- No update. -/
def Pldm.init : Pldm := { st := 0, bank := 0, size := 0, got := 0, obj := 0, applied := false }



/-! ### Checkpoints (18) -/

/-- A mirror that the buddy has not acknowledged whole (R593). -/
structure Mirror where
  part : Nat
  step : Nat
  /-- Generation: step mod 2. -/
  gen : Nat
  learner : Bool
  /-- COMPLETE has been written as 1. -/
  closed : Bool
deriving DecidableEq, Repr

/-- The checkpoint ordinal that is being written (R599 to R601). -/
structure Ordinal where
  k : Nat
  /-- The learner step committed. -/
  step : Nat
  mepoch : Nat
  /-- Blocks of the rank's area that are written. -/
  used : Nat
  /-- This rank's manifest entries, 96 bytes each. -/
  mine : List (List Byte)
  /-- Generator partitions that have still to write their shards. -/
  gens : List Nat
  /-- This rank's Flush is complete. -/
  flushed : Bool
  /-- At rank 0: the entries that have come, by rank. -/
  ranks : Store (List Byte)
deriving DecidableEq, Repr



/-- A census in progress (R619, R620). -/
structure CensusRun where
  id : Nat
  /-- ORIGIN of the CENSUS packet that started it. -/
  origin : Option Nat
  /-- Module time and membership epoch at the start. -/
  start : Nat
  mepoch : Nat
  /-- Pages whose unit has recorded. -/
  done : List Nat
  /-- Module time at which the last unit recorded. -/
  last : Nat
  /-- The shadows, as the bytes of the census record that are not zero. -/
  shadow : Memory
deriving DecidableEq, Repr

/-- The state of the module. -/
structure State where
  /-- Commands that are waiting, first in first out. -/
  pending : List Instr
  /-- Module time in nanoseconds (R12). -/
  time : Nat
  /-- Every register that does not hold its reset value: register address + 2^29 × bank index. -/
  regs : Store W32
  /-- HI writes that wait for the write of LO (R651): by register key of LO. -/
  staged : Store W32
  /-- HI values that a read of LO captured (R614): by register key of HI. -/
  capt : Store W32
  /-- Staged bounds of R142: by register key. -/
  bndStaged : Store W32
  /-- What the last read or request returned. -/
  resp : List Byte
  /-- Interrupt messages sent: function code and MSI-X vector, oldest first (R68, R492). -/
  irqs : List (Nat × Nat)
  /-- The near and the far tier, by module offset. -/
  mem : Memory
  /-- Host memory that the module writes by DMA, by bus address. -/
  host : Memory
  /-- Draws of free values so far (log entry 8). -/
  freeCtr : Nat
  /-- Signals counted so far (R625). -/
  sigOrd : Nat
  ledger : Ledger
  /-- The MRAM black-box record: record slot × 64 (R580, R581). -/
  mram : Memory
  /-- The membership epoch (R462). -/
  mepoch : Nat
  /-- Logical tiles: hamlet × 16 + logical tile. -/
  streams : Store Stream
  /-- Tile contexts: hamlet × 64 + physical tile, or + 32 + way for a folded logical tile. -/
  tiles : Store Tile
  hams : Store Hamlet
  parts : Store Part
  /-- Physical tiles that have still to run the known-answer test, as hamlet × 17 + tile (R269, R270). -/
  kcmLeft : List Nat
  /-- Request entries by slot; absent is FREE (R272). -/
  reqs : Store Req
  /-- Entries as of the last boundary of their partition, as the request-table window shows them (R275). -/
  reqWin : Store Req
  /-- The next ADMIT_SEQ (R272). -/
  admitSeq : Nat
  /-- Frames in use of each KV pool: tier × 32 + partition (R283, R310). -/
  kvUsed : Store (List Nat)
  /-- Commands and messages that wait at the hub, in the order in which they reached it (R277). -/
  hub : List HubItem
  /-- STATUS records that wait for room, by function (R488). -/
  hrWait : Store (List (List Byte))
  /-- Producer counts accepted from doorbells, by function (R486). -/
  cqProd : Store W32
  /-- Functions with command-ring entries to fetch, in the order of their doorbells (R486). -/
  cqOrder : List Nat
  shipIn : Store ShipIn
  out : List OutMsg
  slots : Store EpSlot
  /-- The highest epoch accepted since cold reset, and the SWITCH_STEP of the last one (R353). -/
  lastEpoch : Option Nat
  lastSw : Option Nat
  /-- The loft load that runs: object and slot (R366). -/
  epLoad : Option (Nat × Nat)
  /-- Module time at which the next recheck pass starts (R358). -/
  recheckAt : Nat
  /-- Publications whose subscribers have not all acknowledged: partition, chain, epoch and subscribers left (R352). -/
  pubs : List (Nat × Nat × Nat × List Nat)
  /-- Published shards that are arriving in packets: by source, the bytes at their offsets in header and data (R351). -/
  epoAsm : Store Memory
  /-- Bytes of each such shard that have come. -/
  epoGot : Store Nat
  /-- Poisoned 64-byte lines of the tiers, ascending: module offset div 64 (R380). -/
  poison : List Nat
  /-- The module is fenced and in QUARANTINE (R571). -/
  quar : Bool
  /-- The compute dies have no power (R522, R635). -/
  dark : Bool
  /-- Tray position, from the TRAY_POS straps (R631). -/
  tray : Nat
  /-- The map command that runs: OP, first page, count and the RESULT it ends with (R389). -/
  mcmd : Option (Nat × Nat × Nat × Nat)
  /-- Migrations: page, target tier, new frame (R393). -/
  migs : List (Nat × Nat × Nat)
  /-- Moves that wait for a migration of the same page: page and tier (R395). -/
  migWait : List (Nat × Nat)
  /-- Far frames RETIRING or RETIRED (R384). -/
  farRet : List Nat
  /-- The object directory by ID, with the objects' bytes (R403). -/
  loft : Store LoftObj
  lcmd : Option LoftCmd
  fab : Fab
  /-- Failed lanes of each die-to-die link by direction: die × 2 + direction (R438). -/
  d2dBad : Store Nat
  /-- The next CSEQ of this module (R468). -/
  criSeq : Nat
  /-- Crier packets that wait for a token, oldest first (R470). -/
  criQ : List Crier
  /-- Tokens of the bucket as of a module time (R470). -/
  criTok : Nat
  criAt : Nat
  /-- CSEQs applied, by origin: the newest, and those of the window of 1,024 below it (R469). -/
  criRx : Store (Nat × List Nat)
  /-- DEADs adopted: the epoch each began, SUBJECT and REPLACEMENT, oldest first (R463, R567). -/
  deaths : List (Nat × Nat × Nat)
  /-- Islands: hamlet × 18 + island of ISL.IDX (R505). -/
  isl : Store Island
  /-- Clamped boundaries: hamlet × 18 + tile island, or + 17 for the hamlet island's boundary with the spine (R506, R512). -/
  clamps : List Nat
  /-- The fused curve: millivolts by FREQ step, where it is not the straight line from 600 to 900 (R508). -/
  vf : Store Nat
  /-- The input power samples of the last millisecond, newest first (R519). -/
  power : List Nat
  /-- Island time above 85 °C in nanoseconds, kept in MRAM (R523). -/
  hotNs : Nat
  live : Option LiveSw
  /-- Measurement slots 1 to 31 that hold a value, 48 bytes each (R533, R542). -/
  meas : Store (List Byte)
  /-- Owner-key digests in the fuses by index, and the indexes revoked there (R531). -/
  ownKeys : Store (List Byte)
  ownRev : List Nat
  /-- The running component of each TYPE: VERSION, SVN and DCL; absent is 1, 0 and 1 (log entry 4). -/
  fw : Store (Nat × Nat × Nat)
  spdm : Spdm
  pldm : Pldm
  /-- VIN_48 has fallen below 38 V and is not back (R635). -/
  vinLow : Bool
  /-- A thermal trip has removed power (R522). -/
  tripped : Bool
  /-- SWAP_REQ_N is low, and SWAP_OK is released (R644, R645). -/
  swapReq : Bool
  swapOk : Bool
  /-- Ethernet ports on which the crier priority is paused, and the module time until which it is (R440). -/
  paused : Store Nat
  /-- Crier packets whose Ethernet copies wait for a port that is not paused. -/
  criHold : List Crier
  /-- Modules declared dead that the membership no longer holds (R567). -/
  gone : List Nat
  /-- Module time of the last echo or crier packet applied (R570). -/
  heard : Nat
  /-- Module time of the last heartbeat sent (R564). -/
  hbAt : Nat
  /-- Modules that this one watches: module time of the last heartbeat or miss, consecutive misses, and a SUSPECT sent since the
  last heartbeat (R565). -/
  watch : Store (Nat × Nat × Bool)
  /-- Reports in force at this coordinator: subject, monitor and module time (R565, R566). -/
  reports : List (Nat × Nat × Nat)
  /-- HALT: module time of the last sample, length of the run of disagreeing samples, and of the run of agreed de-asserted ones
  (R575 to R579). -/
  hltAt : Nat
  hltRun : Nat
  hltOk : Nat
  /-- CODEs of HALT records that step 5 of R578 has still to write. -/
  hltRec : List Nat
  /-- Step 3 of R578 is complete. -/
  hltSaved : Bool
  /-- A GO that takes effect once step 3 is complete (R579). -/
  hltClr : Bool
  /-- A DEAD has been adopted, and the restore that follows it is not complete (R342, R605). -/
  restoreDue : Bool
  mirrors : List Mirror
  ck : Option Ordinal
  /-- The membership epoch for which the reservation key is registered (R598). -/
  leaseAt : Option Nat
  /-- DIGESTs that the durable manifests list, by manifest slot (R604). -/
  durable : Store (List (List Byte))
  /-- Module time of the next recheck pass (R596). -/
  ckCheckAt : Nat
  /-- The restore step that rank 0 has set and this rank has not yet loaded (R605). -/
  restoreAt : Option Nat
  census : Option CensusRun
deriving DecidableEq, Repr

/-- The module stops with a fault: no command of this block does. -/
inductive Fault where
  /-- Nobody raises it: every failure that the spec describes is state (safe). -/
  | none
deriving DecidableEq, Repr

/-- Why a command has no effect that the model can give. -/
inductive Refusal where
  /-- Raised by the dispatch of a command that the model has no meaning for yet; safe. -/
  | notModelled (mnemonic : String)
  /-- Raised by a command whose operands name a unit, page or index that the module does not have (log entry 7); safe. -/
  | illFormed
deriving DecidableEq, Repr

/-- The module right after reset: every register at its Reset value, no memory written, no command waiting. -/
def State.reset : State :=
  { pending := [], time := 0, regs := [], staged := [], capt := [], bndStaged := [], resp := [], irqs := [], mem := [],
    host := [], freeCtr := 0, sigOrd := 0, ledger := Ledger.init, mram := [], mepoch := 0, streams := [], tiles := [], hams := [],
    parts := [], kcmLeft := [], reqs := [], reqWin := [], admitSeq := 0, kvUsed := [], hub := [], hrWait := [], cqProd := [], cqOrder := [], shipIn := [], out := [], slots := [], lastEpoch := none, lastSw := none, epLoad := none, recheckAt := 3600000000000, pubs := [], epoAsm := [], epoGot := [], poison := [], quar := false, dark := false, tray := 0, mcmd := none, migs := [], migWait := [], farRet := [], loft := [], lcmd := none, fab := Fab.init, d2dBad := [], criSeq := 0, criQ := [], criTok := 4, criAt := 0, criRx := [], deaths := [], isl := [], clamps := [], vf := [], power := [], hotNs := 0, live := none, meas := [], ownKeys := [], ownRev := [], fw := [], spdm := Spdm.init, pldm := Pldm.init, vinLow := false, tripped := false, swapReq := false, swapOk := false, paused := [], criHold := [], gone := [], heard := 0, hbAt := 0, watch := [], reports := [], hltAt := 0, hltRun := 0, hltOk := 0, hltRec := [], hltSaved := false, hltClr := false, restoreDue := false, mirrors := [], ck := none, leaseAt := none, durable := [], ckCheckAt := 0, restoreAt := none, census := none }

end Sys2Proof.Machine
end

