-- ==== Sys2Proof/Machine/Store.lean ====
section
/-! DEFINITION. Sparse stores and byte memory, with the one way to read and to write each. -/

namespace Sys2Proof.Machine

variable {α : Type}

/-- The entry of key `k`. -/
def getS (m : Store α) (k : Nat) : Option α :=
  match m with
  | [] => none
  | (j, v) :: r => if j = k then some v else getS r k

/-- The entry of key `k`, or `d` where there is none. -/
def getD (m : Store α) (k : Nat) (d : α) : α := (getS m k).getD d

/-- `m` with key `k` holding `v`; the keys stay ascending. -/
def putS (m : Store α) (k : Nat) (v : α) : Store α :=
  match m with
  | [] => [(k, v)]
  | (j, w) :: r => if k < j then (k, v) :: (j, w) :: r else if k = j then (k, v) :: r else (j, w) :: putS r k v

/-- `m` without key `k`. -/
def delS (m : Store α) (k : Nat) : Store α := m.filter (fun e => decide (e.1 ≠ k))

/-- `m` without the keys of `[lo, lo + n)`. -/
def clearRange (m : Store α) (lo n : Nat) : Store α := m.filter (fun e => !(lo ≤ e.1 && e.1 < lo + n))

/-- `m` with key `k` set to `v`, and no entry listed that equals the default `d`. -/
def putDef [DecidableEq α] (m : Store α) (k : Nat) (v d : α) : Store α :=
  if v = d then delS m k else putS m k v

/-- The byte at address `a` (an unlisted address reads as zero, log entry 6). -/
def rdB (m : Memory) (a : Nat) : Byte := getD m a 0

/-- `m` with byte `b` at address `a`; the form of `memWf` is kept. -/
def wrB (m : Memory) (a : Nat) (b : Byte) : Memory := putDef m a b 0

/-- The `n` bytes from address `a` on. -/
def rdBytes (m : Memory) (a : Nat) : Nat → List Byte
  | 0 => []
  | n + 1 => rdB m a :: rdBytes m (a + 1) n

/-- `m` with the bytes `bs` from address `a` on. -/
def wrBytes (m : Memory) (a : Nat) : List Byte → Memory
  | [] => m
  | b :: bs => wrBytes (wrB m a b) (a + 1) bs

/-- The `n`-byte number at `a`, least significant byte first (R11). -/
def rdNat (m : Memory) (a n : Nat) : Nat := ofBytes (rdBytes m a n)

/-- `m` with the `n`-byte number `v` at `a`, least significant byte first (R11). -/
def wrNat (m : Memory) (a n v : Nat) : Memory := wrBytes m a (bytesOf n v)

/-- The FP32 or register word at `a`. -/
def rd32 (m : Memory) (a : Nat) : W32 := BitVec.ofNat 32 (rdNat m a 4)

/-- `m` with the word `v` at `a`. -/
def wr32 (m : Memory) (a : Nat) (v : W32) : Memory := wrNat m a 4 v.toNat

/-- `m` with the words `vs` from `a` on. -/
def wr32s (m : Memory) (a : Nat) : List W32 → Memory
  | [] => m
  | v :: vs => wr32s (wr32 m a v) (a + 4) vs

/-- `m` with `n` bytes from `a` on reading as zero. -/
def zeroRange (m : Memory) (a n : Nat) : Memory := clearRange m a n

/-- `x` put into an ascending list, where it stands once. -/
def insN : List Nat → Nat → List Nat
  | [], x => [x]
  | y :: r, x => if x < y then x :: y :: r else if x = y then y :: r else y :: insN r x

/-- The keys are ascending and no key stands twice. -/
def keysUp : Store α → Bool
  | [] => true
  | [_] => true
  | a :: b :: r => decide (a.1 < b.1) && keysUp (b :: r)

/-- The one form of a memory: ascending addresses, no listed byte equal to what an unlisted address reads as. -/
def memWf (m : Memory) : Bool := keysUp m && m.all (fun e => decide (e.2 ≠ 0))

end Sys2Proof.Machine
end

