-- ==== Sys2Proof/WellFormed.lean ====
section
/-! DEFINITION. Which commands are well formed: every operand names a unit, a page or an index that the module has. A
command that is not well formed is refused by name (log entry 7). -/

namespace Sys2Proof

/-- A writer whose class and path the tables of R70 and R75 allow: M comes over PCIe or the sideband, F from a firmware
core, T through a VF, D through the debug port and X in a crier packet. -/
def Writer.wf (w : Writer) : Bool :=
  decide (w.fn < 512) && decide (w.source < 65536) && decide (w.mepoch < 65536) &&
  match w.cls with
  | .m => decide (w.path ≤ 2)
  | .f => decide (w.path = 3)
  | .t => decide (w.path = 0)
  | .d => decide (w.path = 4)
  | .x => decide (w.path = 5)

/-- A dispatch on a logical tile of a hamlet that the module can have (R25, R54). -/
def Disp.wf (d : Disp) : Bool :=
  decide (d.hamlet < 128) && decide (d.tile < 16) && decide (d.kind < 4) && (match d.unc with | none => true | some a => decide (a < 0x40000))

/-- A module offset of the near or the far tier (R372). -/
def inTiers (a : Nat) : Bool := decide (a < 0x6000000000) || (decide (0x20000000000 ≤ a) && decide (a < 0x3A000000000))

/-- Memory errors at places that exist. -/
def MemOutcome.wf (m : MemOutcome) : Bool :=
  m.corr.all inTiers && (match m.unc with | none => true | some a => inTiers a) &&
  (match m.hst with | none => true | some x => decide (x.1 < 0x800000))

/-- A block code of a hamlet page (R55). -/
def hamletBlock (b : Nat) : Bool := decide (b ≤ 0x10) || (decide (0x18 ≤ b) && decide (b ≤ 0x1F))

/-- A block code of a die-level page (R55). -/
def dieBlock (b : Nat) : Bool := decide (b ≤ 2) || decide (b = 8) || decide (b = 9)

/-- A hub page index (R55). -/
def hubPage (i : Nat) : Bool :=
  decide (i ≤ 3) || (decide (0x10 ≤ i) && decide (i ≤ 0x17)) || (decide (0x20 ≤ i) && decide (i ≤ 0x22)) ||
  decide (i = 0x24) || (decide (0x38 ≤ i) && decide (i ≤ 0x40)) || (decide (0x50 ≤ i) && decide (i ≤ 0x64)) ||
  decide (i = 0x66) || decide (i = 0x70) || (decide (0x100 ≤ i) && decide (i ≤ 0x31F))

/-- Whether a register address is the first of an assigned page (R54, R55). -/
def pageExists (p : Nat) : Bool :=
  let dom := p >>> 25
  let ham := (p >>> 18) % 128
  let blk := (p >>> 12) % 64
  decide (p % 4096 = 0) &&
  (if dom = 0 then hubPage (p >>> 12)
   else decide (dom ≤ 4) && ((decide (ham < 32) && hamletBlock blk) || (decide (ham = 127) && dieBlock blk)))

/-- A page of a hamlet with block code `b` (R55). -/
def hamletPage (b p : Nat) : Bool :=
  pageExists p && decide (1 ≤ p >>> 25) && decide ((p >>> 18) % 128 < 32) && decide ((p >>> 12) % 64 = b)

/-- A TIL page (R55). -/
def tilePage (p : Nat) : Bool :=
  pageExists p && decide (1 ≤ p >>> 25) && decide ((p >>> 18) % 128 < 32) && decide ((p >>> 12) % 64 ≤ 0x10)

/-- A page of a die level with a block code from `a` to `b` (R55). -/
def dieLevelPage (a b p : Nat) : Bool :=
  pageExists p && decide (1 ≤ p >>> 25) && decide ((p >>> 18) % 128 = 127) && decide (a ≤ (p >>> 12) % 64) &&
  decide ((p >>> 12) % 64 ≤ b)

/-- An NTM or an FTM page (R55). -/
def memPage (p : Nat) : Bool := dieLevelPage 8 9 p || (decide (0x38000 ≤ p) && decide (p ≤ 0x3F000) && decide (p % 4096 = 0))

/-- A ring register: CMDQ_BASE, HRING_BASE or RINGS of a function or of the PF (R490, R491). -/
def ringReg (a : Nat) : Bool :=
  (decide (0x100 ≤ a >>> 12 ∧ a >>> 12 ≤ 0x2FF) || decide (a >>> 12 = 0x70)) && decide (0x11C ≤ a % 4096) &&
  decide (a % 4096 ≤ 0x12C) && decide (a % 4 = 0)

/-- A function or the PF as an origin code (R477). -/
def Origin.wf (o : Origin) : Bool := decide (o.fn ≤ 512)

/-- A packet whose header fields have the widths of R424. -/
def Packet.wf (p : Packet) : Bool :=
  decide (p.dst < 65536) && decide (p.src < 65536) && decide (p.mepoch < 65536) && decide (p.flags < 8) &&
  decide (p.len ≤ 4096) && decide (p.part < 32) && decide (p.seq < 2 ^ 32) && decide (p.tag < 2 ^ 32) &&
  decide (p.addr < 2 ^ 64) && decide (p.vc < 8) && decide (p.port < 20) && decide (p.data.length ≤ 4096)

/-- A crier packet whose fields have the widths of R468. -/
def Crier.wf (c : Crier) : Bool :=
  decide (c.dst < 65536) && decide (c.origin < 65536) && decide (c.mepoch < 65536) && decide (c.hops < 256) &&
  decide (c.seq < 65536) && decide (c.typ < 256) && decide (c.args.length = 48) && decide (c.plane < 20)

/-- A temperature that ISL.TEMP can hold: °C in two's complement of 8 bits. -/
def tempOk (t : Int) : Bool := decide (-128 ≤ t) && decide (t ≤ 127)

/-- A boot of a module in a tray whose pseudo-channels exist. -/
def BootOutcome.wf (b : BootOutcome) : Bool := decide (b.tray < 4) && b.failed.all (fun n => decide (n < 256))

def ColdSrc.wf (x : ColdSrc) : Bool := match x with | .write w _ => w.wf | .power => true | .thermal => true
def WarmSrc.wf (x : WarmSrc) : Bool := match x with | .write w _ => w.wf | .pcie => true

/-- The request code of an SPDM request, its second byte (DMTF DSP0274, log entry 40). -/
def spdmCode (req : List Byte) : Nat := (req.getD 1 0).toNat

/-- The sides of a shipment. -/
def ShipSide.wf (x : ShipSide) : Bool :=
  match x with
  | .target _ src slot p => decide (src < 65536) && decide (slot < 16384) && decide (p < 32)
  | .source slot t _ => decide (slot < 16384) && decide (t < 16384)

/-- Whether every operand of a command is one that the module can be given. -/
@[inline] def Instr.wf (i : Instr) : Bool :=
  match i with
  | .registerWrite w addr _ _ => w.wf && decide (addr < 2 ^ 29)
  | .broadcastWrite w addr _ => w.wf && decide (addr < 2 ^ 29)
  | .pairHiWrite w addr _ => w.wf && decide (addr < 2 ^ 29)
  | .pairLoWrite w addr _ => w.wf && decide (addr < 2 ^ 29)
  | .pairLoRead addr size vf => decide (addr < 2 ^ 29) && decide (size ≤ 64) && (match vf with | none => true | some n => decide (n < 512))
  | .rcRead addr size vf => decide (addr < 2 ^ 29) && decide (size ≤ 64) && (match vf with | none => true | some n => decide (n < 512))
  | .errClr w page _ => w.wf && pageExists page
  | .pageFence w page _ => w.wf && pageExists page
  | .fenceComplete page => pageExists page
  | .quiesceReq w page _ => w.wf && pageExists page
  | .quiesceResume w page _ => w.wf && pageExists page
  | .unitQuiesced page => pageExists page
  | .pageEnable w page _ => w.wf && pageExists page
  | .pageDisable w page _ => w.wf && pageExists page
  | .intStatClear w page _ _ => w.wf && pageExists page
  | .intForce w page _ => w.wf && pageExists page
  | .ownerWrite w page _ => w.wf && pageExists page
  | .ledgerSeal => true
  | .ctlNop d => d.wf
  | .ctlSync d => d.wf
  | .waitn d => d.wf
  | .ctlFence d => d.wf
  | .setp d => d.wf
  | .stepEnd d => d.wf
  | .mmaFull d => d.wf
  | .mmaQuad d => d.wf
  | .mmaBlock d => d.wf
  | .mv d => d.wf
  | .vecAdd d => d.wf
  | .vecSub d => d.wf
  | .vecMul d => d.wf
  | .vecFma d => d.wf
  | .vecMin d => d.wf
  | .vecMax d => d.wf
  | .vecCmp d => d.wf
  | .vecSel d => d.wf
  | .vecIadd d => d.wf
  | .vecIsub d => d.wf
  | .vecAnd d => d.wf
  | .vecOr d => d.wf
  | .vecXor d => d.wf
  | .vecShl d => d.wf
  | .vecShr d => d.wf
  | .vecRotl d => d.wf
  | .vecCvt d => d.wf
  | .vecExp2 d => d.wf
  | .vecLn d => d.wf
  | .vecRcp d => d.wf
  | .vecRsqrt d => d.wf
  | .vecRed d => d.wf
  | .vecScan d => d.wf
  | .vecLrscan d => d.wf
  | .vecLrscanRev d => d.wf
  | .vecLd d => d.wf
  | .vecSt d => d.wf
  | .ldslot d => d.wf
  | .vecKcm d => d.wf
  | .crtSubmit d => d.wf
  | .atsSubmit d => d.wf
  | .updSubmit d => d.wf
  | .penTrigger d => d.wf
  | .commandComplete hamlet tile _ => decide (hamlet < 128) && decide (tile < 16)
  | .shadowRun hamlet tile _ _ => decide (hamlet < 128) && decide (tile < 16)
  | .nfFlagClear w page _ _ _ => w.wf && tilePage page
  | .bndBoundWrite w page _ _ => w.wf && tilePage page
  | .bndKeyWrite w page _ => w.wf && tilePage page
  | .rngCntRead page => tilePage page
  | .stepRelease part => decide (part < 32)
  | .hamletStepBoundary hamlet => decide (hamlet < 128)
  | .stepHung hamlet tile => decide (hamlet < 128) && decide (tile < 16)
  | .idleBoundaryTick part _ => decide (part < 32)
  | .prologueComplete part => decide (part < 32)
  | .cartListStart hamlet => decide (hamlet < 128)
  | .cartCopy hamlet mem => decide (hamlet < 128) && mem.wf
  | .cartFill hamlet => decide (hamlet < 128)
  | .cartSignal hamlet => decide (hamlet < 128)
  | .cartLink hamlet => decide (hamlet < 128)
  | .crtFaultClear w page _ => w.wf && hamletPage 0x1E page
  | .attentionJobStart hamlet mem => decide (hamlet < 128) && mem.wf
  | .atsFaultClear w page _ => w.wf && hamletPage 0x19 page
  | .tokenDraw slot _ _ => decide (slot < 16384)
  | .kcmTestStart w _ => w.wf
  | .kcmTestRun hamlet tile _ => decide (hamlet < 128) && decide (tile < 17)
  | .smpLastFaultClear w _ => w.wf
  | .cmdqDoorbell fn _ _ _ _ => decide (fn < 513)
  | .hringDoorbell fn _ _ _ _ => decide (fn < 513)
  | .commandFetch fn _ => decide (fn < 513)
  | .submit o _ => o.wf
  | .append o _ => o.wf
  | .resume o _ => o.wf
  | .pause o _ => o.wf
  | .park o _ => o.wf
  | .cancel o _ => o.wf
  | .release o _ => o.wf
  | .draft o _ => o.wf
  | .setprio o _ => o.wf
  | .reward o _ => o.wf
  | .environmentMessage qp _ _ => decide (qp < 16384)
  | .qpError qp => decide (qp < 16384)
  | .budgetRefill _ => true
  | .parkAfterExpiry slot _ => decide (slot < 16384)
  | .parkedExpiry slot _ => decide (slot < 16384)
  | .shipAccept side => side.wf
  | .shipCopyComplete slot tgtSlot => decide (slot < 16384) && decide (tgtSlot < 16384)
  | .shipRefused slot _ => decide (slot < 16384)
  | .shipRetry slot _ => decide (slot < 16384)
  | .shipDeadline slot _ => decide (slot < 16384)
  | .spillComplete part => decide (part < 32)
  | .reqLastRejClear w _ => w.wf
  | .updateProgramStart hamlet _ => decide (hamlet < 128)
  | .uopLdt hamlet _ => decide (hamlet < 128)
  | .uopStt hamlet => decide (hamlet < 128)
  | .uopLdh hamlet => decide (hamlet < 128)
  | .uopAdd hamlet => decide (hamlet < 128)
  | .uopSub hamlet => decide (hamlet < 128)
  | .uopMul hamlet => decide (hamlet < 128)
  | .uopFma hamlet => decide (hamlet < 128)
  | .uopMin hamlet => decide (hamlet < 128)
  | .uopMax hamlet => decide (hamlet < 128)
  | .uopRsqrt hamlet => decide (hamlet < 128)
  | .uopRcp hamlet => decide (hamlet < 128)
  | .uopCvtw hamlet => decide (hamlet < 128)
  | .uopNorm hamlet => decide (hamlet < 128)
  | .uopAmax hamlet => decide (hamlet < 128)
  | .uopEnd hamlet => decide (hamlet < 128)
  | .updFaultClear w page _ => w.wf && hamletPage 0x1D page
  | .vote hamlet => decide (hamlet < 128)
  | .epochShardArrive _ _ src => decide (src < 65536)
  | .epochAck _ _ _ => true
  | .epochRecheck _ => true
  | .epochLoad w _ => w.wf
  | .epochLoadComplete _ => true
  | .slotBaseWrite w slot _ _ => w.wf && decide (slot < 3)
  | .scrubPass ctrl rows => decide (ctrl < 16) && rows.all (fun r => inTiers r.at_ && r.uncs.all inTiers && r.frames.all (fun f => decide (f < 851968)))
  | .pcRetire w page _ => w.wf && memPage page
  | .map w _ => w.wf
  | .unmap w _ => w.wf
  | .move w _ => w.wf
  | .attr w _ => w.wf
  | .clrcnt w _ => w.wf
  | .farown w _ => w.wf
  | .mapCommandDone => true
  | .migrationComplete vpage => decide (vpage < 2097152)
  | .prefetchEntryStart part => decide (part < 32)
  | .loftRead w _ _ bad => w.wf && decide (bad < 3)
  | .loftWrite w _ => w.wf
  | .loftDelete w _ => w.wf
  | .loftDir w _ => w.wf
  | .loftFetch w _ _ => w.wf
  | .loftCommandDone => true
  | .loftPatrol _ _ => true
  | .loftMemberFail m _ => decide (m < 10)
  | .loftRebuildDone => true
  | .ntmErrClear w page _ => w.wf && memPage page
  | .laneBad port lane => decide (port < 16) && decide (lane < 5)
  | .ylkRetrain w port _ => w.wf && decide (port < 16)
  | .retrainComplete port good => decide (port < 16) && decide (good < 32)
  | .flitReceive port flit _ _ => decide (port < 16) && decide (flit.length = 256)
  | .nak port expected => decide (port < 16) && decide (expected < 1024)
  | .retryLimit port seq => decide (port < 16) && decide (seq < 1024)
  | .load p => p.wf
  | .loadResp p => p.wf && decide (p.data.length = p.len)
  | .store p => p.wf && decide (p.data.length = p.len)
  | .put p => p.wf && decide (p.data.length = p.len)
  | .get p => p.wf
  | .getResp p => p.wf && decide (p.data.length = p.len)
  | .reducePut p => p.wf && decide (p.data.length = p.len)
  | .ack p => p.wf
  | .e2eResend _ vc _ _ => decide (vc < 8)
  | .portDown plane mod => decide (plane < 16) && decide (mod < 65536)
  | .portUp plane mod => decide (plane < 16) && decide (mod < 65536)
  | .d2dLaneRepair die dir => decide (die < 4) && decide (dir < 2)
  | .routerStall page port _ => (hamletPage 0x1F page || dieLevelPage 1 1 page) && decide (port < 35)
  | .firingStart part chain => decide (part < 32) && decide (chain < 4096)
  | .descPut part chain _ mem => decide (part < 32) && decide (chain < 4096) && mem.wf
  | .descGet part chain _ => decide (part < 32) && decide (chain < 4096)
  | .allreduce part chain _ => decide (part < 32) && decide (chain < 4096)
  | .descSignal part chain _ => decide (part < 32) && decide (chain < 4096)
  | .publish part chain _ => decide (part < 32) && decide (chain < 4096)
  | .segmentCombine part chain _ _ => decide (part < 32) && decide (chain < 4096)
  | .descriptorComplete part chain _ => decide (part < 32) && decide (chain < 4096)
  | .penFaultClear w _ => w.wf
  | .groupReform group _ => decide (group < 64)
  | .crierOriginate w _ => w.wf
  | .crierSend => true
  | .suspect p => p.wf
  | .clear p => p.wf
  | .dead p => p.wf
  | .fenceModule p => p.wf
  | .fenceStep p => p.wf
  | .regWrite p => p.wf
  | .census p => p.wf
  | .flr fn => decide (fn < 512)
  | .flrComplete fn => decide (fn < 512)
  | .functionEnable w fn _ => w.wf && decide (fn < 512)
  | .functionDisable w fn _ => w.wf && decide (fn < 512)
  | .ringBaseWrite w addr _ => w.wf && ringReg addr
  | .apertureAccess off _ n data => decide (off < 68719476736) && decide (n ≤ 4096) && decide (data.length ≤ 4096)
  | .vfApertureAccess fn off _ n data => decide (fn < 512) && decide (off < 17179869184) && decide (n ≤ 4096) && decide (data.length ≤ 4096)
  | .create w part _ => w.wf && decide (part < 32)
  | .destroy w part _ => w.wf && decide (part < 32)
  | .destroyProceed part => decide (part < 32)
  | .loadImage w part _ => w.wf && decide (part < 32)
  | .reset w part _ => w.wf && decide (part < 32)
  | .islFreqWrite w page _ => w.wf && hamletPage 0x1B page
  | .boundaryEvaluate hamlet bnd _ _ tA tB => decide (hamlet < 128) && decide (bnd < 18) && tempOk tA && tempOk tB
  | .clampLower hamlet bnd _ _ tA tB => decide (hamlet < 128) && decide (bnd < 18) && tempOk tA && tempOk tB
  | .droopCross hamlet isl _ => decide (hamlet < 128) && decide (isl < 18)
  | .stretchRelease hamlet isl => decide (hamlet < 128) && decide (isl < 18)
  | .escalation hamlet isl => decide (hamlet < 128) && decide (isl < 18)
  | .escalationLower hamlet isl => decide (hamlet < 128) && decide (isl < 18)
  | .islandRestore hamlet isl => decide (hamlet < 128) && decide (isl < 18)
  | .powerSample _ _ => true
  | .capStep => true
  | .thermalLower hamlet isl temp => decide (hamlet < 128) && decide (isl < 18) && tempOk temp
  | .thermalTrip hamlet isl temp => decide (hamlet < 128) && decide (isl < 18) && tempOk temp
  | .refLoss which => decide (which < 2)
  | .coldReset src b => src.wf && b.wf
  | .warmReset src b => src.wf && b.wf
  | .hamletReset w _ => w.wf
  | .bootReady => true
  | .svnCommit w _ => w.wf
  | .bootFailClear w _ => w.wf
  | .liveSwitch w _ => w.wf
  | .liveSwitchComplete bad => (match bad with | none => true | some h => decide (h < 128))
  | .slotExtend w _ => w.wf
  | .ownerEnrol w _ => w.wf
  | .ownerRevoke w _ => w.wf
  | .getVersion req => decide (spdmCode req = 0x84)
  | .capabilities req => decide (spdmCode req = 0xE1)
  | .negotiateAlgorithms req => decide (spdmCode req = 0xE3)
  | .getDigests req => decide (spdmCode req = 0x81)
  | .getCertificate req => decide (spdmCode req = 0x82)
  | .challenge req => decide (spdmCode req = 0x83)
  | .getMeasurements req => decide (spdmCode req = 0xE0)
  | .spdmUnsupported req => !([0x84, 0xE1, 0xE3, 0x81, 0x82, 0x83, 0xE0].contains (spdmCode req))
  | .queryDeviceIdentifiers => true
  | .getFirmwareParameters => true
  | .requestUpdate _ => true
  | .passComponentTable _ => true
  | .updateComponent _ _ => true
  | .requestFirmwareData _ data => decide (data.length ≤ 4096)
  | .transferComplete => true
  | .verifyComplete => true
  | .applyComplete => true
  | .activateFirmware _ => true
  | .getStatus => true
  | .cancelUpdate => true
  | .faultedStepEnd part _ => decide (part < 32)
  | .bbrMirror => true
  | .tileTest hamlet tile _ => decide (hamlet < 128) && decide (tile < 17)
  | .rasLastMmClear w _ => w.wf
  | .heartbeatSend _ => true
  | .heartbeat src mepoch seq => decide (src < 65536) && decide (mepoch < 65536) && decide (seq < 2 ^ 32)
  | .echo src mepoch seq => decide (src < 65536) && decide (mepoch < 65536) && decide (seq < 2 ^ 32)
  | .heartbeatMiss mod _ => decide (mod < 65536)
  | .reportExpiry mod _ => decide (mod < 65536)
  | .selfFence _ => true
  | .mbrIdWrite w _ => w.wf
  | .mbrInit w _ => w.wf
  | .haltSample _ _ _ => true
  | .haltCheckpointDone => true
  | .haltAck w _ => w.wf
  | .haltClear => true
  | .mirrorComplete => true
  | .ckpRecheck _ => true
  | .shardFlushComplete _ _ _ => true
  | .manifestWrite => true
  | .restoreStepDecide _ => true
  | .restoreLoad _ _ _ => true
  | .ckpRestore w _ _ _ => w.wf
  | .counterSelectWrite w addr _ => w.wf && decide (addr < 2 ^ 29)
  | .counterClear w page _ => w.wf && hamletPage 0x1C page
  | .censusStart w _ => w.wf
  | .censusMarker page => pageExists page
  | .censusDone => true
  | .vinLow => true
  | .vinRestore b => b.wf
  | .auxLoss b => b.wf
  | .perst b => b.wf
  | .swapRequest => true
  | .swapCancel b => b.wf
  | .spillRestoreComplete part => decide (part < 32)
  | .ethernetLinkChange port _ => decide (port < 4)
  | .ptpMessage port _ _ _ => decide (port < 4)
  | .referenceClockReturn which => decide (which < 2)
  | .pfcPauseFrame port prio quanta => decide (port < 4) && decide (prio < 8) && decide (quanta < 65536)
  | .pcieLinkTraining width gen numvf => ([1, 2, 4, 8, 16].contains width) && (decide (1 ≤ gen) && decide (gen ≤ 6)) && decide (numvf ≤ 512)

end Sys2Proof
end

