-- ==== Sys2Proof/Machine/Ops.lean ====
section
/-! DEFINITION. The operations that every unit shares: register pages (R54 to R71, R651, R652), interrupts (R67, R68), the
ledger (R72 to R81, R653) and the black-box record (R580 to R586). -/

namespace Sys2Proof.Machine

/-- The outcome type of every meaning. -/
abbrev Res := Host.Outcome State Fault Refusal

/-- The outcome of a command whose operands are well formed; otherwise it is refused by name (log entry 7). -/
@[inline] def checked (i : Instr) (s : State) : Res := if i.wf then .next s else .refused .illFormed

/-- An event that happens only where the rules let it; otherwise nothing changes (log entry 11). -/
def when (c : Bool) (f : State → State) (s : State) : State := if c then f s else s

/-- A word from a number. -/
def w32 (n : Nat) : W32 := BitVec.ofNat 32 n

/-! ### Register addresses (R54, R55) -/

/-- The first address of the page of a register address. -/
def pageOf (a : Nat) : Nat := a / 4096 * 4096

/-- A hub page by its page index. -/
def hubPg (i : Nat) : Nat := i * 4096

/-- A page of a hamlet, module-wide number, by its block code. -/
def hamPg (h blk : Nat) : Nat := (h / 32 + 1) * 0x2000000 + h % 32 * 0x40000 + blk * 4096

/-- A die-level page by its block code. -/
def diePg (d blk : Nat) : Nat := (d + 1) * 0x2000000 + 0x7F * 0x40000 + blk * 4096

abbrev pMod : Nat := 0x000000
abbrev pPwr : Nat := 0x001000
abbrev pHlt : Nat := 0x002000
abbrev pClk : Nat := 0x003000
abbrev pLdg : Nat := 0x010000
abbrev pBbr : Nat := 0x011000
abbrev pBoot : Nat := 0x012000
abbrev pAtt : Nat := 0x013000
abbrev pRas : Nat := 0x014000
abbrev pMcn : Nat := 0x015000
abbrev pMbr : Nat := 0x016000
abbrev pCkp : Nat := 0x017000
abbrev pReq : Nat := 0x020000
abbrev pSmp : Nat := 0x021000
abbrev pEpo : Nat := 0x022000
abbrev pOrc : Nat := 0x024000
abbrev pFtm0 : Nat := 0x038000
abbrev pLft : Nat := 0x040000
abbrev pYlk0 : Nat := 0x050000
abbrev pEth0 : Nat := 0x060000
abbrev pPen : Nat := 0x064000
abbrev pCri : Nat := 0x066000
abbrev pPci : Nat := 0x070000

/-- The page of a function; the PCI page for the PF, origin code 0x200 (R491). -/
def fncPg (n : Nat) : Nat := if n = 0x200 then pPci else hubPg (0x100 + n)

/-- The page of a partition. -/
def prtPg (n : Nat) : Nat := hubPg (0x300 + n)

def tilPg (h t : Nat) : Nat := hamPg h t
def hamPgOf (h : Nat) : Nat := hamPg h 0x18
def atsPg (h : Nat) : Nat := hamPg h 0x19
def hstPg (h : Nat) : Nat := hamPg h 0x1A
def islPg (h : Nat) : Nat := hamPg h 0x1B
def cntPg (h : Nat) : Nat := hamPg h 0x1C
def updPg (h : Nat) : Nat := hamPg h 0x1D
def crtPg (h : Nat) : Nat := hamPg h 0x1E
def netPg (h : Nat) : Nat := hamPg h 0x1F

/-- The NTM page of a near-tier stack (two stacks to a die, R26). -/
def ntmPg (st : Nat) : Nat := diePg (st / 2) (8 + st % 2)

/-- The class of a hub page (R55). -/
def hubClass (i : Nat) : Nat :=
  if i ≤ 3 then i + 1
  else if 0x10 ≤ i ∧ i ≤ 0x17 then i - 0x10 + 5
  else if 0x20 ≤ i ∧ i ≤ 0x22 then i - 0x20 + 0x10
  else if i = 0x24 then 0x13
  else if 0x38 ≤ i ∧ i ≤ 0x3F then 0x14
  else if i = 0x40 then 0x15
  else if 0x50 ≤ i ∧ i ≤ 0x5F then 0x16
  else if 0x60 ≤ i ∧ i ≤ 0x63 then 0x17
  else if i = 0x64 then 0x18
  else if i = 0x66 then 0x19
  else if i = 0x70 then 0x1A
  else if 0x100 ≤ i ∧ i ≤ 0x2FF then 0x1B
  else if 0x300 ≤ i ∧ i ≤ 0x31F then 0x1C
  else 0

/-- PAGE_ID.CLASS of a page, 0 where no page is assigned (R54, R55). -/
def classOf (p : Nat) : Nat :=
  let dom := p >>> 25
  let ham := (p >>> 18) % 128
  let blk := (p >>> 12) % 64
  if dom = 0 then hubClass (p >>> 12)
  else if 4 < dom then 0
  else if ham < 32 then (if blk ≤ 0x10 then 0x40 else if 0x18 ≤ blk ∧ blk ≤ 0x1F then blk + 0x29 else 0)
  else if ham = 127 then (if blk ≤ 2 then blk + 0x50 else if blk = 8 ∨ blk = 9 then 0x53 else 0)
  else 0

/-- The module-wide hamlet of a hamlet page (R54). -/
def hamletOf (p : Nat) : Option Nat :=
  let dom := p >>> 25
  let ham := (p >>> 18) % 128
  if 1 ≤ dom ∧ dom ≤ 4 ∧ ham < 32 then some ((dom - 1) * 32 + ham) else none

/-- PAGE_ID.INSTANCE (its field table). -/
def instanceOf (p : Nat) : Nat :=
  let c := classOf p
  let i := p >>> 12
  match hamletOf p with
  | some h => if c = 0x40 then i % 64 else h
  | none =>
    if c = 0x53 then ((p >>> 25) - 1) * 2 + (i % 64 - 8)
    else if 0x50 ≤ c then (p >>> 25) - 1
    else if c = 0x14 then i - 0x38
    else if c = 0x16 then i - 0x50
    else if c = 0x17 then i - 0x60
    else if c = 0x1B then (i - 0x100) % 256
    else if c = 0x1C then i - 0x300
    else 0

/-- The register at an offset of a page class, if there is one. -/
def findRow (rs : List RegRow) (inst off : Nat) : Option RegRow :=
  match rs with
  | [] => none
  | r :: t =>
    if r.off ≤ off ∧ (off - r.off) % r.st = 0 ∧ (off - r.off) / r.st < r.n ∧ (r.only0 = false ∨ inst = 0) then some r
    else findRow t inst off

/-- The register at a register address, if there is one. -/
def rowAt (a : Nat) : Option RegRow :=
  let p := pageOf a
  let off := a % 4096
  if classOf p = 0 then none
  else if off < 0x28 then findRow regsCommon 0 off
  else findRow (regsOf (classOf p)) (instanceOf p) off

/-- The value a register takes at a reset of its page (R14). OWNER.PARTITION of a PRT page holds its number. -/
def resetOf (a : Nat) : W32 :=
  if a % 4096 = Off.owner ∧ classOf (pageOf a) = 0x1C then w32 (0x3FF + instanceOf (pageOf a) * 1024)
  else match rowAt a with
    | some r => w32 r.reset
    | none => 0

/-- The key of a register: an indexed register has one place for each value of its index. -/
def regKey (s : State) (a : Nat) : Nat :=
  match (rowAt a).bind (·.bank) with
  | some (io, hi, lo) =>
    let ia := pageOf a + io
    a + 0x20000000 * fld (getD s.regs ia (resetOf ia)) hi lo
  | none => a

/-- What a register holds. -/
def reg (s : State) (a : Nat) : W32 := getD s.regs (regKey s a) (resetOf a)

/-- `s` with a register holding `v`. -/
def setReg (s : State) (a : Nat) (v : W32) : State :=
  { s with regs := putDef s.regs (regKey s a) v (resetOf a) }

/-- What an indexed register holds at index `b`. -/
def regAt (s : State) (a b : Nat) : W32 := getD s.regs (a + 0x20000000 * b) (resetOf a)

/-- `s` with an indexed register holding `v` at index `b`. -/
def setRegAt (s : State) (a b : Nat) (v : W32) : State :=
  { s with regs := putDef s.regs (a + 0x20000000 * b) v (resetOf a) }

/-- Bits of a register as a number. -/
def regF (s : State) (a hi lo : Nat) : Nat := fld (reg s a) hi lo

/-- `s` with bits of a register replaced. -/
def setRegF (s : State) (a hi lo v : Nat) : State := setReg s a (setFld (reg s a) hi lo v)

/-- The value of a register pair whose LO stands at `a` and HI at `a + 4`. -/
def pair (s : State) (a : Nat) : Nat := (reg s a).toNat + 2 ^ 32 * (reg s (a + 4)).toNat

/-- The module offset that a register pair's global physical address names (R372). -/
def tableOff (s : State) (a : Nat) : Nat := pair s a % 2 ^ 50

/-- The value of an indexed register pair at index `b`. -/
def pairAt (s : State) (a b : Nat) : Nat := (regAt s a b).toNat + 2 ^ 32 * (regAt s (a + 4) b).toNat

/-- `s` with a register pair holding `v` modulo 2^64. -/
def setPair (s : State) (a v : Nat) : State := setReg (setReg s a (w32 v)) (a + 4) (w32 (v >>> 32))

/-- `s` with an indexed register pair holding `v`. -/
def setPairAt (s : State) (a b v : Nat) : State := setRegAt (setRegAt s a b (w32 v)) (a + 4) b (w32 (v >>> 32))

/-- A saturating count of a register raised by `k`. -/
def bump (s : State) (a k : Nat) : State := setReg s a (w32 (satAdd 32 (reg s a).toNat k))

/-- A saturating count of an indexed register raised by `k`. -/
def bumpAt (s : State) (a b k : Nat) : State := setRegAt s a b (w32 (satAdd 32 (regAt s a b).toNat k))

/-- A saturating count in a field of a register raised by `k`. -/
def bumpF (s : State) (a hi lo k : Nat) : State := setRegF s a hi lo (satAdd (hi + 1 - lo) (regF s a hi lo) k)

/-- A 64-bit count in a register pair raised by `k`, modulo 2^64. -/
def bumpPair (s : State) (a k : Nat) : State := setPair s a (pair s a + k)

/-- `s` with every register of a page at its reset value. -/
def resetPage (s : State) (p : Nat) : State :=
  { s with
    regs := s.regs.filter (fun e => !(p ≤ e.1 % 0x20000000 && e.1 % 0x20000000 < p + 4096)),
    staged := s.staged.filter (fun e => !(p ≤ e.1 % 0x20000000 && e.1 % 0x20000000 < p + 4096)),
    capt := s.capt.filter (fun e => !(p ≤ e.1 % 0x20000000 && e.1 % 0x20000000 < p + 4096)),
    bndStaged := s.bndStaged.filter (fun e => !(p ≤ e.1 % 0x20000000 && e.1 % 0x20000000 < p + 4096)) }

/-! ### Hamlets, streams, tiles, partitions -/

def getHam (s : State) (h : Nat) : Hamlet := getD s.hams h Hamlet.init
def setHam (s : State) (h : Nat) (x : Hamlet) : State := { s with hams := putDef s.hams h x Hamlet.init }
def getStr (s : State) (h t : Nat) : Stream := getD s.streams (h * 16 + t) Stream.init
def setStr (s : State) (h t : Nat) (x : Stream) : State := { s with streams := putDef s.streams (h * 16 + t) x Stream.init }
def getPart (s : State) (p : Nat) : Part := getD s.parts p Part.init
def setPart (s : State) (p : Nat) (x : Part) : State := { s with parts := putDef s.parts p x Part.init }

/-- A hamlet enabled at manufacturing test (R654). -/
def hamletOn (s : State) (h : Nat) : Bool := bit (reg s (pMod + Off.modHmap + 4 * (h / 32))) (h % 32)

/-- The hamlets enabled at manufacturing test, ascending. -/
def hamletsOn (s : State) : List Nat := (List.range 128).filter (hamletOn s)

/-- A page that an access reaches: assigned, and of no disabled hamlet (R56). -/
def pageLive (s : State) (p : Nat) : Bool :=
  decide (classOf p ≠ 0) && (match hamletOf p with | some h => hamletOn s h | none => true)

/-- The state of a physical tile: 0 OK, 1 SUSPECT, 2 RETIRED (R561). -/
def tileSt (s : State) (h t : Nat) : Nat := getD (getHam s h).tstate t 0 % 4

/-- A page of a hamlet or tile that is retired (R66). -/
def pageRetired (s : State) (p : Nat) : Bool :=
  match hamletOf p with
  | some h => (getHam s h).retired || (decide (classOf p = 0x40) && decide (tileSt s h (instanceOf p) = 2))
  | none => false

/-- PAGE_CAP.QUIESCE (R652). -/
def canQuiesce (p : Nat) : Bool :=
  let c := classOf p
  decide (c = 0x40) || decide (c = 0x42) || decide (c = 0x46) || decide (c = 0x47) || decide (c = 0x18) ||
  decide (c = 0x15) || decide (p = pFtm0)

/-- PAGE_ID (R55; MAJOR 1 and MINOR 0, log entry 4). -/
def pageId (p : Nat) : W32 := w32 (classOf p * 2 ^ 24 + instanceOf p * 2 ^ 16 + 0x0100)

/-- PAGE_CAP (R652; BCAST and X_CAPABLE, log entry 5). -/
def pageCap (p : Nat) : W32 :=
  w32 ((if classOf p = 0x44 then 2 ^ 31 else 0) + (if canQuiesce p then 2 ^ 30 else 0) + 2 ^ 29)

/-- PAGE_STAT as it reads: LOCKED copies OWNER.LOCK, QUIESCED reads 1 where QUIESCE is 0 (R652), a retired unit has
STATE 5 (R66). -/
def pageStat (s : State) (p : Nat) : W32 :=
  let v := setBit (reg s (p + Off.pageStat)) 4 (bit (reg s (p + Off.owner)) 31)
  let v := if canQuiesce p then v else setBit v 3 true
  if pageRetired s p then setFld v 2 0 5 else v

/-- PAGE_STAT.STATE set. -/
def setPState (s : State) (p st : Nat) : State := setRegF s (p + Off.pageStat) 2 0 st

/-! ### Interrupts (R67, R68, R492) -/

/-- The page raises an interrupt (R68). -/
def raised (s : State) (p : Nat) : Bool := decide (reg s (p + Off.intStat) &&& reg s (p + Off.intEn) ≠ 0)

/-- The function and MSI-X vector that the page's interrupt goes to (R68, R492). -/
def intTarget (s : State) (p : Nat) : Nat × Nat :=
  let f := regF s (p + Off.owner) 9 0
  let c := classOf p
  if f < 512 then (f, if c = 0x1B then 0 else if c = 0x45 then 2 else 3) else (0x200, c % 31 + 1)

/-- After a change from `s` to `t`: a page that has come to raise its interrupt sends its message (log entry 12). -/
def intEdge (s t : State) (p : Nat) : State :=
  if raised t p && !raised s p then { t with irqs := t.irqs ++ [intTarget t p] } else t

/-- INT_STAT bits set by the unit (R67, R68). -/
def intSet (s : State) (p : Nat) (bits : W32) : State :=
  intEdge s (setReg s (p + Off.intStat) (reg s (p + Off.intStat) ||| bits)) p

/-- One INT_STAT.SRC bit set. -/
def intBit (s : State) (p i : Nat) : State := intSet s p (w32 (2 ^ i))

/-- One more error of a page: ERR_CNT, saturating, and INT_STAT.ERR. -/
def errInc (s : State) (p : Nat) : State := intBit (bump s (p + Off.errCnt) 1) p 31

/-! ### The black-box record (R580 to R586) -/

/-- What a black-box record says beside its sequence number, time and origin (R580, R584). -/
structure Bb where
  cat : Nat
  code : Nat
  flags : Nat := 0
  loc : Nat := 0
  step : Nat := 0
  part : Nat := 0
  cause : Nat := 0
  layer : Nat := 0xFFFF
  op : Nat := 0
  arg0 : Nat := 0
  arg1 : Nat := 0
deriving DecidableEq, Repr

/-- MRAM slots of the black-box record (R581). -/
def bbrSlots : Nat := 4194304

/-- The module's ID (MBR.ID). -/
def modId (s : State) : Nat := regF s (pMbr + Off.mbrId) 15 0

/-- The bytes from 0x1C to 0x3B of a record with fields (R580). -/
def bbBody (b : Bb) : List Byte :=
  bytesOf 8 b.step ++ bytesOf 1 b.part ++ bytesOf 1 b.cause ++ bytesOf 2 b.layer ++ bytesOf 2 b.op ++ bytesOf 2 0 ++
  bytesOf 8 b.arg0 ++ bytesOf 8 b.arg1

/-- One 64-byte record in the next MRAM slot; an unmirrored record that it overwrites is counted (R580 to R582). -/
def bbrRaw (s : State) (b : Bb) (body : List Byte) : State :=
  let seq := (pair s (pBbr + Off.bbrHeadLo) + 1) % 2 ^ 64
  let head := bytesOf 8 seq ++ bytesOf 8 s.time ++ bytesOf 1 b.cat ++ bytesOf 1 b.code ++ bytesOf 1 b.flags ++ bytesOf 1 0 ++
    bytesOf 2 s.mepoch ++ bytesOf 2 (modId s) ++ bytesOf 4 b.loc
  let rec60 := head ++ body
  let mir := pair s (pBbr + Off.bbrMirrorLo)
  let lost := decide (bbrSlots ≤ seq) && (decide (mir = 2 ^ 64 - 1) || decide (mir < seq - bbrSlots))
  let s := { s with mram := wrBytes s.mram (64 * (seq % bbrSlots)) (rec60 ++ bytesOf 4 (crc32 rec60)) }
  let s := setPair s (pBbr + Off.bbrHeadLo) seq
  let s := intBit s pBbr 0
  if lost then intBit (bump s (pBbr + Off.bbrLost) 1) pBbr 1 else s

/-- The GUID of the CPER vendor section in its UEFI byte order (R585). -/
def cperGuid : List Byte :=
  [0x52, 0x1A, 0x3E, 0x7C, 0xD4, 0xB1, 0x0E, 0x4F, 0x9A, 0x61, 0x3B, 0x2D, 0x8E, 0x5F, 0x0C, 0x17]

/-- The CPER severity of a record: 0 recoverable, 1 fatal, 2 corrected, 3 informational (R585). -/
def cperSev (b : Bb) : Nat :=
  if (b.cat = 5 ∧ b.code = 1) ∨ (b.cat = 6 ∧ b.code = 1) then 1
  else if b.cat = 8 then 2
  else if b.cat = 4 ∨ b.cat = 5 then 3
  else 0

/-- VERSION, SVN and DCL of the running component of a TYPE (R529; log entry 4). -/
def fwOf (s : State) (t : Nat) : Nat × Nat × Nat := getD s.fw t (1, 0, 1)

/-- Version of the running management firmware (FWVER of R586). -/
def fwVersion (s : State) : Nat := (fwOf s 1).1

/-- The sum of HAM.FOLD.FOLDS over the module (R586). -/
def foldSum (s : State) : Nat := ((List.range 128).map (fun h => regF s (hamPgOf h + Off.hamFold) 3 0)).foldl (· + ·) 0

/-- The vendor section (R586). -/
def cperVendor (s : State) (b : Bb) (seq : Nat) : List Byte :=
  bytesOf 2 1 ++ bytesOf 2 128 ++ bytesOf 2 (modId s) ++ bytesOf 2 s.mepoch ++ bytesOf 8 s.time ++ bytesOf 1 b.cat ++
  bytesOf 1 b.code ++ bytesOf 1 b.cause ++ bytesOf 1 (classOf b.loc) ++ bytesOf 4 b.loc ++ bytesOf 2 b.layer ++
  bytesOf 2 b.op ++ bytesOf 4 (reg s (pMod + Off.modDcl)).toNat ++ bytesOf 8 b.step ++ bytesOf 8 seq ++ bytesOf 8 b.arg0 ++
  bytesOf 8 b.arg1 ++ bytesOf 4 (if b.loc = 0 then 0 else (reg s (b.loc + Off.errCnt)).toNat) ++ bytesOf 4 (fwVersion s) ++
  bytesOf 2 (regF s (pMod + Off.modGrade) 11 0) ++ bytesOf 2 (foldSum s) ++ bytesOf 4 0 ++
  (Config.publicDigest Config.uds).take 16 ++ List.replicate 32 0

/-- The CPER record: header with one section, one descriptor, the vendor section (R585; the header's other fields follow
the UEFI CPER layout, log entry 13). -/
def cperBytes (s : State) (b : Bb) (seq : Nat) : List Byte :=
  [0x43, 0x50, 0x45, 0x52] ++ bytesOf 2 0x0101 ++ bytesOf 4 0xFFFFFFFF ++ bytesOf 2 1 ++ bytesOf 4 (cperSev b) ++
  bytesOf 4 0 ++ bytesOf 4 328 ++ List.replicate 104 0 ++
  bytesOf 4 200 ++ bytesOf 4 128 ++ bytesOf 2 0x0101 ++ bytesOf 2 0 ++ bytesOf 4 1 ++ cperGuid ++ List.replicate 16 0 ++
  bytesOf 4 (cperSev b) ++ List.replicate 20 0 ++ cperVendor s b seq

/-- The CPER record of a black-box record, in the next slot of the ring (R585); none while the ring is off. -/
def cperAdd (s : State) (b : Bb) (seq : Nat) : State :=
  let k := regF s (pRas + Off.rasCperCfg) 4 0
  if k = 0 ∨ ¬(b.cat = 3 ∨ b.cat = 4 ∨ b.cat = 5 ∨ b.cat = 6 ∨ b.cat = 8) then s
  else
    let n := (reg s (pRas + Off.rasCperHead)).toNat
    let bytes := cperBytes s b seq
    let a := tableOff s (pRas + Off.rasCperBaseLo) + 512 * (n % 2 ^ k)
    let s := { s with mem := wrBytes (zeroRange s.mem a 512) a bytes }
    intBit (setReg s (pRas + Off.rasCperHead) (w32 (n + 1))) pRas 4

/-- A black-box record with fields, and its CPER record (R580, R584, R585). -/
def bbr (s : State) (b : Bb) : State :=
  let s := bbrRaw s b (bbBody b)
  cperAdd s b (pair s (pBbr + Off.bbrHeadLo))

/-- A record that carries 32 raw bytes (R583). -/
def bbrData (s : State) (b : Bb) (d : List Byte) : State := bbrRaw s b ((d ++ List.replicate 32 0).take 32)

/-- The two records of a measurement (R583). -/
def bbrMeasure (s : State) (code slot : Nat) (digest : List Byte) : State :=
  let s := bbrData s { cat := 2, code := code } (bytesOf 1 slot ++ List.replicate 15 0 ++ digest.take 16)
  bbrData s { cat := 2, code := code, flags := 1 } (digest.drop 16)

/-- A measurement slot: slot 0 is fused, the others hold zero until they are written (R533, R541). -/
def measSlot (s : State) (n : Nat) : List Byte := if n = 0 then Config.romDigest else getD s.meas n (List.replicate 48 0)

/-- The layer-1 secret CDI1 (R537). -/
def cdi1 (s : State) : List Byte := hmac384 Config.uds (measSlot s 0 ++ measSlot s 1 ++ measSlot s 2)

/-- The secret CDI2 of the attestation key, which signs for the module (R537, R80). -/
def attKey (s : State) : List Byte :=
  hmac384 (cdi1 s) (measSlot s 3 ++ measSlot s 4 ++ measSlot s 5 ++ bytesOf 4 (reg s (pMod + Off.modDcl)).toNat)

/-- The four records of a seal over the sequence numbers `a` to `b` (R80, R583). -/
def bbrSeal (s : State) (code a b : Nat) (chain : List Byte) : State :=
  let fields := bytesOf 8 a ++ bytesOf 8 b ++ chain ++ bytesOf 8 s.time ++ bytesOf 2 s.mepoch
  let sig := Config.ecdsaSign (attKey s) fields
  let s := bbrData s { cat := 7, code := code } (bytesOf 8 a ++ bytesOf 8 b ++ chain)
  let s := bbrData s { cat := 7, code := code, flags := 1 } (sig.take 32)
  let s := bbrData s { cat := 7, code := code, flags := 1 } ((sig.drop 32).take 32)
  intBit (bbrData s { cat := 7, code := code, flags := 1 } (sig.drop 64)) pLdg 2

/-! ### The ledger (R72 to R81, R653) -/

/-- CLASS of a ledger record (R75). -/
def clsCode : Cls → Nat
  | .m => 0
  | .f => 1
  | .t => 2
  | .d => 3
  | .x => 4

/-- FUNCTION of a ledger record (R75). -/
def ledgerFn (w : Writer) : Nat :=
  match w.cls with
  | .m => 0x200
  | .t => w.fn
  | _ => 0x3FF

/-- Bytes 0x00 to 0x2F of a ledger record (R75). -/
def ledgerBody (s : State) (w : Writer) (seq flags a : Nat) (old new : W32) : List Byte :=
  bytesOf 8 seq ++ bytesOf 8 s.time ++ bytesOf 1 (clsCode w.cls) ++ bytesOf 1 w.path ++ bytesOf 2 (ledgerFn w) ++
  bytesOf 2 w.source ++ bytesOf 1 flags ++ bytesOf 1 0 ++ bytesOf 4 a ++ bytesOf 2 s.mepoch ++ bytesOf 2 0 ++
  bytesOf 4 old.toNat ++ bytesOf 4 new.toNat ++ bytesOf 8 0

/-- Slots of the ledger ring (R79). -/
def ringSlots : Nat := 1048576

/-- A record in its slot of the ring, or in the staging area before the ring exists (R78, R79). -/
def ringPut (s : State) (seq : Nat) (r : List Byte) : State :=
  if s.ledger.ringUp then { s with mem := wrBytes s.mem (tableOff s (pLdg + Off.ldgRingBaseLo) + 64 * (seq % ringSlots)) r }
  else { s with ledger := { s.ledger with staging := s.ledger.staging ++ [r] } }

/-- A record overwritten before it was copied out (LDG.LOST, R653). -/
def ringLost (s : State) (seq : Nat) : Bool :=
  let ack := pair s (pLdg + Off.ldgAckSeqLo)
  decide (s.ledger.first + ringSlots ≤ seq) &&
    (decide ((ack + 1) % 2 ^ 64 = s.ledger.first % 2 ^ 64) || decide (ack < seq - ringSlots))

/-- The page's LEDGER_SEQ and LDG.HEAD_SEQ take the record's number (R73). -/
def ledgerNumber (s : State) (a seq : Nat) : State :=
  setPair (setReg s (pageOf a + Off.ledgerSeq) (w32 seq)) (pLdg + Off.ldgHeadSeqLo) seq

/-- The chain goes on from the record, and the 4,096th makes a seal due (R75, R80). -/
def ledgerChain (s : State) (seq : Nat) (chain : List Byte) : State :=
  { s with ledger := { s.ledger with chain := chain, due := s.ledger.due ++ if seq % 4096 = 4095 then [(seq, chain)] else [] } }

/-- LDG.LOST and its interrupt, and the interrupt of a ring that is three quarters full of records not copied out (R79). -/
def ledgerAlarm (s : State) (seq : Nat) (lost : Bool) : State :=
  let s := if lost then intBit (bump s (pLdg + Off.ldgLost) 1) pLdg 1 else s
  if 786432 ≤ (seq + 2 ^ 64 - pair s (pLdg + Off.ldgAckSeqLo)) % 2 ^ 64 then intBit s pLdg 0 else s

/-- One ledger record for a write that took effect: sequence number, LEDGER_SEQ, HEAD_SEQ, chain, ring, interrupts and the
seal that it makes due (R72 to R75, R79 to R81). -/
def ledgerAdd (s : State) (w : Writer) (flags a : Nat) (old new : W32) : State :=
  let seq := (pair s (pLdg + Off.ldgHeadSeqLo) + 1) % 2 ^ 64
  let body := ledgerBody s w seq flags a old new
  let chain := (sha384 (s.ledger.chain ++ body)).take 16
  ledgerAlarm (ledgerChain (ledgerNumber (ringPut s seq (body ++ chain)) a seq) seq chain) seq (ringLost s seq)

/-- A record where the write changed the value or set a WO field to 1 (R72). -/
def ledgerIf (s : State) (w : Writer) (bcast : Bool) (a : Nat) (old new wo : W32) : State :=
  if old = new ∧ wo = 0 then s
  else ledgerAdd s w ((if bcast then 1 else 0) + (if wo = 0 then 0 else 2)) a old new

/-- The seal of the records since the last one, up to the newest (R80): full at a multiple of 4,096, else partial. -/
def sealTo (s : State) (code last : Nat) (chain : List Byte) : State :=
  let s' := bbrSeal s code s.ledger.unsealed last chain
  { s' with ledger := { s'.ledger with unsealed := last + 1 } }

/-- The oldest seal that is due is written (R80). -/
def sealDue (s : State) : State :=
  match s.ledger.due with
  | [] => s
  | (n, c) :: r => sealTo { s with ledger := { s.ledger with due := r } } 1 n c

/-- Every seal that is due is written, oldest first. -/
def sealAllDue (s : State) : State := s.ledger.due.foldl (fun t _ => sealDue t) s

/-- The partial seal that a HALT fault or an orderly warm reset writes, where a record waits for one (R80). -/
def sealPartial (s : State) : State :=
  let s := sealAllDue s
  let head := pair s (pLdg + Off.ldgHeadSeqLo)
  if (head + 1) % 2 ^ 64 = s.ledger.unsealed % 2 ^ 64 then s else sealTo s 2 head s.ledger.chain

/-! ### Register writes (R57 to R71, R651) -/

/-- A class named in a register's introducing line. -/
def clsBit : Cls → Nat
  | .m => 0
  | .f => 1
  | .t => 2
  | .d => 3
  | .x => 4

/-- Records that the staging area holds (R78). -/
def stagingSize : Nat := 4096

/-- What boot lets through (R534, R535): once READY every write; in RECOVERY only M writes to BOOT and ATT, while the ring or room
in the staging area can take their records, and to LDG once the ring exists; before READY F writes, and M writes to BOOT and ATT
once the ring exists. -/
def bootAdmits (s : State) (w : Writer) (p : Nat) : Bool :=
  let st := reg s (pBoot + Off.bootStat)
  let own := decide (p = pBoot) || decide (p = pAtt)
  if bit st 30 then
    decide (w.cls = .m) && ((own && (s.ledger.ringUp || decide (s.ledger.staging.length < stagingSize))) ||
      (decide (p = pLdg) && s.ledger.ringUp))
  else bit st 31 || decide (w.cls = .f) || (decide (w.cls = .m) && s.ledger.ringUp && own)

/-- The conditions of R70 and R71 on the writer, beside its class. -/
def clsAdmits (s : State) (w : Writer) (a : Nat) (v : W32) : Bool :=
  let own := reg s (pageOf a + Off.owner)
  match w.cls with
  | .m => true
  | .f => !bit own 31 || (decide (a % 4096 = Off.owner) && w.onM && !bit v 31)
  | .t => decide (fld own 9 0 = w.fn) && !bit own 31
  | .d => bit (reg s (pBoot + Off.bootStat)) 29
  | .x => decide (w.mepoch = s.mepoch)

/-- A write is admitted (R70, R71, R535). -/
def admits (s : State) (w : Writer) (r : RegRow) (a : Nat) (v : W32) : Bool :=
  decide (r.wr >>> clsBit w.cls % 2 = 1) && bootAdmits s w (pageOf a) && clsAdmits s w a v

/-- The fields of a write applied to a register: RW bits taken, W1C bits cleared, every other bit kept (R15 to R17). -/
def applyFields (r : RegRow) (old v : W32) : W32 :=
  ((old &&& ~~~(w32 r.rw)) ||| (v &&& w32 r.rw)) &&& ~~~(v &&& w32 r.w1c)

/-- The value that a write of a common header register leaves (R64, R69, R652): ENABLE stays 1 while the unit is not
quiesced, QUIESCE_REQ exists only where PAGE_CAP says so, OWNER by class. -/
def headerVal (s : State) (w : Writer) (a : Nat) (old v new : W32) : W32 :=
  let p := pageOf a
  if a % 4096 = Off.pageCtl then
    let new := if canQuiesce p then new else setBit new 1 false
    if bit old 0 && !bit new 0 && !bit (pageStat s p) 3 then setBit new 0 true else new
  else if a % 4096 = Off.owner then
    match w.cls with
    | .m => new
    | _ => if bit old 31 then setBit old 31 (bit v 31) else setBit new 31 false
  else new

/-- What a register write did: the state, whether it was admitted and applied, the register before and after, and the WO
bits that it set. -/
structure Written where
  st : State
  ok : Bool
  old : W32
  new : W32
  wo : W32
deriving DecidableEq, Repr

/-- A write that had no effect on its register. -/
def Written.none (s : State) : Written := ⟨s, false, 0, 0, 0⟩

/-- The write of the LO register of a pair: both halves in one operation, HI from the staging register, a record for each
half that changes, HI first (R651). -/
def writeLo (s : State) (w : Writer) (a : Nat) (v : W32) : State :=
  let h := a + 4
  let oldL := reg s a
  let oldH := reg s h
  let newH := getD s.staged (regKey s a) oldH
  let k := regKey s a
  let s := setReg (setReg s h newH) a v
  let s := { s with staged := delS s.staged k }
  ledgerIf (ledgerIf s w false h oldH newH 0) w false a oldL v 0

/-- A 4-byte write to a register: R56 (no page), R58 (no register), R66 (retired), R70 and R71 (rejected), R64 and R69
(header rules), R651 (pairs), then the fields and the ledger record. `adj` gives the value the register's own definition
lets the write leave, or none where it refuses the value and counts an error. -/
def writeCore (w : Writer) (a : Nat) (v : W32) (bcast : Bool) (adj : W32 → W32 → Option W32) (s : State) : Written :=
  let p := pageOf a
  if !pageLive s p then .none (errInc s pMod)
  else match rowAt a with
    | none => .none s
    | some r =>
      if pageRetired s p && !(decide (w.cls = .m) && decide (a % 4096 = Off.owner)) then .none s
      else if !admits s w r a v then .none (errInc s p)
      else if r.kind = 2 then ⟨{ s with staged := putS s.staged (regKey s (a - 4)) (v &&& w32 r.rw) }, true, 0, 0, 0⟩
      else if r.kind = 1 then ⟨writeLo s w a (v &&& w32 r.rw), true, reg s a, v &&& w32 r.rw, 0⟩
      else
        let old := reg s a
        let s := if a % 4096 = Off.pageCtl && bit v 3 then setReg s (p + Off.errCnt) 0 else s
        let want := applyFields r old v
        let new := headerVal s w a old v want
        let s := if a % 4096 = Off.pageCtl && bit new 0 && !bit want 0 then errInc s p else s
        match adj old new with
        | none => .none (errInc s p)
        | some new =>
          let wo := v &&& w32 r.wo
          ⟨ledgerIf (setReg s a new) w bcast a old new wo, true, old, new, wo⟩

/-- The write of a register whose every value is allowed. -/
def writePlain (w : Writer) (a : Nat) (v : W32) (s : State) : Written := writeCore w a v false (fun _ n => some n) s

/-- Clearing a fault register's VALID returns its fields to reset (R192, R236, R256, R279, R333, R380, R467, R534, R560):
the write of the register, and the registers that go back with it. -/
def clearValid (w : Writer) (a : Nat) (v : W32) (also : List Nat) (s : State) : State :=
  let x := writeCore w a v false (fun old n => some (if bit old 31 && !bit n 31 then resetOf a else n)) s
  if x.ok && bit x.old 31 && !bit x.new 31 then also.foldl (fun s r => setReg s r (resetOf r)) x.st else x.st

/-- After a write of PAGE_CTL: a fence is pending, the unit quiesces or resumes, is enabled or disabled (R60, R64, R65). -/
def pageCtlAfter (x : Written) (p : Nat) : State :=
  if !x.ok then x.st
  else
    let s := if bit x.wo 2 then setRegF x.st (p + Off.pageStat) 5 5 1 else x.st
    let st := regF s (p + Off.pageStat) 2 0
    if bit x.new 1 && !bit x.old 1 then (if st = 4 then s else setPState s p 2)
    else
      let s := if bit x.old 1 && !bit x.new 1 then setRegF s (p + Off.pageStat) 3 3 0 else s
      if st = 4 then s
      else if bit x.new 1 then (if bit x.old 0 && !bit x.new 0 then setPState s p 0 else s)
      else setPState s p (if bit x.new 0 then 1 else 0)

/-- A write of PAGE_CTL (R60, R64, R65). -/
def pageCtlPut (bcast : Bool) (w : Writer) (p : Nat) (v : W32) (s : State) : State :=
  pageCtlAfter (writeCore w (p + Off.pageCtl) v bcast (fun _ n => some n) s) p

/-- A write of OWNER, which sets INT_STAT.OWNER_CHG where it changes the register (R69). -/
def ownerPut (bcast : Bool) (w : Writer) (p : Nat) (v : W32) (s : State) : State :=
  let x := writeCore w (p + Off.owner) v bcast (fun _ n => some n) s
  if x.ok && decide (x.old ≠ x.new) then intBit x.st p 29 else x.st

/-- A W1C write of INT_STAT while the unit sets the bits `same`, which stay 1 (R67). -/
def intStatPut (bcast : Bool) (w : Writer) (p : Nat) (v same : W32) (s : State) : State :=
  let t := (writeCore w (p + Off.intStat) v bcast (fun old n => some (n ||| (old &&& same))) s).st
  if same = 0 then t else intSet t p same

/-- A write of INT_EN, which may raise the page's interrupt (R68). -/
def intEnPut (bcast : Bool) (w : Writer) (p : Nat) (v : W32) (s : State) : State :=
  let x := writeCore w (p + Off.intEn) v bcast (fun _ n => some n) s
  if x.ok && !raised s p && decide (reg s (p + Off.intStat) &&& x.new ≠ 0) then
    { x.st with irqs := x.st.irqs ++ [intTarget s p] }
  else x.st

/-- A debug write of INT_FORCE sets INT_STAT bits (R68). -/
def intForcePut (bcast : Bool) (w : Writer) (p : Nat) (v : W32) (s : State) : State :=
  let x := writeCore w (p + Off.intForce) v bcast (fun _ n => some n) s
  if x.ok then intSet x.st p x.wo else x.st

/-- The same writes to one page. -/
def pageCtlWrite (w : Writer) (p : Nat) (v : W32) (s : State) : State := pageCtlPut false w p v s
def ownerWrite (w : Writer) (p : Nat) (v : W32) (s : State) : State := ownerPut false w p v s
def intStatWrite (w : Writer) (p : Nat) (v same : W32) (s : State) : State := intStatPut false w p v same s
def intForceWrite (w : Writer) (p : Nat) (v : W32) (s : State) : State := intForcePut false w p v s

end Sys2Proof.Machine
end

