-- ==== Sys2Proof/Machine/Counters.lean ====
section
/-! DEFINITION. Event counters of the CNT pages and the module counters of MCN (R614 to R617). Cycle events, router flits, cache
hits and die-to-die traffic are not counted (log entry 37). -/

namespace Sys2Proof.Machine

/-- A 48-bit counter, LO at `a` of bank `b`, raised by `n` modulo 2^48; OVF sticks when it wraps (R614). The second part says that
OVF came to be set. -/
def cnt48 (s : State) (a b n : Nat) : State × Bool :=
  let hi := regAt s (a + 4) b
  let v := (regAt s a b).toNat + 2 ^ 32 * fld hi 15 0 + n
  let wrap := decide (2 ^ 48 ≤ v)
  let h := w32 (v / 2 ^ 32 % 2 ^ 16)
  (setRegAt (setRegAt s a b (w32 v)) (a + 4) b (setBit h 31 (wrap || bit hi 31)), wrap && !bit hi 31)

/-- The indexes of the selects that count an event: EN set, EVENT the code, and with LAYER_F the layer of the command that causes
it (R615 to R617). `a` is the address of select 0, `b` its bank. -/
def selHits (s : State) (p a b n code : Nat) (layer : Option Nat) : List Nat :=
  s.regs.filterMap (fun e =>
    let k := e.1 - (a + 0x20000000 * b)
    if a + 0x20000000 * b ≤ e.1 ∧ k < 4 * n ∧ bit e.2 31 = true ∧ fld e.2 15 0 = code ∧
       (bit e.2 30 = false ∨ layer = some (regF s (p + Off.cntCtl) 31 16)) then some (k / 4) else none)

/-- A counter of a CNT page raised; an OVF that sets interrupts. -/
def cntUp (p a b n : Nat) (s : State) : State :=
  let x := cnt48 s a b n
  if x.2 then intBit x.1 p 0 else x.1

/-- An event at a physical tile. -/
def countT (s : State) (h q code n : Nat) (layer : Option Nat) : State :=
  let p := cntPg h
  (selHits s p (p + Off.cntTsel) q 64 code layer).foldl (fun s i => cntUp p (p + Off.cntTctrLo + 8 * i) q n s) s

/-- An event of a hamlet. -/
def countH (s : State) (h code n : Nat) (layer : Option Nat) : State :=
  let p := cntPg h
  (selHits s p (p + Off.cntHsel) 0 16 code layer).foldl (fun s i => cntUp p (p + Off.cntHctrLo + 8 * i) 0 n s) s

/-- A module counter raised (MCN.MCTR). -/
def countM (s : State) (i n : Nat) : State := if n = 0 then s else (cnt48 s (pMcn + Off.mcnMctrLo + 8 * i) 0 n).1

end Sys2Proof.Machine
end

