-- ==== Sys2Proof/Machine/Fabric.lean ====
section
/-! DEFINITION. Sending a packet on the fabric: sequence numbers, planes and the record of what is not yet acknowledged
(R424, R427, R432, R433). -/

namespace Sys2Proof.Machine

/-- The module's tray position, from its straps (R631). -/
def trayPos (s : State) : Nat := s.tray

/-- The module ID at a tray position (R430). -/
def trayId (s : State) (pos : Nat) : Nat :=
  let a := if pos < 2 then Off.ylkTrayA else Off.ylkTrayB
  if pos % 2 = 0 then regF s (pYlk0 + a) 15 0 else regF s (pYlk0 + a) 31 16

/-- The plane-table entry of a module (R432). -/
def planeEntry (s : State) (m : Nat) : W32 := rd32 s.mem (pair s (pYlk0 + Off.ylkRtBaseLo) % 2 ^ 50 + 4 * m)

/-- YLK.STAT.STATE of a port: 2 UP and 3 DEGRADED carry traffic. -/
def portState (s : State) (p : Nat) : Nat := regF s (pYlk0 + 4096 * p + Off.ylkStat) 31 29

/-- A plane is live for a destination (R432, R433). -/
def planeLive (s : State) (m p : Nat) : Bool :=
  (decide (portState s p = 2) || decide (portState s p = 3)) && !s.fab.down.contains (p, m)

/-- The planes that may carry traffic to a module and are live. -/
def livePlanes (s : State) (m : Nat) : List Nat := (bitsSet (planeEntry s m) 16).filter (planeLive s m)

/-- The plane of a packet: Ethernet (16) outside the rack; the lowest live plane when ORDERED; else round-robin per
destination; none when no plane is live (R432). -/
def choosePlane (s : State) (m : Nat) (ordered : Bool) : Option Nat :=
  if !bit (planeEntry s m) 31 then some 16
  else
    let l := livePlanes s m
    if ordered then l.head?
    else match l.find? (fun p => decide (getD s.fab.rr m 0 ≤ p)) with | some p => some p | none => l.head?

/-! ### The link layer (R417 to R423) -/

def getLink (s : State) (p : Nat) : Link := getD s.fab.links p Link.init
def setLink (s : State) (p : Nat) (l : Link) : State := { s with fab := { s.fab with links := putDef s.fab.links p l Link.init } }

/-- The packet header (R424); the head count of a requester is 1 (R434). -/
def pktHeader (k : Packet) : List Byte :=
  bytesOf 2 k.dst ++ bytesOf 2 k.src ++ bytesOf 2 k.mepoch ++ bytesOf 1 k.op ++ bytesOf 1 k.flags ++ bytesOf 2 k.len ++ bytesOf 2 1 ++
  bytesOf 1 k.part ++ bytesOf 3 0 ++ bytesOf 4 k.seq ++ bytesOf 4 k.tag ++ bytesOf 8 k.addr

/-- The packet that 32 header bytes and the data after them give. -/
def pktParse (bs : List Byte) (vc port : Nat) : Packet :=
  let f (o n : Nat) : Nat := ofBytes ((bs.drop o).take n)
  let op := f 6 1
  { dst := f 0 2, src := f 2 2, mepoch := f 4 2, op := op, flags := f 7 1, len := f 8 2, part := f 0xC 1 % 32, seq := f 0x10 4,
    tag := f 0x14 4, addr := f 0x18 8, data := if op = 1 ∨ op = 5 then [] else (bs.drop 32).take (f 8 2), vc := vc, port := port }

/-- Bytes in pieces of 248. -/
def chop248 : Nat → List Byte → List (List Byte)
  | 0, _ => []
  | n + 1, d => if d.isEmpty then [] else d.take 248 :: chop248 n (d.drop 248)

/-- The flits of a packet, without their link numbers: SINGLE, or HEAD, BODY and TAIL (R418). -/
def pktFlits (k : Packet) : List Flit :=
  let bs := pktHeader k ++ k.data
  let ps := chop248 (bs.length / 248 + 1) bs
  ps.mapIdx (fun i p => { seq := 0, ack := 0, vc := k.vc, cvc := 0, ccnt := 0,
                          typ := if ps.length = 1 then 4 else if i = 0 then 1 else if i + 1 = ps.length then 3 else 2,
                          payload := p ++ List.replicate (248 - p.length) 0 })

/-- A sender holds a credit for a VC (R422). -/
def hasCredit (l : Link) (vc : Nat) : Bool := decide (0 < getD l.cred vc 0) || (decide (vc < 7) && decide (0 < l.shared))

/-- One credit used. -/
def useCredit (l : Link) (vc : Nat) : Link :=
  let c := getD l.cred vc 0
  if 0 < c then { l with cred := putS l.cred vc (c - 1) } else { l with shared := l.shared - 1 }

/-- Credits come back: a VC's own first, then those that VC0 to VC6 share (log entry 25). -/
def addCredit (l : Link) (vc n : Nat) : Link :=
  let c := getD l.cred vc 0
  let cap := if vc = 7 then 16 else 32
  let own := min n (cap - c)
  { l with cred := putS l.cred vc (c + own), shared := if vc = 7 then l.shared else min 272 (l.shared + (n - own)) }

/-- The VC served next: VC7 first, then VC0 to VC6 round-robin, among those with a flit and a credit (R423). -/
def nextVc (l : Link) : Option Nat :=
  let can (v : Nat) : Bool := l.wait.any (fun f => decide (f.vc = v)) && hasCredit l v
  if can 7 then some 7 else ((List.range 7).map (fun i => (l.turn + i) % 7)).find? can

/-- A list without its first flit of a VC. -/
def dropVc (v : Nat) : List Flit → List Flit
  | [] => []
  | f :: r => if f.vc = v then r else f :: dropVc v r

/-- ACK and returned credits put on a flit that goes out. -/
def stamp (l : Link) (f : Flit) : Link × Flit :=
  match l.owed.find? (fun o => decide (0 < o.2)) with
  | some (v, n) =>
    let k := min 7 n
    ({ l with owed := putDef l.owed v (n - k) 0 }, { f with seq := l.next, ack := (l.exp + 1023) % 1024, cvc := v, ccnt := k })
  | none => (l, { f with seq := l.next, ack := (l.exp + 1023) % 1024 })

/-- A flit on the link. -/
def putFlit (s : State) (p : Nat) (f : Flit) : State := { s with fab := { s.fab with flits := s.fab.flits ++ [(p, f)] } }

/-- Waiting flits go while the port is up, credits last and fewer than 1,023 are unacknowledged (R419, R422). -/
def linkPump (s : State) (p : Nat) : Nat → State
  | 0 => s
  | n + 1 =>
    let l := getLink s p
    if !(decide (portState s p = 2) || decide (portState s p = 3)) || decide (1023 ≤ l.buf.length) then s
    else match nextVc l with
      | none => s
      | some v =>
        match l.wait.find? (fun f => decide (f.vc = v)) with
        | none => s
        | some f =>
          let (l, f) := stamp (useCredit { l with wait := dropVc v l.wait, turn := if v = 7 then l.turn else (v + 1) % 7 } v) f
          linkPump (putFlit (setLink s p { l with next := (l.next + 1) % 1024, buf := l.buf ++ [f] }) p f) p n

/-- Flits of a packet queued on a port and sent as far as may be. -/
def linkSend (s : State) (p : Nat) (k : Packet) : State :=
  let l := getLink s p
  let w := l.wait ++ pktFlits k
  linkPump (setLink s p { l with wait := w }) p w.length

/-- A packet leaves on a plane: 16 for Ethernet. -/
def launch (s : State) (k : Packet) (p : Nat) : State :=
  let k := { k with port := p }
  let s := countM { s with fab := { s.fab with outbox := s.fab.outbox ++ [(p, k)] } } (if p < 16 then 6 else 7) k.data.length
  if p < 16 then linkSend s p k else s

/-- A packet put on its way, if a plane is live for it; 17 says that none is. -/
def emit (s : State) (k : Packet) : State × Nat :=
  match choosePlane s k.dst (k.flags % 2 = 1) with
  | none => (s, 17)
  | some p =>
    (launch { s with fab := { s.fab with rr := if k.flags % 2 = 1 then s.fab.rr else putS s.fab.rr k.dst (p + 1) } } k p, p)

/-- The next end-to-end SEQ of a destination and VC (R424). -/
def takeSeq (s : State) (dst vc : Nat) : State × Nat :=
  let key := dst * 8 + vc
  let seq := getD s.fab.seq key 0
  ({ s with fab := { s.fab with seq := putS s.fab.seq key ((seq + 1) % 2 ^ 32) } }, seq)

/-- A packet sent by this module (R424, R427): its SEQ is the next of its destination and VC, and it stays on record until
it is acknowledged. In QUARANTINE nothing leaves on VC0 to VC6 (R571). -/
def sendPkt (s : State) (dst vc op flags part tag addr len : Nat) (data : List Byte) (o : Owner) : State :=
  if s.quar then s
  else
    let (s, seq) := takeSeq s dst vc
    let k : Packet := { dst := dst, src := modId s, mepoch := s.mepoch, op := op, flags := flags, len := len, part := part,
                        seq := seq, tag := tag, addr := addr, data := data, vc := vc, port := 0 }
    let (s, pl) := emit s k
    { s with fab := { s.fab with unacked := s.fab.unacked ++ [⟨k, s.time, 1, pl, o⟩] } }

/-- An ACK of a packet (R427): SEQ is the packet's, TAG counts one, with bit 31 for a refusal (R429); ADDR names the VC
(log entry 25). -/
def sendAck (s : State) (k : Packet) (refused : Bool) : State :=
  if s.quar then s
  else (emit s { dst := k.src, src := modId s, mepoch := s.mepoch, op := 8, flags := 0, len := 0, part := k.part, seq := k.seq,
                 tag := (if refused then 2 ^ 31 else 0) + 1, addr := k.vc, data := [], vc := 1, port := 0 }).1

/-- Bytes cut into packets of at most 4,096, with their offsets (R454). -/
def packets : Nat → Nat → List Byte → List (Nat × List Byte)
  | 0, _, _ => []
  | n + 1, o, d => if d.isEmpty then [] else (o, d.take 4096) :: packets n (o + 4096) (d.drop 4096)

/-- A span of offsets cut into pieces of at most 4,096. -/
def spans : Nat → Nat → Nat → List (Nat × Nat)
  | 0, _, _ => []
  | k + 1, o, n => if n = 0 then [] else (o, min n 4096) :: spans k (o + 4096) (n - min n 4096)

/-- Bytes stored at another tray position (R430): ORDERED STORE packets. -/
def sendStores (s : State) (pos p off : Nat) (bs : List Byte) (o : Owner) : State :=
  (packets (bs.length / 4096 + 1) off bs).foldl
    (fun s x => sendPkt s (trayId s pos) 0 3 1 p 0 (pos * 2 ^ 50 + x.1) x.2.length x.2 o) s

/-- One request for data, remembered until its answer (R430, R454); a GET carries TAG 0 (R451). -/
def sendWant (s : State) (dst op flags p addr len h to_ : Nat) (o : Owner) : State :=
  if s.quar then s
  else
    let tag := if op = 5 then 0 else s.fab.nextTag
    let s := { s with fab := { s.fab with
      nextTag := if op = 5 then s.fab.nextTag else (tag + 1) % 2 ^ 31,
      wants := s.fab.wants ++ [⟨tag, dst, p, h, to_, len, addr, o⟩] } }
    sendPkt s dst 0 op flags p tag addr len [] o

/-- Bytes loaded from another tray position into a local place (R430): ORDERED LOAD packets. -/
def sendLoads (s : State) (pos p off n h to_ : Nat) (o : Owner) : State :=
  (spans (n / 4096 + 1) 0 n).foldl
    (fun s x => sendWant s (trayId s pos) 1 1 p (pos * 2 ^ 50 + off + x.1) x.2 h (to_ + x.1) o) s

end Sys2Proof.Machine
end

