-- ==== Sys2Proof/Machine/Float.lean ====
section
/-! DEFINITION. The arithmetic of 03_number_formats.md. Every finite FP32 value is a whole number of units of 2^-149, so
sums and products are computed exactly on integers and rounded once, where the spec says (R89, R99). -/

namespace Sys2Proof.Machine

/-- The canonical quiet NaN in FP32 (R97). -/
def nan32 : W32 := 0x7FC00000

/-- An FP32 value: NaN, an infinity, or a sign and a magnitude in units of 2^-149. -/
inductive Fv where
  | nan
  | inf (neg : Bool)
  | fin (neg : Bool) (n : Nat)
deriving DecidableEq, Repr

/-- The value of FP32 bits (IEEE 754-2019 binary32, R82). -/
def dec32 (x : W32) : Fv :=
  let e := fld x 30 23
  let m := fld x 22 0
  let s := bit x 31
  if e = 255 then (if m = 0 then .inf s else .nan)
  else if e = 0 then .fin s m
  else .fin s ((2 ^ 23 + m) <<< (e - 1))

/-- FP32 bits from a sign and the 31 bits of exponent and fraction. -/
def pack32 (neg : Bool) (mag : Nat) : W32 := BitVec.ofNat 32 ((if neg then 2 ^ 31 else 0) + mag)

/-- The infinity of a sign. -/
def inf32 (neg : Bool) : W32 := pack32 neg 0x7F800000

/-- The zero of a sign. -/
def zero32 (neg : Bool) : W32 := pack32 neg 0

/-- The 31 magnitude bits of the FP32 value nearest to `n · 2^-k` (ties to even), where the exact value lies above
`n · 2^-k` by less than one unit when `sticky` holds; overflow gives infinity (R92, R99). `k` is at least 149. -/
def roundMag (n k : Nat) (sticky : Bool) : Nat :=
  if n = 0 then 0
  else
    let d := max (Nat.log2 n + 1 - 24) (k - 149)
    let q := n >>> d
    let r := n % 2 ^ d
    let h := 2 ^ d
    let up := decide (h < 2 * r) || (decide (h = 2 * r) && (sticky || q % 2 = 1))
    min ((d + 149 - k) * 2 ^ 23 + q + (if up then 1 else 0)) 0x7F800000

/-- The FP32 value nearest to the signed exact value `n · 2^-k`; a zero result has the sign `zneg` (R96, R99). -/
def round32 (n : Int) (k : Nat) (zneg : Bool) : W32 :=
  if n = 0 then zero32 zneg else pack32 (decide (n < 0)) (roundMag n.natAbs k false)

/-- The signed number of units of a finite value. -/
def units (neg : Bool) (n : Nat) : Int := if neg then -(n : Int) else n

/-- FP32 addition, rounded once to nearest-even (R99). -/
def fadd (a b : W32) : W32 :=
  match dec32 a, dec32 b with
  | .nan, _ => nan32
  | _, .nan => nan32
  | .inf s, .inf t => if s = t then inf32 s else nan32
  | .inf s, .fin _ _ => inf32 s
  | .fin _ _, .inf t => inf32 t
  | .fin s m, .fin t n => round32 (units s m + units t n) 149 (s && t)

/-- The sign change of a value, exact. -/
def fneg (a : W32) : W32 := a ^^^ 0x80000000

/-- The magnitude of a value: the sign bit of every operand, NaN included, is cleared (R650). -/
def fabs (a : W32) : W32 := a &&& 0x7FFFFFFF

/-- FP32 subtraction (R99). -/
def fsub (a b : W32) : W32 :=
  match dec32 b with
  | .nan => nan32
  | _ => fadd a (fneg b)

/-- FP32 multiplication (R99). -/
def fmul (a b : W32) : W32 :=
  match dec32 a, dec32 b with
  | .nan, _ => nan32
  | _, .nan => nan32
  | .inf s, .inf t => inf32 (s != t)
  | .inf s, .fin t n => if n = 0 then nan32 else inf32 (s != t)
  | .fin s n, .inf t => if n = 0 then nan32 else inf32 (s != t)
  | .fin s m, .fin t n => round32 (units s m * units t n) 298 (s != t)

/-- Fused multiply-add `a · b + c`, rounded once (R99). -/
def ffma (a b c : W32) : W32 :=
  match dec32 a, dec32 b, dec32 c with
  | .nan, _, _ => nan32
  | _, .nan, _ => nan32
  | _, _, .nan => nan32
  | .fin s m, .fin t n, .fin u p =>
    round32 (units s m * units t n + units u p * 2 ^ 149) 298
      (if m = 0 ∨ n = 0 then (s != t) && u else false)
  | .fin _ _, .fin _ _, .inf u => inf32 u
  | .inf s, .inf t, c' => fadd (inf32 (s != t)) (match c' with | .inf u => inf32 u | _ => 0)
  | .inf s, .fin t n, c' =>
    if n = 0 then nan32 else fadd (inf32 (s != t)) (match c' with | .inf u => inf32 u | _ => 0)
  | .fin s n, .inf t, c' =>
    if n = 0 then nan32 else fadd (inf32 (s != t)) (match c' with | .inf u => inf32 u | _ => 0)

/-- A number that orders FP32 values, −0 below +0 (R650). -/
def ordKey (a : W32) : Int := if bit a 31 then -(fld a 30 0 : Int) - 1 else (fld a 30 0 : Int)

/-- Whether bits are a NaN. -/
def isNan (a : W32) : Bool := decide (dec32 a = .nan)

/-- Whether bits are an infinity. -/
def isInf (a : W32) : Bool := decide (fld a 30 0 = 0x7F800000)

/-- Whether bits are a NaN or an infinity (R100). -/
def nonFinite (a : W32) : Bool := decide (fld a 30 23 = 255)

/-- The IEEE 754-2019 maximum (R650). -/
def fmax (a b : W32) : W32 := if isNan a || isNan b then nan32 else if ordKey a < ordKey b then b else a

/-- The IEEE 754-2019 minimum (R650). -/
def fmin (a b : W32) : W32 := if isNan a || isNan b then nan32 else if ordKey b < ordKey a then b else a

/-- The signed units of a value, an infinity beyond every finite one. -/
def cmpKey (a : W32) : Int :=
  match dec32 a with
  | .nan => 0
  | .inf s => units s (2 ^ 300)
  | .fin s n => units s n

/-- `a < b` by value; false when either is NaN. -/
def flt (a b : W32) : Bool := !(isNan a || isNan b) && decide (cmpKey a < cmpKey b)

/-- `a ≤ b` by value; false when either is NaN. -/
def fle (a b : W32) : Bool := !(isNan a || isNan b) && decide (cmpKey a ≤ cmpKey b)

/-- `a = b` by value; false when either is NaN. -/
def feq (a b : W32) : Bool := !(isNan a || isNan b) && decide (cmpKey a = cmpKey b)

/-! ### Special functions (R101) -/

/-- One Newton step after another towards the integer square root, from above. -/
def isqrtFrom : Nat → Nat → Nat → Nat
  | 0, _, x => x
  | k + 1, n, x => let y := (x + n / x) / 2; if y < x then isqrtFrom k n y else x

/-- The integer square root. -/
def isqrt (n : Nat) : Nat := if n = 0 then 0 else isqrtFrom 1000 n (2 ^ (Nat.log2 n / 2 + 1))

/-- The FP32 reciprocal, correctly rounded, with the special cases of R101. -/
def frcp (a : W32) : W32 :=
  match dec32 a with
  | .nan => nan32
  | .inf s => zero32 s
  | .fin s n =>
    if n = 0 then inf32 s
    else pack32 s (roundMag (2 ^ 400 / n) 251 (decide (2 ^ 400 % n ≠ 0)))

/-- The FP32 reciprocal square root, correctly rounded, with the special cases of R101. -/
def frsqrt (a : W32) : W32 :=
  match dec32 a with
  | .nan => nan32
  | .inf s => if s then nan32 else 0
  | .fin s n =>
    if n = 0 then inf32 s
    else if s then nan32
    else
      let v := 2 ^ 649 / n
      let r := isqrt v
      pack32 false (roundMag r 250 (decide (r * r ≠ v ∨ 2 ^ 649 % n ≠ 0)))

/-- ln 2 in units of 2^-320. -/
def ln2Fix : Nat := 0xb17217f7d1cf79abc9e3b39803f2f6af40f343267298b62d8a0d175b8baafa2be7b876206debac98

/-- The Taylor sum of exp in units of 2^-320: `k` further terms after the term `t` of index `j`. -/
def expSeries : Nat → Nat → Nat → Nat → Nat
  | 0, _, _, t => t
  | k + 1, x, j, t => t + expSeries k x (j + 1) (t * x / 2 ^ 320 / (j + 1))

/-- The FP32 value of 2^x, correctly rounded, with the special cases of R101 (log entry 10). -/
def fexp2 (a : W32) : W32 :=
  match dec32 a with
  | .nan => nan32
  | .inf s => if s then 0 else inf32 false
  | .fin s n =>
    let v := units s n
    let i := v / (2 ^ 149 : Int)
    let f := (v % (2 ^ 149 : Int)).toNat
    if 128 ≤ i then inf32 false
    else if i < -160 then 0
    else
      let m := if f = 0 then 2 ^ 320 else expSeries 90 (f * ln2Fix / 2 ^ 149) 0 (2 ^ 320)
      pack32 false (roundMag (m <<< (i + 160).toNat) 480 (decide (f ≠ 0)))

/-- The sum of the series of the inverse hyperbolic tangent in units of 2^-320: `k` terms from the odd power `p` on. -/
def atanhSeries : Nat → Nat → Nat → Nat → Nat
  | 0, _, _, _ => 0
  | k + 1, z2, j, p => p / j + atanhSeries k z2 (j + 2) (p * z2 / 2 ^ 320)

/-- The FP32 value of the natural logarithm, correctly rounded, with the special cases of R101 (log entry 10). -/
def fln (a : W32) : W32 :=
  match dec32 a with
  | .nan => nan32
  | .inf s => if s then nan32 else inf32 false
  | .fin s n =>
    if n = 0 then inf32 true
    else if s then nan32
    else
      let l := Nat.log2 n
      if n = 2 ^ l ∧ l = 149 then 0
      else
        let z := ((n - 2 ^ l) * 2 ^ 320) / (n + 2 ^ l)
        let y := 2 * atanhSeries 110 (z * z / 2 ^ 320) 1 z
        let t : Int := ((l : Int) - 149) * ln2Fix + y
        pack32 (decide (t < 0)) (roundMag t.natAbs 320 true)

/-! ### Element formats, scales and conversion (R82 to R86, R103 to R108) -/

/-- An operand element: NaN, an infinity, or an exact value in units of 2^-16. -/
inductive El where
  | nan
  | inf (neg : Bool)
  | fin (v : Int)
deriving DecidableEq, Repr

/-- Fraction bits of a floating-point element format, by format code (R151). -/
def elMant : Nat → Nat
  | 0 => 1
  | 1 => 3
  | 2 => 2
  | 3 => 3
  | _ => 2

/-- The exponent of the smallest subnormal, negated (R82). -/
def elMin : Nat → Nat
  | 0 => 1
  | 1 => 3
  | 2 => 4
  | 3 => 9
  | _ => 16

/-- The magnitude code of the largest finite value (R82). -/
def elMax : Nat → Nat
  | 0 => 7
  | 1 => 31
  | 2 => 31
  | 3 => 0x7E
  | _ => 0x7B

/-- The largest normal exponent emax (R82); 6 for INT8 by R103. -/
def elEmax : Nat → Nat
  | 0 => 2
  | 1 => 2
  | 2 => 4
  | 3 => 8
  | 4 => 15
  | _ => 6

/-- The element width in bits of a block-scaled format code (R85); 16 for BF16 and 32 for FP32. -/
def elWidth : Nat → Nat
  | 0 => 4
  | 1 => 6
  | 2 => 6
  | 3 => 8
  | 4 => 8
  | 5 => 8
  | 6 => 16
  | _ => 32

/-- Whether a format code is one of the block-scaled formats (R82, R151). -/
def blockFmt (f : Nat) : Bool := decide (f ≤ 5)

/-- The value of an element of a block-scaled format, its scale apart (R82 to R84). -/
def decEl (f c : Nat) : El :=
  if f = 5 then .fin (((if 128 ≤ c % 256 then (c % 256 : Int) - 256 else (c % 256 : Int))) * 2 ^ 16)
  else
    let w := elWidth f
    let mb := elMant f
    let neg := decide (2 ^ (w - 1) ≤ c % 2 ^ w)
    let mag := c % 2 ^ (w - 1)
    if f = 3 ∧ mag = 0x7F then .nan
    else if f = 4 ∧ 0x7C ≤ mag then (if mag = 0x7C then .inf neg else .nan)
    else
      let e := mag >>> mb
      let m := mag % 2 ^ mb
      let u := if e = 0 then m else (2 ^ mb + m) <<< (e - 1)
      .fin (units neg (u <<< (16 - elMin f)))

/-- Whether a value `r` of `2^d` parts above the lower neighbour goes to the upper one: to nearest-even, or with the
stochastic word `m` by R106. -/
def goesUp (sr : Option Nat) (q r d : Nat) : Bool :=
  match sr with
  | none => decide (2 ^ d < 2 * r) || (decide (2 ^ d = 2 * r) && decide (q % 2 = 1))
  | some m => decide ((2 * m + 1) * 2 ^ d < r * 2 ^ 25)

/-- The integer `m` of a KCM output word (R106, R246). -/
def srBits (w : W32) : Nat := fld w 31 8

/-- The magnitude code of a floating-point element for the exact quotient `n · 2^-k` (R104). -/
def encElMag (f : Nat) (n k : Nat) (sr : Option Nat) : Nat :=
  let n' := n <<< 32
  let k' := k + 32
  if n = 0 then 0
  else
    let d := max (Nat.log2 n' - elMant f) (k' - elMin f)
    let q := n' >>> d
    let r := n' % 2 ^ d
    min ((d + elMin f - k') * 2 ^ elMant f + q + (if goesUp sr q r d then 1 else 0)) (elMax f)

/-- The magnitude of an INT8 element for the exact quotient `n · 2^-k` (R104). -/
def encIntMag (n k : Nat) (sr : Option Nat) : Nat :=
  let q := n >>> k
  let r := n % 2 ^ k
  min (q + (if goesUp sr q r k then 1 else 0)) 127

/-- One FP32 value divided by the scale byte `s` and rounded to the element format (R104, R106, R108). -/
def encEl (f s : Nat) (sr : Option Nat) (x : W32) : Nat :=
  match dec32 x with
  | .fin neg n =>
    let w := elWidth f
    if f = 5 then
      let m := encIntMag n (s + 22) sr
      (if neg then 256 - m else m) % 256
    else (if neg then 2 ^ (w - 1) else 0) + encElMag f n (s + 22) sr
  | _ => 0

/-- The scale byte of a block of FP32 values (R103). -/
def scaleByte (f : Nat) (xs : List W32) : Nat :=
  if xs.any nonFinite then 0xFF
  else
    let a := (xs.map (fun x => match dec32 x with | .fin _ n => n | _ => 0)).foldl max 0
    if a = 0 then 0x7F
    else min ((Nat.log2 a + 127) - (149 + elEmax f)) 254

/-- Bits packed from values of `w` bits each, element 0 lowest (R85). -/
def packBits (w : Nat) : List Nat → Nat
  | [] => 0
  | x :: r => x % 2 ^ w + 2 ^ w * packBits w r

/-- A block of FP32 values converted to a block-scaled format: the scale byte and the element codes (R103, R104). -/
def encBlock (f : Nat) (xs : List W32) (sr : List (Option Nat)) : Nat × List Nat :=
  let s := scaleByte f xs
  if s = 0xFF ∨ xs.all (fun x => decide (fld x 30 0 = 0)) then (s, xs.map (fun _ => 0))
  else (s, (xs.zip sr).map (fun p => encEl f s p.2 p.1))

/-- FP32 to BF16 (R105, R106): the 16 bits. -/
def toBf16 (sr : Option Nat) (x : W32) : Nat :=
  match dec32 x with
  | .nan => 0x7FC0
  | _ =>
    let mag := fld x 30 0
    let q := mag >>> 16
    let r := mag % 2 ^ 16
    (if bit x 31 then 2 ^ 15 else 0) + (if decide (mag = 0x7F800000) then q else q + (if goesUp sr q r 16 then 1 else 0))

/-- BF16 bits as the FP32 value they stand for. -/
def ofBf16 (c : Nat) : W32 := BitVec.ofNat 32 ((c % 2 ^ 16) * 2 ^ 16)

/-! ### Accumulation (R90 to R98) -/

/-- The exact product of two elements, in units of 2^-32; Inf × 0 and NaN operands give NaN (R98). -/
def mulEl (a b : El) : El :=
  match a, b with
  | .nan, _ => .nan
  | _, .nan => .nan
  | .inf s, .inf t => .inf (s != t)
  | .inf s, .fin v => if v = 0 then .nan else .inf (s != decide (v < 0))
  | .fin v, .inf t => if v = 0 then .nan else .inf (t != decide (v < 0))
  | .fin u, .fin v => .fin (u * v)

/-- The exact sum of products in hop order; +Inf with −Inf gives NaN (R90, R98). -/
def addEl (a b : El) : El :=
  match a, b with
  | .nan, _ => .nan
  | _, .nan => .nan
  | .inf s, .inf t => if s = t then .inf s else .nan
  | .inf s, .fin _ => .inf s
  | .fin _, .inf t => .inf t
  | .fin u, .fin v => .fin (u + v)

/-- A zero result is +0 (R96). -/
def plusZero (x : W32) : W32 := if fld x 30 0 = 0 then 0 else x

/-- One block of an MX or INT8 pair applied to the accumulator: the exact block sum, both scales, one rounding
(R90 to R92, R96, R98). -/
def blockStep (acc : W32) (ea eb : Nat) (as bs : List El) : W32 :=
  if ea = 0xFF ∨ eb = 0xFF then nan32
  else
    match (as.zip bs).foldl (fun t p => addEl t (mulEl p.1 p.2)) (.fin 0) with
    | .nan => nan32
    | .inf s => fadd acc (inf32 s)
    | .fin v =>
      match dec32 acc with
      | .nan => nan32
      | .inf s => inf32 s
      | .fin s n =>
        if v = 0 ∧ n = 0 then zero32 s
        else plusZero (round32 (v * 2 ^ (ea + eb) + units s n * 2 ^ 137) 286 false)

/-- The exact product of one BF16 pair added to the accumulator with one rounding (R93, R96). -/
def bf16Step (acc : W32) (a b : Nat) : W32 :=
  let x := ofBf16 a
  let y := ofBf16 b
  let zeroProduct := match dec32 x, dec32 y with
    | .fin _ m, .fin _ n => decide (m = 0 ∨ n = 0)
    | _, _ => false
  if zeroProduct then (match dec32 acc with | .nan => nan32 | _ => acc) else plusZero (ffma x y acc)

end Sys2Proof.Machine
end

