-- ==== Sys2Proof/Machine/Operands.lean ====
section
/-! DEFINITION. Operand forms: the fields of a command word (R147, R150), the address spaces of R188 with the access rules of
R190, R372 to R377 and R386 to R388, and reads and writes through them (R379, R380, R392). -/

namespace Sys2Proof.Machine

/-! ### The command word (R147, R150) -/

def cwOp (w : W128) : Nat := fld w 127 120
def cwClass (w : W128) : Nat := fld w 119 116
def cwLayer (w : W128) : Nat := fld w 115 100
def cwOper (w : W128) : Nat := fld w 99 88
def cwWaitEn (w : W128) : Bool := bit w 87
def cwWaitCtr (w : W128) : Nat := fld w 86 81
/-- The n of the SYNC wait. -/
def cwWaitN (w : W128) : Nat := fld w 80 77 + 1
def cwSigEn (w : W128) : Bool := bit w 76
def cwSigRem (w : W128) : Bool := bit w 75
def cwSigIdx (w : W128) : Nat := fld w 74 69
def cwRchk (w : W128) : Bool := bit w 68

/-- The waits of a WAITN slot: counter and n, where enabled (table of the CTL class). -/
def waitSlot (w : W128) (lo : Nat) : List (Nat × Nat) :=
  if bit w (lo + 15) then [(fld w (lo + 14) (lo + 9), fld w (lo + 8) (lo + 5) + 1)] else []

/-- Every wait of a command: its SYNC wait, and for WAITN its four slots (R150, R155). -/
def waitsOf (w : W128) : List (Nat × Nat) :=
  (if cwWaitEn w then [(cwWaitCtr w, cwWaitN w)] else []) ++
  (if cwClass w = 0 ∧ cwOp w = 2 then waitSlot w 48 ++ waitSlot w 32 ++ waitSlot w 16 ++ waitSlot w 0 else [])

/-- What a counter must hold for the waits that name it (R155). -/
def waitSum (ws : List (Nat × Nat)) (c : Nat) : Nat := ((ws.filter (fun x => x.1 = c)).map (·.2)).foldl (· + ·) 0

/-- The opcodes that a class assigns (R157 to R162). -/
def opAssigned (cls op : Nat) : Bool :=
  match cls with
  | 0 => decide (op ≤ 5)
  | 1 => decide (1 ≤ op) && decide (op ≤ 3)
  | 2 => decide (op = 1)
  | 3 => (decide (1 ≤ op) && decide (op ≤ 8)) || (decide (0x10 ≤ op) && decide (op ≤ 0x18)) ||
      (decide (0x20 ≤ op) && decide (op ≤ 0x23)) || (decide (0x28 ≤ op) && decide (op ≤ 0x2B)) ||
      (decide (0x30 ≤ op) && decide (op ≤ 0x32)) || decide (op = 0x38)
  | 4 => decide (op = 1)
  | 5 => decide (op = 1)
  | 6 => decide (op = 1)
  | 7 => decide (op = 1)
  | _ => false

/-- Command words of a command (R146, the tables of its class). -/
def cmdWords (cls op : Nat) : Nat := if (cls = 1 ∧ op = 1) ∨ (cls = 2 ∧ op = 1) then 2 else 1

/-! ### Where logical work lives (R25, R181 to R185) -/

/-- HAM.TMAP of a logical tile. -/
def tmap (s : State) (h t : Nat) : W32 := reg s (hamPgOf h + Off.hamTmap + 4 * t)

/-- The physical tile that runs a logical tile. -/
def physOf (s : State) (h t : Nat) : Nat := fld (tmap s h t) 4 0

/-- The logical tile is the second of a folded pair. -/
def isSecond (s : State) (h t : Nat) : Bool := bit (tmap s h t) 29

/-- The context key of a logical tile: its physical tile's, or that of the way that backs it (R185). -/
def ctxKey (s : State) (h t : Nat) : Nat :=
  if isSecond s h t then h * 64 + 32 + fld (tmap s h t) 12 8 else h * 64 + physOf s h t

def getTile (s : State) (k : Nat) : Tile := getD s.tiles k Tile.init
def setTile (s : State) (k : Nat) (x : Tile) : State := { s with tiles := putDef s.tiles k x Tile.init }

/-- The hamlet of a partition that runs a logical hamlet. -/
def lhamTo (s : State) (p l : Nat) : Option Nat := (getPart s p).hams.find? (fun h => decide ((getHam s h).lham = l))

/-- The scratch ways of a hamlet, ascending (R399). -/
def scratchWays (s : State) (h : Nat) : List Nat :=
  let mask := reg s (hstPg h + Off.hstWays) &&& ~~~(getHam s h).modeNow &&& ~~~(reg s (hstPg h + Off.hstFoldw))
  bitsSet mask 32

/-! ### Addresses (R188, R372 to R377, R386 to R388, R430) -/

/-- A byte's place, or why an access may not reach it. -/
inductive Loc where
  /-- A module offset of this module's tiers; `vp` is the unified page when the access came through one (R392). -/
  | mem (off : Nat) (vp : Option Nat)
  /-- A byte of a tile context's scratchpad. -/
  | spad (key byte : Nat)
  /-- A byte of a hamlet store. -/
  | store (h byte : Nat)
  /-- A module offset at another tray position (R430). -/
  | remote (pos off : Nat)
  /-- Outside the partition. -/
  | bad
deriving DecidableEq, Repr

def nearEnd : Nat := 0x6000000000
def farBase : Nat := 0x20000000000
def farEnd : Nat := 0x3A000000000
def frameBytes : Nat := 0x200000
def pcBytes : Nat := 0x60000000

/-- The NTM.PC_STAT register of a pseudo-channel (R373). -/
def pcStat (n : Nat) : Nat := ntmPg (n / 32) + Off.ntmPcStat + 4 * (n % 32)

/-- The state of a pseudo-channel: 0 ACTIVE, 1 RETIRING, 2 RETIRED, 3 FAILED. -/
def pcState (s : State) (n : Nat) : Nat := regF s (pcStat n) 31 29

/-- The owner of a pseudo-channel: the module or a partition (R375). -/
def pcOwner (s : State) (n : Nat) : Option Nat := if bit (reg s (pcStat n)) 28 then none else some (regF s (pcStat n) 27 23)

/-- The ownership byte of a far frame (R376). -/
def farOwn (s : State) (f : Nat) : Byte := rdB s.mem (tableOff s (pFtm0 + Off.ftmFownBaseLo) + f)

/-- The map entry of a unified page (R386, R387). -/
def mapEntry (s : State) (u : Nat) : W64 := BitVec.ofNat 64 (rdNat s.mem (tableOff s (pFtm0 + Off.ftmUmapBaseLo) + 8 * u) 8)

/-- `s` with the map entry of a page written. -/
def setMapEntry (s : State) (u : Nat) (e : W64) : State :=
  { s with mem := wrNat s.mem (tableOff s (pFtm0 + Off.ftmUmapBaseLo) + 8 * u) 8 e.toNat }

/-- A partition's unit may make the access at a physical offset (R377). -/
def physOk (s : State) (p off : Nat) (write : Bool) : Bool :=
  if off < nearEnd then decide (pcOwner s (off / pcBytes) = some p)
  else if farBase ≤ off ∧ off < farEnd then
    let o := farOwn s ((off - farBase) / frameBytes)
    bit o 7 && (decide (fld o 4 0 = p) || (bit o 6 && !write))
  else false

/-- The module offset of byte `o` of a mapped page (R388). -/
def pageOff (e : W64) (o : Nat) : Nat := (if bit e 62 then farBase else 0) + fld e 19 0 * frameBytes + o

/-- A partition's unit may make the access through a map entry (R387, R388). -/
def pageOk (e : W64) (p : Nat) (write : Bool) : Bool :=
  bit e 63 && (if bit e 60 then !write else decide (fld e 57 53 = p) && !(write && bit e 61))

/-- Where an address of R188 leads for a unit of hamlet `h` that works for partition `p`. -/
def resolve (s : State) (p h a : Nat) (write : Bool) : Loc :=
  match a >>> 60 % 16 with
  | 0 =>
    let off := a % 2 ^ 50
    let pos := a >>> 50 % 4
    if pos = trayPos s then (if physOk s p off write then .mem off none else .bad)
    else if trayId s pos = 0xFFFE then .bad else .remote pos off
  | 1 =>
    match lhamTo s p (a >>> 26 % 128) with
    | some hh => let t := a >>> 22 % 16; if bit (tmap s hh t) 31 then .spad (ctxKey s hh t) (a % 2 ^ 18) else .bad
    | none => .bad
  | 2 =>
    let o := a % 2 ^ 23
    match (scratchWays s h)[o / 262144]? with
    | some w => .store h (w * 262144 + o % 262144)
    | none => .bad
  | 4 =>
    let v := a % 2 ^ 48
    if v < 0x40000000000 then
      let e := mapEntry s (v / frameBytes)
      if pageOk e p write then .mem (pageOff e (v % frameBytes)) (some (v / frameBytes)) else .bad
    else .bad
  | _ => .bad

/-- A span of addresses cut where an access rule can change: every rule is constant on aligned 256 KiB. -/
def cuts : Nat → Nat → Nat → List (Nat × Nat)
  | 0, _, _ => []
  | k + 1, a, n => if n = 0 then [] else let m := min n (262144 - a % 262144); (a, m) :: cuts k (a + m) (n - m)

/-- The pieces of the span of `n` bytes at `a`. -/
def pieces (a n : Nat) : List (Nat × Nat) := cuts (n / 262144 + 2) a n

/-- The first address of a span that the partition may not access, if any (R190). -/
def spanBad (s : State) (p h a n : Nat) (write : Bool) : Option Nat :=
  ((pieces a n).find? (fun x => decide (resolve s p h x.1 write = .bad) ||
    (match resolve s p h x.1 write with
     | .spad _ b => decide (2 ^ 18 < b + x.2)
     | _ => false))).map (·.1)

/-- The bytes of one piece, from this module's state; bytes of another tray position do not come from here. -/
def locRead (s : State) (l : Loc) (n : Nat) : List Byte :=
  match l with
  | .mem off _ => rdBytes s.mem off n
  | .spad k b => rdBytes (getTile s k).spad b n
  | .store h b => rdBytes (getHam s h).store b n
  | _ => List.replicate n 0

/-- The poison marks that a write of `n` bytes at a module offset leaves: a line covered whole is no longer poisoned (R380). -/
def unpoison (ps : List Nat) (off n : Nat) : List Nat :=
  ps.filter (fun l => !(off ≤ 64 * l && 64 * l + 64 ≤ off + n))

/-- The first poisoned line that a read of `n` bytes at a module offset meets (R380). A FAILED pseudo-channel reads as
poisoned everywhere (R385). -/
def poisoned (s : State) (off n : Nat) : Option Nat :=
  if n = 0 then none
  else if off < nearEnd ∧ pcState s (off / pcBytes) = 3 then some (off / 64 * 64)
  else (s.poison.find? (fun l => decide (off < 64 * l + 64) && decide (64 * l < off + n))).map (64 * ·)

/-- Accesses to a unified page counted: 64-byte lines (R392). -/
def accAdd (s : State) (vp : Option Nat) (off n : Nat) : State :=
  match vp with
  | none => s
  | some u =>
    let a := tableOff s (pFtm0 + Off.ftmAccBaseLo) + 4 * u
    let k := if n = 0 then 0 else (off + n - 1) / 64 - off / 64 + 1
    { s with mem := wrNat s.mem a 4 (satAdd 32 (rdNat s.mem a 4) k) }

/-- Bytes written to this module's memory by offset, counted in MCN.MCTR1 or MCTR3. -/
def memWrite (s : State) (off : Nat) (bs : List Byte) : State :=
  countM { s with mem := wrBytes s.mem off bs, poison := unpoison s.poison off bs.length } (if off < nearEnd then 1 else 3) bs.length

/-- Bytes written to one piece. -/
def locWrite (s : State) (l : Loc) (bs : List Byte) : State :=
  match l with
  | .mem off vp => accAdd (memWrite s off bs) vp off bs.length
  | .spad k b => let t := getTile s k; setTile s k { t with spad := wrBytes t.spad b bs }
  | .store h b => let x := getHam s h; setHam s h { x with store := wrBytes x.store b bs }
  | _ => s

/-- The bytes of a span, as a unit of the partition reads them. -/
def spanRead (s : State) (p h a n : Nat) : List Byte :=
  (pieces a n).flatMap (fun x => locRead s (resolve s p h x.1 false) x.2)

/-- The state after a read of a span: accesses counted (R392), and bytes in MCN.MCTR0 or MCTR2. -/
def spanTouch (s : State) (p h a n : Nat) : State :=
  (pieces a n).foldl (fun s x => match resolve s p h x.1 false with
    | .mem off vp => countM (accAdd s vp off x.2) (if off < nearEnd then 0 else 2) x.2
    | _ => s) s

/-- The first poisoned line that a read of a span meets (R380). -/
def spanPoison (s : State) (p h a n : Nat) : Option Nat :=
  (pieces a n).findSome? (fun x => match resolve s p h x.1 false with | .mem off _ => poisoned s off x.2 | _ => none)

/-- Pieces written one after the other. -/
def piecesWrite (s : State) (p h : Nat) (ps : List (Nat × Nat)) (bs : List Byte) : State :=
  match ps with
  | [] => s
  | x :: r => piecesWrite (locWrite s (resolve s p h x.1 true) (bs.take x.2)) p h r (bs.drop x.2)

/-- A span written. -/
def spanWrite (s : State) (p h a : Nat) (bs : List Byte) : State := piecesWrite s p h (pieces a bs.length) bs

/-! ### Epoch slots (R346, R356, R358, R381) -/

def slotStat (n : Nat) : Nat := pEpo + Off.epoSStat + 16 * n
def slotEpoch (n : Nat) : Nat := pEpo + Off.epoSEpoch + 16 * n
/-- The state code of a slot (R346). -/
def slotSt (s : State) (n : Nat) : Nat := regF s (slotStat n) 31 29
def setSlotSt (s : State) (n st : Nat) : State := setRegF s (slotStat n) 31 29 st
def getSlot (s : State) (n : Nat) : EpSlot := getD s.slots n EpSlot.init
def setSlot (s : State) (n : Nat) (x : EpSlot) : State := { s with slots := putDef s.slots n x EpSlot.init }
/-- The first unified page of a slot and how many it has. -/
def slotBase (s : State) (n : Nat) : Nat := regF s (pEpo + Off.epoSBase + 16 * n) 26 0
def slotSize (s : State) (n : Nat) : Nat := regF s (pEpo + Off.epoSSize + 16 * n) 15 0

/-- The current epoch of a partition; 0xFFFFFFFF for none (R361). -/
def curEpoch (s : State) (p : Nat) : Nat := (regAt s (pEpo + Off.epoPCur) p).toNat

/-- An acknowledgement of an epoch to a publisher (R353, R356). -/
def epochAckTo (s : State) (epoch : Nat) (pos : Bool) (src : Nat) : State :=
  sendPkt s src 4 4 0 0 0 (0x3FD * 2 ^ 48) 8 (bytesOf 4 epoch ++ bytesOf 4 (if pos then 1 else 0)) .none

/-- The steps since the last clean pass are suspect: a MISMATCH record names the first and the last (R358, R563). -/
def suspectSteps (s : State) (n : Nat) : State :=
  let e := (reg s (slotEpoch n)).toNat
  ((List.range 32).filter (fun p => decide (curEpoch s p = e) && decide ((getPart s p).st ≠ .free))).foldl (fun s p =>
    let x := getPart s p
    bbr s { cat := 8, code := 4, loc := pEpo, step := x.step, part := p, arg0 := x.cleanStep + 1, arg1 := x.step }) s

/-- A slot becomes BAD: cause 1 arrival, 2 recheck, 3 poison (R354 to R356, R358, R381, R584). -/
def slotBad (s : State) (n cause : Nat) : State :=
  let e := (reg s (slotEpoch n)).toNat
  let loading := decide (slotSt s n = 1)
  let s := setSlotSt s n 4
  let s := bbr s { cat := 3, code := 6, cause := cause, loc := pEpo, arg0 := e, arg1 := n }
  let s := intBit s pEpo 1
  let s := if cause = 1 then s else suspectSteps (if cause = 2 then intBit s pEpo 3 else s) n
  if loading then (getSlot s n).srcs.foldl (fun s m => epochAckTo s e false m) s else s

/-- The unified pages that are mapped, with tier and frame: the entries whose VALID byte memory lists. -/
def mapped (s : State) : List (Nat × Nat × Nat) :=
  let b := tableOff s (pFtm0 + Off.ftmUmapBaseLo)
  (s.mem.filter (fun c => decide (b ≤ c.1) && decide (c.1 < b + 8 * 2 ^ 21) && decide ((c.1 - b) % 8 = 7) && bit c.2 7)).map
    (fun c => let u := (c.1 - b) / 8; let e := mapEntry s u; (u, fld e 62 62, fld e 19 0))

/-- Tier and frame of a module offset (R373, R374). -/
def frameAt (off : Nat) : Nat × Nat := if off < nearEnd then (0, off / frameBytes) else (1, (off - farBase) / frameBytes)

/-- A slot that holds a poisoned line becomes BAD (R381). -/
def poisonSlots (s : State) (off : Nat) : State :=
  let f := frameAt off
  let pages := ((mapped s).filter (fun x => decide (x.2 = f))).map (·.1)
  ((List.range 3).filter (fun n => (decide (slotSt s n = 1) || decide (slotSt s n = 2) || decide (slotSt s n = 3)) &&
    pages.any (fun u => decide (slotBase s n ≤ u) && decide (u < slotBase s n + slotSize s n)))).foldl (fun s n => slotBad s n 3) s

/-! ### Memory errors (R379, R380, R400) -/

/-- The page and first register of the controller of a module offset: NTM or FTM (R373, R374). -/
def ctrlPage (off : Nat) : Nat :=
  if off < nearEnd then ntmPg (off / pcBytes / 32) else pFtm0 + 4096 * ((off - farBase) / 4096 % 8)

/-- A controller's register by its NTM and FTM offsets. -/
def ctrlReg (off ntm ftm : Nat) : Nat := ctrlPage off + (if off < nearEnd then ntm else ftm)

/-- A corrected line (R379). -/
def eccCorr (s : State) (off : Nat) : State := bump s (ctrlReg off Off.ntmEccCorr Off.ftmEccCorr) 1

/-- An uncorrectable line: poisoned, counted, the first recorded, black-box record (R380). -/
def eccUnc (s : State) (off : Nat) : State :=
  let l := off / 64
  let s := bbr s { cat := 3, code := 4, cause := 1, loc := ctrlPage off, arg0 := off / 64 * 64,
                   arg1 := if off < nearEnd then off / pcBytes else (off - farBase) / frameBytes }
  let s := { s with poison := if s.poison.contains l then s.poison else (s.poison.filter (· < l)) ++ [l] ++ s.poison.filter (l < ·) }
  let s := bump s (ctrlReg off Off.ntmEccUncorr Off.ftmEccUncorr) 1
  let hi := ctrlReg off Off.ntmErrAddrHi Off.ftmErrAddrHi
  let s := if bit (reg s hi) 31 then s
    else setReg (setReg s (ctrlReg off Off.ntmErrAddrLo Off.ftmErrAddrLo) (w32 (l * 64))) hi
      (setBit (w32 (l * 64 / 2 ^ 32 % 2 ^ 18)) 31 true)
  poisonSlots (intBit s (ctrlPage off) 0) off

/-- An error of the hamlet store at a byte offset: corrected, or uncorrectable in a cache way (the line is read again) or
in a scratch or folded-tile way (it faults the job) (R400). -/
def hstErr (s : State) (h o : Nat) (unc : Bool) : State :=
  let p := hstPg h
  let way := o / 262144
  if !unc then countH (intBit (bumpF s (p + Off.hstEcc) 15 0 1) p 0) h 0x8004 1 none
  else
    let s := intBit (bumpF s (p + Off.hstEcc) 31 16 1) p 1
    let folded := bit (reg s (p + Off.hstFoldw)) way
    if bit (getHam s h).modeNow way && !folded then bump s (p + Off.hstInval) 1
    else if bit (reg s (p + Off.hstEaddr)) 31 then s
    else setReg s (p + Off.hstEaddr) (setBit (w32 (o / 8 * 8 % 2 ^ 23)) 31 true)

/-- A hamlet-store error faults the job: an uncorrectable word of a scratch or folded-tile way (R400). -/
def hstFaults (s : State) (h : Nat) (e : Option (Nat × Bool)) : Bool :=
  match e with
  | some (o, true) => !bit (getHam s h).modeNow (o / 262144) || bit (reg s (hstPg h + Off.hstFoldw)) (o / 262144)
  | _ => false

/-- The address, as R188 writes it, of the word of the hamlet store in error: a byte of a scratch way, or of the scratchpad of
the logical tile that a way backs. -/
def hstAddr (s : State) (h : Nat) (e : Option (Nat × Bool)) : Nat :=
  match e with
  | some (o, _) =>
    let w := o / 262144
    let at_ := o % 262144 / 8 * 8
    match (scratchWays s h).findIdx? (fun v => decide (v = w)) with
    | some i => 2 * 2 ^ 60 + i * 262144 + at_
    | none =>
      match (List.range 16).find? (fun t => bit (tmap s h t) 29 && decide (fld (tmap s h t) 12 8 = w)) with
      | some t => 2 ^ 60 + (getHam s h).lham * 2 ^ 26 + t * 2 ^ 22 + at_
      | none => 0
  | none => 0

/-- The errors that the reads of a job meet, taken into the controllers' and the store's registers. -/
def memErrs (s : State) (h : Nat) (m : MemOutcome) : State :=
  let s := m.corr.foldl eccCorr s
  let s := match m.unc with | some a => eccUnc s a | none => s
  match m.hst with | some (o, u) => hstErr s h o u | none => s

end Sys2Proof.Machine
end

