-- ==== Sys2Proof/Machine/Flags.lean ====
section
/-! DEFINITION. Status flags and what sets them: tile states (R561, R562), non-finite flags (R100, R144), range checks
(R139 to R141), tile and step faults (R133, R165, R549, R550), sync counters and signals (R166 to R173), port-engine
counters (R442, R443, R467). -/

namespace Sys2Proof.Machine

/-! ### Tile states (R561, R562) -/

/-- Module-wide number of a physical tile in records (R584). -/
def tileNo (h t : Nat) : Nat := h * 17 + t

/-- `s` with the state and the passes of a physical tile set; RAS.STAT counts and the record follow (R584). -/
def setTileSt (s : State) (h t st passes : Nat) : State :=
  let x := getHam s h
  let old := getD x.tstate t 0 % 4
  let s := setHam s h { x with tstate := putDef x.tstate t (st + 4 * passes) 0 }
  if old = st then s
  else
    let s := bbr s { cat := 8, code := 5, cause := st, loc := tilPg h t, arg0 := tileNo h t, arg1 := passes }
    let a := pRas + Off.rasStat
    let s := if st = 1 then intBit (setRegF s a 23 12 (regF s a 23 12 + 1)) pRas 1 else s
    let s := if old = 1 then setRegF s a 23 12 (regF s a 23 12 - 1) else s
    if st = 2 then intBit (setRegF s a 11 0 (regF s a 11 0 + 1)) pRas 2 else s

/-- An event that makes an OK tile SUSPECT and retires a SUSPECT one (R562). -/
def tileBad (s : State) (h t : Nat) : State :=
  match tileSt s h t with
  | 0 => setTileSt s h t 1 0
  | 1 => setTileSt s h t 2 0
  | _ => s

/-! ### Non-finite flags (R100, R144) -/

/-- The NF register of a logical tile's stream. -/
def nfReg (s : State) (h t : Nat) : Nat :=
  tilPg h (physOf s h t) + (if isSecond s h t then Off.tilNfB else Off.tilNfA)

/-- The sticky non-finite flag of a stream set by a command; the first since it was 0 is recorded (R100, R144). -/
def setNf (s : State) (h t layer op : Nat) : State :=
  let a := nfReg s h t
  if bit (reg s a) 31 then s
  else intBit (setReg s a (w32 (2 ^ 31 + layer * 2 ^ 12 + op))) (tilPg h (physOf s h t)) 0

/-- The flag is set where a result is a NaN or an Inf (R100). -/
def nfCheck (s : State) (h t layer op : Nat) (vs : List W32) : State := if vs.any nonFinite then setNf s h t layer op else s

/-! ### Range checks (R139 to R141, R143) -/

/-- The bounds entry a command checks against: the lowest whose layer is the command's and whose action is not OFF. -/
def boundsFor (s : State) (p layer : Nat) : Option Nat :=
  (List.range 64).find? (fun i =>
    decide (fld (regAt s (p + Off.tilBndKey) i) 15 0 = layer) && decide (fld (regAt s (p + Off.tilBndKey) i) 31 30 ≠ 0))

/-- A value fails: below LO or above HI; NaN never does (R139). -/
def rangeFails (lo hi v : W32) : Bool := flt v lo || flt hi v

/-- Range failures of a command's values, counted, the first recorded, and the entry's action (R140). -/
def rangeCheck (s : State) (h t layer op : Nat) (vs : List W32) : State :=
  let p := tilPg h (physOf s h t)
  match boundsFor s p layer with
  | none => s
  | some i =>
    let bad := vs.filter (rangeFails (regAt s (p + Off.tilBndLo) i) (regAt s (p + Off.tilBndHi) i))
    match bad with
    | [] => s
    | v :: _ =>
      let act := fld (regAt s (p + Off.tilBndKey) i) 31 30
      let first := decide (reg s (p + Off.tilRngCnt) = 0)
      let s := bump s (p + Off.tilRngCnt) bad.length
      let s := if first then setReg (setReg s (p + Off.tilRngLoc) (w32 (i * 2 ^ 26 + op))) (p + Off.tilRngVal) v else s
      if act ≤ 1 then s
      else
        let s := intBit s p 1
        let s := bbr s { cat := 8, code := 3, cause := act, loc := p, layer := layer, op := op,
                         arg0 := tileNo h (physOf s h t), arg1 := v.toNat }
        let s := tileBad s h (physOf s h t)
        if act = 3 then setNf s h t layer op else s

/-! ### Faulted steps (R549, R550) -/

/-- The step in flight of a partition is faulted; the first cause is kept (R549, R550). -/
def faultStep (s : State) (p : Nat) (c : Cause) : State :=
  let x := getPart s p
  if (x.inStep || x.placing) && x.cause.isNone then setPart s p { x with cause := some c } else s

/-- TIL.CMD_STAT of a physical tile as it reads: command words held and the last operator (R177, log entry 14). -/
def cmdStat (s : State) (h t : Nat) : W32 :=
  let on := (List.range 16).filter (fun l => bit (tmap s h l) 31 && decide (physOf s h l = t))
  let cap := if 2 ≤ on.length then 2048 else 4096
  let held (l : Nat) : Nat :=
    let x := getStr s h l
    match x.phase with
    | .prologue => min cap (x.proLen - x.pos)
    | .body => min cap (x.bodyLen - x.pos)
    | _ => 0
  let last := match on with | l :: _ => (getStr s h l).lastOp | [] => 0
  w32 (((on.map held).foldl (· + ·) 0) * 2 ^ 16 + last)

/-- A stream of a tile stops and its tile enters FAULT (R133, R165, R169); the step is faulted (R549). -/
def tileFault (s : State) (h t srcBit arg0 arg1 layer op : Nat) : State :=
  let p := tilPg h (physOf s h t)
  let x := getStr s h t
  let s := setStr s h t { x with phase := .stopped }
  let s := intBit (setPState s p 4) p srcBit
  match (getHam s h).part with
  | some pt => faultStep s pt { code := 1, loc := p, arg0 := arg0, arg1 := arg1, layer := layer, op := op }
  | none => s

/-! ### Sync counters and signals (R166 to R173, R443) -/

/-- One increment of a sync counter: kept at 65,535 with a fault of the stream that owns it, or counted with its source
(R168, R169, R625). -/
def incSync (s : State) (h t c : Nat) (src : Source) : State :=
  let x := getStr s h t
  let v := getD x.sync c 0
  if v = 65535 then
    tileFault s h t 5 (cmdStat s h (physOf s h t)).toNat 0 0xFFFF x.lastOp
  else
    let s := setStr s h t { x with
      sync := putDef x.sync c (v + 1) 0, srcs := putDef x.srcs c (getD x.srcs c [] ++ [{ src with ord := s.sigOrd }]) [] }
    { s with sigOrd := s.sigOrd + 1 }

/-- A port-engine fault: the chain stops, the first fault is recorded, the step is faulted (R467). -/
def penFault (s : State) (p chain desc cause addr : Nat) : State :=
  let a := pPen + Off.penFault
  let s := if bit (reg s a) 31 then s
    else setPair (setReg s a (w32 (2 ^ 31 + cause * 2 ^ 28 + p * 2 ^ 23 + desc * 2 ^ 12 + chain))) (pPen + Off.penFaultAddrLo) addr
  let s := intBit s pPen 0
  let x := getPart s p
  let s := setPart s p { x with
    firings := x.firings.filter (fun f => decide (f.chain ≠ chain)),
    chainOff := if x.chainOff.contains chain then x.chainOff else x.chainOff ++ [chain] }
  faultStep s p { code := 5, loc := pPen, arg0 := (reg s a).toNat, arg1 := addr, layer := 0xFFFF, op := 0 }

/-- One increment of a port-engine counter; beyond 2^48 − 1 it stays and faults with cause 5 (R442, R443). -/
def penInc (s : State) (p c : Nat) : State :=
  let x := getPart s p
  let v := getD x.pctr c 0
  if v = 2 ^ 48 - 1 then penFault s p 0 0 5 0
  else setPart s p { x with pctr := putDef x.pctr c (v + 1) 0 }

/-- The target of a signal-table entry gets one signal (R170, R443). -/
def signalEntry (s : State) (p : Nat) (e : W32) (src : Source) : State :=
  if bit e 31 then penInc s p (fld e 15 0 % 256)
  else match lhamTo s p (fld e 30 24) with
    | some h => incSync s h (fld e 23 20) (fld e 19 14) src
    | none => s

/-- The signal of a completed command (R150, R168). -/
def signalCmd (s : State) (h t : Nat) (w : W128) : State :=
  if !cwSigEn w then s
  else
    let src : Source := ⟨0, (getHam s h).lham, t, cwLayer w, cwOper w, 0⟩
    if cwSigRem w then
      match (getHam s h).part with
      | some p => signalEntry s p (getD (getStr s h t).sigtab (cwSigIdx w) 0) src
      | none => s
    else incSync s h t (cwSigIdx w) src

end Sys2Proof.Machine
end

