-- ==== Sys2Proof/Machine/Images.lean ====
section
/-! DEFINITION. Schedule images as they lie in near-tier memory: header, section table and the sections' items (R178 to R180,
R187, R444 to R447, R656). -/

namespace Sys2Proof.Machine

/-- A section of an image: its module offset, byte length and item count (R179). -/
structure Section where
  at_ : Nat
  len : Nat
  count : Nat
deriving DecidableEq, Repr

/-- Entries of the section table (NSECT, R178). -/
def imgNsect (s : State) (base : Nat) : Nat := rdNat s.mem (base + 0x10) 4

/-- Entry `i` of the section table starts here (R178). -/
def sectAt (base i : Nat) : Nat := base + 0x100 + 32 * i

/-- The section of a type (R179). -/
def section_ (s : State) (base ty : Nat) : Option Section :=
  ((List.range (imgNsect s base)).find? (fun i => decide (rdNat s.mem (sectAt base i) 2 = ty))).map (fun i =>
    { at_ := base + rdNat s.mem (sectAt base i + 8) 8, len := rdNat s.mem (sectAt base i + 16) 8,
      count := rdNat s.mem (sectAt base i + 4) 4 })

/-- The base of the image that a partition has resident. -/
def resBase (s : State) (p : Nat) : Option Nat :=
  let x := getPart s p
  (x.resident.bind (getS x.images)).map (·.base)

/-- A section of the resident image. -/
def resSection (s : State) (p ty : Nat) : Option Section := (resBase s p).bind (fun b => section_ s b ty)

/-! ### Descriptor lists (R187) -/

/-- The module offset after the list that starts at `a`: `fuel` descriptors at most. -/
def listEnd (m : Memory) : Nat → Nat → Nat
  | 0, a => a
  | k + 1, a => if bit (rdB m (a + 1)) 0 then a + 64 else listEnd m k (a + 64)

/-- The module offset of list `i`: lists follow one another (log entry 16). -/
def listAt (m : Memory) (fuel a : Nat) : Nat → Nat
  | 0 => a
  | i + 1 => listAt m fuel (listEnd m fuel a) i

/-- The module offset of a list of the CART section, where the section has it (R162, R187). -/
def cartList (s : State) (p i : Nat) : Option Nat :=
  (resSection s p 3).bind (fun c => if i < c.count then some (listAt s.mem (c.len / 64 + 1) c.at_ i) else none)

/-! ### Chains (R444 to R447) -/

/-- The module offset of chain `i` of the TRIG section: a header and NDESC descriptors each. -/
def chainFrom (m : Memory) (a : Nat) : Nat → Nat
  | 0 => a
  | i + 1 => chainFrom m (a + 16 + 64 * rdNat m (a + 2) 2) i

/-- Chains of the resident image. -/
def chainCount (s : State) (p : Nat) : Nat := match resSection s p 4 with | some c => c.count | none => 0

/-- The module offset of a chain, where the image has it. -/
def chainAt (s : State) (p i : Nat) : Option Nat :=
  (resSection s p 4).bind (fun c => if i < c.count then some (chainFrom s.mem c.at_ i) else none)

/-- A chain header (table above R445). -/
structure Chain where
  ctr : Nat
  ndesc : Nat
  n : Nat
  zero : Nat
  at_ : Nat
deriving DecidableEq, Repr

def chainHdr (s : State) (p i : Nat) : Option Chain :=
  (chainAt s p i).map (fun a => { ctr := rdNat s.mem a 2, ndesc := rdNat s.mem (a + 2) 2, n := rdNat s.mem (a + 4) 4,
                                  zero := rdNat s.mem (a + 8) 8, at_ := a })

/-- Descriptor `j` of a chain as its 64 bytes (R447). -/
def chainDesc (s : State) (c : Chain) (j : Nat) : BitVec 512 := BitVec.ofNat 512 (rdNat s.mem (c.at_ + 16 + 64 * j) 64)

end Sys2Proof.Machine
end

