-- ==== Sys2Proof/Machine/Kcm.lean ====
section
/-! DEFINITION. The keyed counter mix and what is drawn from it: R238 to R247, R264, and the candidate set, the draw and the
log-probabilities of a token (R250 to R259). -/

namespace Sys2Proof.Machine

/-- Bits rotated left. -/
def rotl (a : W32) (n : Nat) : W32 := a.rotateLeft n

/-- One round of the KCM on the state and the key copies (R238). -/
def kcmRound (ra rb : Nat) (v : W32 × W32 × W32 × W32 × W32 × W32) : W32 × W32 × W32 × W32 × W32 × W32 :=
  let (x0, x1, x2, x3, k0, k1) := v
  let x0 := x0 + x1
  let x3 := rotl (x3 ^^^ x0) ra
  let x2 := x2 + (x3 ^^^ k0)
  let x1 := rotl (x1 ^^^ x2) rb
  let x0 := x0 ^^^ k1
  (x1, x2, x3, x0, k0 + 0xA3C59E61, k1 + 0x5B1DE8A7)

/-- The ten rounds' rotations (tables A and B of R238). -/
def kcmRots : List (Nat × Nat) :=
  [(13, 7), (19, 11), (5, 23), (27, 3), (13, 7), (19, 11), (5, 23), (27, 3), (13, 7), (19, 11)]

/-- The KCM of a key, a stream and a position: y0 to y3 (R238, R239). -/
def kcm (k0 k1 s p0 p1 : W32) : List W32 :=
  let c : W32 := 0x5A17C3E9
  let (x0, x1, x2, x3, _, _) := kcmRots.foldl (fun v r => kcmRound r.1 r.2 v) (p0, p1, s, c, k0, k1)
  [x0 ^^^ p0, x1 ^^^ p1, x2 ^^^ s, x3 ^^^ c]

/-- The KCM at a 64-bit position. -/
def kcmAt (k0 k1 s : W32) (p : Nat) : List W32 := kcm k0 k1 s (BitVec.ofNat 32 p) (BitVec.ofNat 32 (p / 2 ^ 32))

/-- A position moved by `i` within its lane: only the index bits [47:0] count (R244, R264). -/
def posAdd (p i : Nat) : Nat := p / 2 ^ 48 * 2 ^ 48 + (p + i) % 2 ^ 48

/-- The stochastic-rounding word of element `e` from base position `pb` (R264, R265). -/
def srWord (k0 k1 s : W32) (pb e : Nat) : W32 := (kcmAt k0 k1 s (posAdd pb (e / 4))).getD (e % 4) 0

/-- The uniform of an output word as an FP32 value, rounded toward zero (R246, R247). -/
def uniform (y : W32) : W32 :=
  let m := fld y 31 8
  if m < 2 ^ 23 then pack32 false (roundMag ((2 * m + 1) <<< 124) 149 false) else pack32 false (roundMag (m <<< 125) 149 false)

/-- log2 e in FP32 (R252, R257). -/
def log2e : W32 := 0x3FB8AA3B

/-! ### Candidate sets (R250 to R252) -/

/-- A sampling profile (R248). -/
structure Profile where
  invT : W32
  topk : Nat
  flags : Nat
  topp : W32
  allowAt : Nat
  /-- The fields that R248 makes zero are zero. -/
  zeros : Bool
deriving DecidableEq, Repr

def Profile.greedy (p : Profile) : Bool := p.flags % 2 = 1
def Profile.allow (p : Profile) : Bool := p.flags / 2 % 2 = 1
def Profile.useTopp (p : Profile) : Bool := p.flags / 4 % 2 = 1

/-- A profile from its 32 bytes (R248). -/
def Profile.ofBytes (b : List Byte) : Profile :=
  let f (o n : Nat) : Nat := Machine.ofBytes ((b.drop o).take n)
  { invT := BitVec.ofNat 32 (f 0 4), topk := f 4 2, flags := f 6 2, topp := BitVec.ofNat 32 (f 8 4), allowAt := f 16 8,
    zeros := decide (f 12 4 = 0) && decide (f 24 8 = 0) }

/-- A profile keeps to R248. -/
def Profile.ok (p : Profile) : Bool :=
  p.zeros && decide (p.flags < 8) && decide (p.topk ≤ 1024) && decide (p.allowAt % 8 = 0) &&
  (p.greedy || (!nonFinite p.invT && flt 0 p.invT)) &&
  (!p.useTopp || (flt 0 p.topp && fle p.topp 0x3F800000))

/-- A logit by its vocabulary entry. -/
abbrev Scores := List (Nat × W32)

/-- The entries numbered from 0. -/
def numbered (s : List W32) : Scores := (List.range s.length).zip s

/-- The scores x (R250). -/
def scoresX (p : Profile) (s : List W32) : Scores := numbered (if p.greedy then s else s.map (fun v => fmul v p.invT))

/-- Entry `a` ranks above entry `b`: larger value, then lower number (R251, R253). -/
def ranksAbove (a b : Nat × W32) : Bool := flt b.2 a.2 || (feq a.2 b.2 && decide (a.1 < b.1))

/-- The entry that ranks highest. -/
def bestOf : Scores → Option (Nat × W32)
  | [] => none
  | x :: r => match bestOf r with | none => some x | some y => if ranksAbove y x then some y else some x

/-- How many entries rank above an entry. -/
def rankIn (c : Scores) (x : Nat × W32) : Nat := (c.filter (fun y => ranksAbove y x)).length

/-- The k highest-ranked entries (R251). -/
def topK (k : Nat) (c : Scores) : Scores := if k = 0 ∨ c.length ≤ k then c else c.filter (fun x => decide (rankIn c x < k))

/-- The base-2 gap d_v below the maximum m (R252, R257). -/
def gap2 (m v : W32) : W32 := fmul (fsub m v) log2e

/-- floor (x · k) of a non-negative finite FP32 value; a large bound for an infinity. -/
def floorMul (x : W32) (k : Nat) : Nat := match dec32 x with | .fin false n => n * k / 2 ^ 149 | .fin true _ => 0 | _ => 2 ^ 40

/-- The bin and the mass of an entry (R252). -/
def binMass (m v : W32) : Nat × Nat :=
  let d := gap2 m v
  (min 255 (floorMul d 8), floorMul (fexp2 (fneg d)) (2 ^ 24))

/-- The histogram rule (R252): p is an exact FP32 value, so p × T is compared on integers. -/
def histo (pp : W32) (c : Scores) : Scores :=
  match bestOf c with
  | none => c
  | some mx =>
    let bm := c.map (fun x => binMass mx.2 x.2)
    let total := (bm.map (·.2)).foldl (· + ·) 0
    let cum (b : Nat) : Nat := ((bm.filter (fun x => decide (x.1 ≤ b))).map (·.2)).foldl (· + ·) 0
    let pn := match dec32 pp with | .fin _ n => n | _ => 0
    match (List.range 256).find? (fun b => decide (pn * total ≤ cum b * 2 ^ 149)) with
    | none => c
    | some b => c.filter (fun x => decide ((binMass mx.2 x.2).1 ≤ b))

/-- C0: entries above −Inf that the allowed set admits (R251). -/
def candC0 (p : Profile) (allowed : Nat → Bool) (x : Scores) : Scores :=
  x.filter (fun e => decide (e.2 ≠ inf32 true) && (!p.allow || allowed e.1))

/-- The candidate set C (R251). -/
def candSet (p : Profile) (allowed : Nat → Bool) (x : Scores) : Scores :=
  let c1 := topK p.topk (candC0 p allowed x)
  if p.useTopp then histo p.topp c1 else c1

/-- The Gumbel value of an entry (R253). -/
def gumbel (k0 k1 s : W32) (t v : Nat) : W32 :=
  let y := (kcmAt k0 k1 s (t * 2 ^ 20 ||| v)).getD 0 0
  fneg (fln (fneg (fln (uniform y))))

/-- The token drawn from C (R253, R254). -/
def drawFrom (p : Profile) (k0 k1 s : W32) (t : Nat) (c : Scores) : Option Nat :=
  (bestOf (if p.greedy then c else c.map (fun e => (e.1, fadd e.2 (gumbel k0 k1 s t e.1))))).map (·.1)

/-! ### Log-probabilities (R257 to R260) -/

/-- One level of the pairwise tree over a list of lanes (R136). -/
def treeLevel (f : W32 → W32 → W32) : List W32 → List W32
  | a :: b :: r => f a b :: treeLevel f r
  | l => l

/-- The pairwise tree over 128 lanes (R136). -/
def laneTree (f : W32 → W32 → W32) (v : List W32) : W32 :=
  ((List.range 7).foldl (fun l _ => treeLevel f l) v).headD 0

/-- Lists combined lane by lane. -/
def lanes2 (f : W32 → W32 → W32) (a b : List W32) : List W32 := (a.zip b).map (fun p => f p.1 p.2)

/-- A list cut into blocks of 128, the last filled with `d`. -/
def blocks128 (d : W32) : Nat → List W32 → List (List W32)
  | 0, _ => []
  | k + 1, l => (l.take 128 ++ List.replicate (128 - l.length) d) :: blocks128 d k (l.drop 128)

/-- The sum over entries in the fixed order of R257. -/
def sumZ (terms : List W32) : W32 :=
  match blocks128 0 (ceilDiv terms.length 128) terms with
  | [] => 0
  | b :: r => laneTree fadd (r.foldl (lanes2 fadd) b)

/-- The log-probability of token `tok` over the set W with values w (R257); lanes outside W contribute +0. -/
def logProb (v : Nat) (w : Scores) (tok : Nat) : W32 × W32 :=
  let m := (w.map (·.2)).foldl fmax (inf32 true)
  let term (i : Nat) : W32 := match w.find? (fun e => decide (e.1 = i)) with | some e => fexp2 (fneg (gap2 m e.2)) | none => 0
  let z := sumZ ((List.range v).map term)
  let wt := match w.find? (fun e => decide (e.1 = tok)) with | some e => e.2 | none => inf32 true
  (fsub (fsub wt m) (fln z), z)

end Sys2Proof.Machine
end

