-- ==== Sys2Proof/Machine/TileOps.lean ====
section
/-! DEFINITION. What the datapaths of a tile compute: the grid and the matrix-vector path (R85 to R98, R116 to R128, R152 to
R159), the vector unit (R134 to R138, R160, R161, R264) and the rejection of malformed commands (R164). -/

namespace Sys2Proof.Machine

/-! ### Operand tensors (R85, R87, R152, R153) -/

/-- Bytes of a block of 32 elements. -/
def blockBytes (f : Nat) : Nat := 4 * elWidth f

/-- Bytes of the element array of `rows` rows of K elements. -/
def elemBytes (f rows k : Nat) : Nat := if f = 6 then rows * k * 2 else rows * ceilDiv k 32 * blockBytes f

/-- Where the scale array of a tensor starts (R153). -/
def scaleAt (f a rows k : Nat) : Nat := roundUp (a + elemBytes f rows k) 128

/-- The first byte after a tensor, scales included. -/
def tensorEnd (f a rows k : Nat) : Nat :=
  if blockFmt f then scaleAt f a rows k + rows * ceilDiv k 32 else a + elemBytes f rows k

/-- The element values of block `b` of a row whose elements start at `a`; positions at or beyond K are zero (R87). -/
def blockEls (m : Memory) (f a b k : Nat) : List El :=
  let n := rdNat m (a + b * blockBytes f) (blockBytes f)
  (List.range 32).map (fun j => if 32 * b + j < k then decEl f (n >>> (elWidth f * j)) else .fin 0)

/-- A row of an operand: where its elements and its scale bytes start, and in which memories. -/
structure RowRef where
  els : Memory
  at_ : Nat
  scs : Memory
  sc : Nat
  fmt : Nat

/-- Row `i` of a tensor in scratchpad. -/
def rowRef (m : Memory) (f a rows k i : Nat) : RowRef :=
  { els := m, at_ := if f = 6 then a + i * k * 2 else a + i * ceilDiv k 32 * blockBytes f,
    scs := m, sc := scaleAt f a rows k + i * ceilDiv k 32, fmt := f }

/-- The accumulation of two rows over K in hop order from an accumulator (R90 to R95). -/
def dot (x y : RowRef) (k : Nat) (acc : W32) : W32 :=
  if x.fmt = 6 then
    (List.range k).foldl (fun acc i => bf16Step acc (rdNat x.els (x.at_ + 2 * i) 2) (rdNat y.els (y.at_ + 2 * i) 2)) acc
  else
    (List.range (ceilDiv k 32)).foldl (fun acc b =>
      blockStep acc (rdB x.scs (x.sc + b)).toNat (rdB y.scs (y.sc + b)).toNat
        (blockEls x.els x.fmt x.at_ b k) (blockEls y.els y.fmt y.at_ b k)) acc

/-- The operand pairs that the grid and the matrix-vector path accept (R88). -/
def pairOk (a b : Nat) : Bool := (decide (a ≤ 4) && decide (b ≤ 4)) || (decide (a = 5) && decide (b = 5)) || (decide (a = 6) && decide (b = 6))

/-- A problem of the grid: C = A × B + C0 (R116, R121). -/
structure Mma where
  afmt : Nat
  bfmt : Nat
  a : Nat
  b : Nat
  c : Nat
  /-- C0's address, or none for +0. -/
  c0 : Option Nat
  /-- To vector registers. -/
  toRegs : Bool
  m : Nat
  n : Nat
  k : Nat
deriving DecidableEq, Repr

/-- The outputs of a problem, row-major (R116, R118, R154). -/
def mmaVals (sp : Memory) (p : Mma) : List W32 :=
  (List.range (p.m * p.n)).map (fun e =>
    let i := e / p.n
    let j := e % p.n
    let acc := match p.c0 with | some a => rd32 sp (a + 4 * e) | none => 0
    dot (rowRef sp p.afmt p.a p.m p.k i) (rowRef sp p.bfmt p.b p.n p.k j) p.k acc)

/-- A region of scratchpad that a command may not name: misaligned, or ending beyond the scratchpad (R164). -/
def badRegion (a end_ : Nat) : Bool := decide (a % 128 ≠ 0) || decide (0x40000 < end_)

/-- An FP32 output of `n` values that a command may not name (R164). -/
def badOut (toRegs : Bool) (a n : Nat) : Bool :=
  if toRegs then decide (64 < a % 64 + ceilDiv n 128) else badRegion a (a + 4 * n)

/-- A grid problem that the tile rejects (R164). -/
def mmaBad (p : Mma) : Bool :=
  !pairOk p.afmt p.bfmt || decide (p.m = 0) || decide (p.n = 0) || decide (p.k = 0) || decide (65535 < p.m) ||
  decide (65535 < p.n) || badRegion p.a (tensorEnd p.afmt p.a p.m p.k) || badRegion p.b (tensorEnd p.bfmt p.b p.n p.k) ||
  badOut p.toRegs p.c (p.m * p.n) || (match p.c0 with | some a => badRegion a (a + 4 * (p.m * p.n)) | none => false)

/-- The problem of an MMA_FULL command with the stream's parameters (R157). -/
def mmaFull (w x : W128) (param : Nat → W32) : Mma :=
  { afmt := fld w 63 60, bfmt := fld w 59 56, a := fld w 53 36, b := fld w 35 18, c := fld w 17 0,
    c0 := if bit w 55 then some (fld x 65 48) else none, toRegs := bit w 54,
    m := if bit x 106 then (param (fld x 105 102)).toNat else fld x 15 0,
    n := if bit x 111 then (param (fld x 110 107)).toNat else fld x 31 16, k := fld x 47 32 }

/-- The reserved bits of an MMA_FULL extension word are zero (R157). -/
def mmaFullZero (x : W128) : Bool := decide (fld x 101 66 = 0) && decide (fld x 127 112 = 0)

/-- The sub-problems of a packed command, from its table (R158). -/
def mmaSubs (sp : Memory) (w : W128) : List (Mma × Bool) :=
  (List.range (fld w 55 52 + 1)).map (fun i =>
    let e : W128 := BitVec.ofNat 128 (rdNat sp (fld w 51 34 + 16 * i) 16)
    ({ afmt := fld w 63 60, bfmt := fld w 59 56, a := fld e 127 110, b := fld e 109 92, c := fld e 91 74,
       c0 := if bit e 29 then some (fld e 73 56) else none, toRegs := bit e 28, m := fld e 39 35 + 1, n := fld e 34 30 + 1,
       k := fld e 55 40 }, decide (fld e 27 0 = 0)))

/-- A packed command that the tile rejects: `most` sub-problems of at most `side` rows and columns (R121, R158, R164). -/
def packedBad (sp : Memory) (w : W128) (most side : Nat) : Bool :=
  decide (most < fld w 55 52 + 1) || decide (fld w 33 0 ≠ 0) || decide (0x40000 < fld w 51 34 + 16 * (fld w 55 52 + 1)) ||
  (mmaSubs sp w).any (fun e => !e.2 || mmaBad e.1 || decide (side < e.1.m) || decide (side < e.1.n))

/-! ### Tile registers and outputs -/

/-- What a lane of a vector register holds; registers 48 to 63 hold free words after an update job (R326, log entry 8). -/
def vget (t : Tile) (r i : Nat) : W32 :=
  match getS t.vregs (r * 128 + i) with
  | some v => v
  | none => match t.vfree with | some b => if 48 ≤ r then Config.freeWord (b + (r - 48) * 128 + i) else 0 | none => 0

/-- A vector register as its 128 lanes. -/
def vreg (t : Tile) (r : Nat) : List W32 := (List.range 128).map (vget t r)

/-- Lanes of registers from lane number `i` of the whole file on. -/
def vputAt (v : Store W32) (i : Nat) : List W32 → Store W32
  | [] => v
  | x :: r => vputAt (putS v i x) (i + 1) r

/-- `t` with register `r` on holding the values in ascending order, 128 to a register (R154). -/
def vput (t : Tile) (r : Nat) (vs : List W32) : Tile := { t with vregs := vputAt t.vregs (r * 128) vs }

/-- FP32 outputs to vector registers or to scratchpad (R118, R128, R154). -/
def outTo (t : Tile) (toRegs : Bool) (a : Nat) (vs : List W32) : Tile :=
  if toRegs then vput t (a % 64) vs else { t with spad := wr32s t.spad a vs }

/-! ### The matrix-vector path (R125 to R128, R159) -/

/-- The fields of an MV command with the stream's parameters (R159). -/
structure MvCmd where
  wfmt : Nat
  nvec : Nat
  y0 : Option Nat
  toRegs : Bool
  w : Nat
  y : Nat
  rows : Nat
  k : Nat
  xofs : Nat
deriving DecidableEq, Repr

def mvCmd (w x : W128) (param : Nat → W32) : MvCmd :=
  { wfmt := fld w 63 60, nvec := fld w 59 58, y0 := if bit w 57 then some (fld w 19 2) else none, toRegs := bit w 56,
    w := fld w 55 38, y := fld w 37 20,
    rows := if bit x 27 then (param (fld x 31 28)).toNat else fld x 12 0 + 1, k := fld x 26 13 + 1, xofs := fld x 40 32 }

/-- The format that a slot holds at a block offset; a slot that was never loaded holds zeros of the weights' format. -/
def slotFmt (t : Tile) (slot xofs wfmt : Nat) : Nat := getD t.slotF (slot * 512 + xofs) wfmt

/-- The activation vector of a slot (R159). -/
def slotRef (t : Tile) (slot : Nat) (c : MvCmd) : RowRef :=
  let f := slotFmt t slot c.xofs c.wfmt
  { els := t.slotE, at_ := slot * 32768 + c.xofs * blockBytes f, scs := t.slotS, sc := slot * 512 + c.xofs, fmt := f }

/-- A vector that ends beyond its slot (R164). -/
def slotOver (f xofs k : Nat) : Bool :=
  decide (32768 < xofs * blockBytes f + (if f = 6 then 2 * k else ceilDiv k 32 * blockBytes f)) ||
  (blockFmt f && decide (512 < xofs + ceilDiv k 32))

/-- An MV command that the tile rejects (R164). -/
def mvBad (t : Tile) (w x : W128) (c : MvCmd) : Bool :=
  decide (c.nvec = 0) || decide (c.nvec = 3) || decide (fld w 1 0 ≠ 0) || decide (fld x 127 41 ≠ 0) ||
  decide (c.rows = 0) || decide (8192 < c.rows) ||
  (List.range c.nvec).any (fun v => !pairOk c.wfmt (slotFmt t v c.xofs c.wfmt) || slotOver (slotFmt t v c.xofs c.wfmt) c.xofs c.k) ||
  badRegion c.w (tensorEnd c.wfmt c.w c.rows c.k) || badOut c.toRegs c.y (c.rows * c.nvec) ||
  (match c.y0 with | some a => badRegion a (a + 4 * c.rows * c.nvec) | none => false)

/-- The outputs of an MV command: y1, then y2 (R125, R128, R159). -/
def mvVals (t : Tile) (c : MvCmd) : List W32 :=
  (List.range (c.rows * c.nvec)).map (fun e =>
    let v := e / c.rows
    let r := e % c.rows
    let acc := match c.y0 with | some a => rd32 t.spad (a + 4 * e) | none => 0
    dot (rowRef t.spad c.wfmt c.w c.rows c.k r) (slotRef t v c) c.k acc)

/-! ### The vector unit (R134 to R138, R160) -/

/-- The fields of a VEC command (R160). -/
structure VecCmd where
  dst : Nat
  a : Nat
  b : Nat
  c : Nat
  fmt : Nat
  mode : Nat
  imm : W32
deriving DecidableEq, Repr

def vecCmd (w : W128) : VecCmd :=
  { dst := fld w 63 58, a := fld w 57 52, b := fld w 51 46, c := fld w 45 40, fmt := fld w 39 36, mode := fld w 35 32,
    imm := w32 (fld w 31 0) }

/-- SRCB, or IMM in every lane where MODE bit 3 is set. -/
def srcB (t : Tile) (v : VecCmd) : List W32 := if 8 ≤ v.mode then List.replicate 128 v.imm else vreg t v.b

/-- Lanes of one operand mapped. -/
def un (f : W32 → W32) (t : Tile) (v : VecCmd) : List W32 := (vreg t v.a).map f

/-- Lanes of SRCA and SRCB combined. -/
def bin (f : W32 → W32 → W32) (t : Tile) (v : VecCmd) : List W32 := lanes2 f (vreg t v.a) (srcB t v)

/-- Lanes of SRCA, SRCB and SRCC combined. -/
def tri (f : W32 → W32 → W32 → W32) (t : Tile) (v : VecCmd) : List W32 :=
  ((vreg t v.a).zip ((srcB t v).zip (vreg t v.c))).map (fun x => f x.1 x.2.1 x.2.2)

/-- All ones or zero. -/
def boolW (b : Bool) : W32 := if b then 0xFFFFFFFF else 0

/-- The CMP relations: 0 eq, 1 lt, 2 le, 3 unordered. -/
def vcmp (mode : Nat) (a b : W32) : W32 :=
  match mode % 8 with
  | 0 => boolW (feq a b)
  | 1 => boolW (flt a b)
  | 2 => boolW (fle a b)
  | _ => boolW (isNan a || isNan b)

/-- SEL: a lane of SRCA where the mask lane is not zero, else of SRCB (log entry 15). -/
def vsel (a b m : W32) : W32 := if m ≠ 0 then a else b

/-- A shift whose amount is 32 or more gives a free value (log entry 8): `n` numbers the lane's draw. -/
def vshift (f : W32 → Nat → W32) (n : Nat) (a b : W32) : W32 := if b.toNat < 32 then f a b.toNat else Config.freeWord n

/-- The shifts lane by lane, with one free draw a lane from `n` on. -/
def vshifts (f : W32 → Nat → W32) (n : Nat) (t : Tile) (v : VecCmd) : List W32 :=
  ((List.range 128).zip ((vreg t v.a).zip (srcB t v))).map (fun x => vshift f (n + x.1) x.2.1 x.2.2)

/-- The reduction and scan operators (MODE 0 add, 1 max, 2 min). -/
def redOp (mode : Nat) : W32 → W32 → W32 := match mode % 8 with | 0 => fadd | 1 => fmax | _ => fmin

/-- RED: registers combined lane by lane in ascending order, then the lanes by the tree (R136). -/
def vred (t : Tile) (v : VecCmd) : W32 :=
  laneTree (redOp v.mode) ((natsFrom (v.a + 1) v.b).foldl (fun acc r => lanes2 (redOp v.mode) acc (vreg t r)) (vreg t v.a))

/-- One level of a scan: every lane i ≥ d becomes v[i − d] ⊕ v[i] (R137). -/
def scanLevel {α : Type} (f : α → α → α) (d : Nat) (l : List α) : List α :=
  l.take d ++ (l.zip (l.drop d)).map (fun x => f x.1 x.2)

/-- The seven levels of an inclusive scan (R137). -/
def scan7 {α : Type} (f : α → α → α) (l : List α) : List α := (List.range 7).foldl (fun l d => scanLevel f (2 ^ d) l) l

/-- SCAN over registers with the carry of lane 127 (R137). -/
def scanRegs (f : W32 → W32 → W32) : Option W32 → List (List W32) → List W32
  | _, [] => []
  | c, l :: r =>
    let s := scan7 f l
    let s := match c with | some x => s.map (f x) | none => s
    s ++ scanRegs f (some (s.getLastD 0)) r

def vscan (t : Tile) (v : VecCmd) : List W32 := scanRegs (redOp v.mode) none ((natsFrom v.a (v.b + 1)).map (vreg t))

/-- The pair combination of the linear recurrence (R138): the later pair after the earlier. -/
def lrPair (p q : W32 × W32) : W32 × W32 := (fmul q.1 p.1, ffma q.1 p.2 q.2)

/-- The linear-recurrence scan of a and b (R138). -/
def lrscan (a b : List W32) : List W32 := (scan7 lrPair (a.zip b)).map (·.2)

/-- The four blocks of 128 lanes in a block-scaled format: packed elements and four scale bytes (R103, R104, R161). -/
def cvtBlocks (f : Nat) (l : List W32) (sr : List (Option Nat)) : List Byte × List Byte :=
  let e (i : Nat) : Nat × List Nat := encBlock f ((l.drop (32 * i)).take 32) ((sr.drop (32 * i)).take 32)
  let r := (List.range 4).map e
  (r.flatMap (fun x => bytesOf (blockBytes f) (packBits (elWidth f) x.2)), r.map (fun x => BitVec.ofNat 8 x.1))

/-- The 512 bytes of a register. -/
def regBytes (l : List W32) : List Byte := l.flatMap (fun v => bytesOf 4 v.toNat)

/-- 512 bytes as the lanes of a register. -/
def bytesReg : Nat → List Byte → List W32
  | 0, _ => []
  | k + 1, b => w32 (ofBytes (b.take 4)) :: bytesReg k (b.drop 4)

/-- Bytes laid over other bytes from the front. -/
def overlay (new old : List Byte) : List Byte := new ++ old.drop new.length

/-- The SR words of a CVT: the stream in lane 0 of SRCB, the base position in lanes 1 and 2 (R264). -/
def cvtWords (k0 k1 : W32) (b : List W32) : List (Option Nat) :=
  let s := b.getD 0 0
  let pb := (b.getD 1 0).toNat + 2 ^ 32 * (b.getD 2 0).toNat
  (List.range 128).map (fun i => some (srBits (srWord k0 k1 s pb i)))

/-- CVT of SRCA to FMT: what DST then holds, and whether a NaN or Inf came out (R100, R161). -/
def vcvt (k0 k1 : W32) (t : Tile) (v : VecCmd) : List W32 × Bool :=
  let l := vreg t v.a
  let sr : List (Option Nat) := if v.mode % 2 = 1 then cvtWords k0 k1 (srcB t v) else List.replicate 128 none
  if v.fmt = 7 then (l, l.any nonFinite)
  else if v.fmt = 6 then
    let c := (l.zip sr).map (fun x => toBf16 x.2 x.1)
    (bytesReg 128 (overlay (c.flatMap (bytesOf 2)) (regBytes (vreg t v.dst))), c.any (fun x => decide (0x7F80 ≤ x % 0x8000)))
  else
    let (e, s) := cvtBlocks v.fmt l sr
    let old := regBytes (vreg t v.dst)
    (bytesReg 128 (overlay e (old.take 508) ++ s), s.any (fun x => decide (x = 0xFF)))

/-- LDSLOT: SRCA in FMT at a byte offset of a slot, by round-to-nearest-even (R103 to R105, R127, log entry 15). -/
def ldslot (t : Tile) (v : VecCmd) : Tile :=
  let slot := v.mode % 2
  let off := fld v.imm 17 0
  let l := vreg t v.a
  let fmts (k : Nat) : Store Nat := (natsFrom (off / blockBytes v.fmt) k).foldl (fun f i => putS f (slot * 512 + i) v.fmt) t.slotF
  if v.fmt = 6 then { t with slotE := wrBytes t.slotE (slot * 32768 + off) (l.flatMap (fun x => bytesOf 2 (toBf16 none x))), slotF := fmts 4 }
  else
    let (e, s) := cvtBlocks v.fmt l (List.replicate 128 none)
    { t with slotE := wrBytes t.slotE (slot * 32768 + off) e,
             slotS := wrBytes t.slotS (slot * 512 + off / blockBytes v.fmt) s, slotF := fmts 4 }

/-- KCM: y0 to y3 of every lane (R240). -/
def vkcm (k0 k1 : W32) (t : Tile) (v : VecCmd) : List W32 :=
  let ys := ((vreg t v.a).zip ((srcB t v).zip (vreg t v.c))).map (fun x => kcm k0 k1 x.2.2 x.1 x.2.1)
  (List.range 4).flatMap (fun i => ys.map (fun y => y.getD i 0))

/-- A VEC command that the tile rejects (R164; MODE and source ranges, log entry 15). -/
def vecBad (op : Nat) (v : VecCmd) : Bool :=
  match op with
  | 0x07 => decide (3 < v.mode % 8)
  | 0x18 => decide (7 < v.fmt)
  | 0x28 => decide (2 < v.mode % 8) || decide (63 < v.a + v.b)
  | 0x29 => decide (2 < v.mode % 8) || decide (63 < v.a + v.b) || decide (63 < v.dst + v.b)
  | 0x30 => decide (fld v.imm 17 0 % 128 ≠ 0) || decide (0x40000 < fld v.imm 17 0 + 512)
  | 0x31 => decide (fld v.imm 17 0 % 128 ≠ 0) || decide (0x40000 < fld v.imm 17 0 + 512)
  | 0x32 => decide (6 < v.fmt) || decide (32768 < fld v.imm 17 0 + 4 * blockBytes v.fmt) ||
    (blockFmt v.fmt && decide (512 < fld v.imm 17 0 / blockBytes v.fmt + 4))
  | 0x38 => decide (60 < v.dst)
  | _ => false

/-- A command with a reserved SYNC bit or a field outside its class's tables (R150, R155 to R164). The class and opcode are
assigned. -/
def cmdBad (t : Tile) (w x : W128) (param : Nat → W32) : Bool :=
  decide (fld w 67 64 ≠ 0) ||
  match cwClass w with
  | 0 => match cwOp w with
    | 2 => decide (fld w 4 0 ≠ 0) || decide (fld w 20 16 ≠ 0) || decide (fld w 36 32 ≠ 0) || decide (fld w 52 48 ≠ 0)
    | 4 => decide (fld w 63 36 ≠ 0)
    | _ => decide (fld w 63 0 ≠ 0)
  | 1 => match cwOp w with
    | 1 => !mmaFullZero x || mmaBad (mmaFull w x param)
    | 2 => packedBad t.spad w 4 32
    | _ => packedBad t.spad w 16 16
  | 2 => mvBad t w x (mvCmd w x param)
  | 3 => vecBad (cwOp w) (vecCmd w)
  | 6 => false
  | 7 => decide (fld w 63 16 ≠ 0)
  | _ => decide (fld w 63 32 ≠ 0)

end Sys2Proof.Machine
end

