-- ==== Sys2Proof/Machine/Streams.lean ====
section
/-! DEFINITION. Command streams: the next command, its dispatch, the wait record, the reject, the units' results and the
completion (R112 to R177, R557 to R560, R624 to R626). -/

namespace Sys2Proof.Machine

/-- The next command of a stream: its first word and the word after it (R146, R177). -/
def fetchCmd (s : State) (h t : Nat) : Option (W128 × W128) :=
  let x := getStr s h t
  let at_ (base : Nat) : W128 × W128 :=
    (BitVec.ofNat 128 (rdNat s.mem (base + 16 * x.pos) 16), BitVec.ofNat 128 (rdNat s.mem (base + 16 * x.pos + 16) 16))
  match x.phase with
  | .prologue => if x.pos < x.proLen then some (at_ x.proAt) else none
  | .body => if x.pos < x.bodyLen then some (at_ x.bodyAt) else none
  | _ => none

/-- The logical tiles of a hamlet that run on the same physical tile as `t`. -/
def mates (s : State) (h t : Nat) : List Nat :=
  (List.range 16).filter (fun l => bit (tmap s h l) 31 && decide (physOf s h l = physOf s h t))

/-- No command of a tile's streams is in progress on a unit of the tile (R112). -/
def unitFree (s : State) (h t : Nat) (u : UnitK) : Bool :=
  (mates s h t).all (fun l => (getStr s h l).inflight.all (fun f => decide (f.u ≠ u)))

/-- The attention sequencer holds the grid and the matrix-vector path of a logical tile (R194). -/
def atsHolds (s : State) (h t : Nat) : Bool := match (getHam s h).ats with | some j => j.2 >>> t % 2 = 1 | none => false

/-- Where a partition's steps may start operations: it is not fenced, has power, and the step in flight is not faulted
(R522, R550, R571). -/
def partGoes (s : State) (p : Nat) : Bool :=
  let x := getPart s p
  !s.quar && !s.dark && x.cause.isNone && (x.inStep || x.placing)

/-- The stream's unit accepts the command now: its unit is free or its queue has a place (R112, R156, R191, R193). -/
def unitReady (s : State) (h t : Nat) (w : W128) : Bool :=
  match cwClass w with
  | 0 => decide (cwOp w ≠ 3) || (getStr s h t).inflight.isEmpty
  | 1 => unitFree s h t .grid && !atsHolds s h t
  | 2 => unitFree s h t .mv && !atsHolds s h t
  | 3 => unitFree s h t .vec && !(getHam s h).borrow.contains (physOf s h t)
  | 4 => decide ((getHam s h).cartQ.length < 64) && !bit (reg s (crtPg h + Off.pageCtl)) 1
  | 5 => decide ((getHam s h).atsQ.length < 64) && !bit (reg s (atsPg h + Off.pageCtl)) 1
  | 6 => decide ((getHam s h).updQ.length < 64) && !bit (reg s (updPg h + Off.pageCtl)) 1
  | 7 => !bit (reg s (pPen + Off.pageCtl)) 1
  | _ => true

/-- The waits of a command hold together (R155, R167). -/
def waitsHold (x : Stream) (ws : List (Nat × Nat)) : Bool := ws.all (fun p => decide (waitSum ws p.1 ≤ getD x.sync p.1 0))

/-- Everything that a dispatch waits for holds (R112, R167). -/
def mayDispatch (s : State) (h t : Nat) (w : W128) : Bool :=
  (match (getHam s h).part with | some p => partGoes s p | none => false) &&
  !bit (reg s (tilPg h (physOf s h t) + Off.pageCtl)) 1 && waitsHold (getStr s h t) (waitsOf w) && unitReady s h t w

/-- One wait's decrement (R167). -/
def takeWait (x : Stream) (p : Nat × Nat) : Stream :=
  { x with sync := putDef x.sync p.1 (getD x.sync p.1 0 - p.2) 0, srcs := putDef x.srcs p.1 ((getD x.srcs p.1 []).drop p.2) [] }

/-- The signal that satisfied the last of a command's waits, with its counter (R625). -/
def waitSource (x : Stream) (ws : List (Nat × Nat)) : Option (Nat × Source) :=
  (ws.filterMap (fun p => ((getD x.srcs p.1 [])[waitSum ws p.1 - 1]?).map (fun c => (p.1, c)))).foldl
    (fun b c => match b with | none => some c | some y => if y.2.ord ≤ c.2.ord then some c else some y) none

/-- The wait record of a dispatch that waited long enough, in the partition's trace ring (R624 to R626). -/
def waitRecord (s : State) (p : Nat) (d : Disp) (w : W128) (x : Stream) : State :=
  let cfg := (getPart s p).trCfg
  if !bit cfg 31 || decide (fld cfg 28 24 < 6) || decide (20 < fld cfg 28 24) || decide (d.waited < max 1 (fld cfg 23 0)) then s
  else
    let base := (getPart s p).trBase
    let size := 2 ^ fld cfg 28 24
    let head := rdNat s.mem (base + 32 * size) 8
    let tail := rdNat s.mem (base + 32 * size + 8) 8
    if size < head + 1 - tail then intBit (bumpAt s (pMcn + Off.mcnPTrDrop) p 1) pMcn 2
    else
      let src : Nat × Source := match d.kind, waitSource x (waitsOf w) with
        | 0, some c => c
        | 0, none => (0, ⟨0xFF, 0, 0, 0xFFFF, 0, 0⟩)
        | _, _ => (0, ⟨0xFF, 0, 0, 0, 0, 0⟩)
      let c := src.2
      let r := bytesOf 8 s.time ++ bytesOf 4 (min d.waited 0xFFFFFFFF) ++ bytesOf 1 (getHam s d.hamlet).lham ++
        bytesOf 1 d.tile ++ bytesOf 1 d.kind ++ bytesOf 1 src.1 ++ bytesOf 2 (cwLayer w) ++ bytesOf 2 (cwOper w) ++
        bytesOf 1 c.kind ++ bytesOf 1 c.hamlet ++ bytesOf 1 c.tile ++ bytesOf 1 0 ++ bytesOf 2 c.layer ++ bytesOf 2 c.op ++
        bytesOf 4 (getPart s p).step
      { s with mem := wrNat (wrBytes s.mem (base + 32 * (head % size)) r) (base + 32 * size) 8 (head + 1) }

/-- The dispatch takes its waits, moves past the command's words and records its operator (R146, R155, R167, TIL.CMD_STAT). -/
def takeCmd (s : State) (h t : Nat) (w : W128) : State :=
  let x := getStr s h t
  let y := (waitsOf w).foldl takeWait x
  let pos := x.pos + cmdWords (cwClass w) (cwOp w)
  let gmv := decide (1 ≤ cwClass w) && decide (cwClass w ≤ 3)
  setStr s h t { y with
    pos := pos, lastOp := cwOper w, gmv := x.gmv + (if gmv then 1 else 0),
    phase := if x.phase = .prologue ∧ x.proLen ≤ pos then .ended else x.phase }

/-- A rejected command: the stream stops at it, the tile enters FAULT (R165). -/
def rejectCmd (s : State) (h t : Nat) (w : W128) : State :=
  let s := setStr s h t { getStr s h t with lastOp := cwOper w }
  tileFault s h t 4 (cmdStat s h (physOf s h t)).toNat 0 (cwLayer w) (cwOper w)

/-- Corrected scratchpad errors, counted (R132). -/
def spadCorr (s : State) (h t k : Nat) : State :=
  let p := tilPg h (physOf s h t)
  if k = 0 then s else countT (intBit (bumpF s (p + Off.tilSpadEcc) 15 0 k) p 2) h (physOf s h t) 0x8004 k none

/-- An uncorrectable scratchpad word: counted, the first recorded, the tile faults (R133). -/
def spadUnc (s : State) (h t a : Nat) (w : W128) : State :=
  let p := tilPg h (physOf s h t)
  let s := bumpF s (p + Off.tilSpadEcc) 31 16 1
  let s := if bit (reg s (p + Off.tilSpadEaddr)) 31 then s else setReg s (p + Off.tilSpadEaddr) (w32 (2 ^ 31 + a / 8 * 8))
  tileFault s h t 3 (reg s (p + Off.tilSpadEaddr)).toNat (a / 8 * 8) (cwLayer w) (cwOper w)

/-- A command of the stream enters its unit (R148). -/
def open_ (s : State) (h t : Nat) (u : UnitK) (w : W128) : State :=
  let x := getStr s h t
  setStr s h t { x with inflight := x.inflight ++ [⟨u, w, false, x.gmv - 1⟩] }

/-- What a dispatched command does, given the hamlet, the logical tile and its words. -/
abbrev Effect := State → Nat → Nat → W128 → W128 → State

/-- The dispatch of a stream's next command by the row of class `cls` and opcode `op`: where the command is that row's and
everything that it waits for holds, it is dispatched; a malformed or unassigned command is rejected (R112, R164, R165,
R167). An uncorrectable operand word reaches no unit (R133). -/
def dispatch (cls op : Nat) (eff : Effect) (d : Disp) (s : State) : State :=
  match fetchCmd s d.hamlet d.tile with
  | none => s
  | some (w, x) =>
    let known := opAssigned (cwClass w) (cwOp w)
    if known && !(decide (cwClass w = cls) && decide (cwOp w = op)) then s
    else if !mayDispatch s d.hamlet d.tile w then s
    else
      let param (i : Nat) : W32 := getD (getStr s d.hamlet d.tile).params i 0
      if !known || cmdBad (getTile s (ctxKey s d.hamlet d.tile)) w x param then rejectCmd s d.hamlet d.tile w
      else
        let x0 := getStr s d.hamlet d.tile
        let s := takeCmd s d.hamlet d.tile w
        let s := countT s d.hamlet (physOf s d.hamlet d.tile) 7 1 (some (cwLayer w))
        let s := match (getHam s d.hamlet).part with | some p => waitRecord s p d w x0 | none => s
        let s := spadCorr s d.hamlet d.tile d.corr
        match d.unc with
        | some a => spadUnc s d.hamlet d.tile a w
        | none => eff s d.hamlet d.tile w x

/-- Completion at dispatch: a CTL or PEN command signals at once (R148). -/
def atOnce (f : Effect) : Effect := fun s h t w x => signalCmd (f s h t w x) h t w

/-- No effect beside the SYNC field. -/
def noEffect : Effect := fun s _ _ _ _ => s

/-- SETP overwrites a step parameter (R176). -/
def effSetp : Effect := fun s h t w _ =>
  let y := getStr s h t
  setStr s h t { y with params := putDef y.params (fld w 35 32) (w32 (fld w 31 0)) 0 }

/-- STEP_END stops the stream's dispatch for the rest of the step (R175). -/
def effStepEnd : Effect := fun s h t _ _ => setStr s h t { getStr s h t with phase := .ended }

/-- Results of the grid or of the matrix-vector path: the non-finite flag and the range check (R100, R139). -/
def gmCheck (s : State) (h t : Nat) (w : W128) (vs : List W32) : State :=
  let s := nfCheck s h t (cwLayer w) (cwOper w) vs
  if cwRchk w then rangeCheck s h t (cwLayer w) (cwOper w) vs else s

/-- Grid MACs counted. -/
def gridMacs (s : State) (h t : Nat) (w : W128) (n : Nat) : State := countT s h (physOf s h t) 3 n (some (cwLayer w))

/-- A full-grid command (R116 to R118). -/
def effMmaFull : Effect := fun s h t w x =>
  let k := ctxKey s h t
  let tl := getTile s k
  let p := mmaFull w x (fun i => getD (getStr s h t).params i 0)
  let vs := mmaVals tl.spad p
  gridMacs (open_ (gmCheck (setTile s k (outTo tl p.toRegs p.c vs)) h t w vs) h t .grid w) h t w (p.m * p.n * p.k)

/-- A packed command: every sub-problem from the operands as they stood (R121 to R123). -/
def effPacked : Effect := fun s h t w _ =>
  let k := ctxKey s h t
  let tl := getTile s k
  let rs := (mmaSubs tl.spad w).map (fun e => (e.1, mmaVals tl.spad e.1))
  let tl' := rs.foldl (fun tl r => outTo tl r.1.toRegs r.1.c r.2) tl
  gridMacs (open_ (gmCheck (setTile s k tl') h t w (rs.flatMap (·.2))) h t .grid w) h t w ((rs.map (fun r => r.1.m * r.1.n * r.1.k)).foldl (· + ·) 0)

/-- A matrix-vector command (R125 to R128). -/
def effMv : Effect := fun s h t w x =>
  let k := ctxKey s h t
  let tl := getTile s k
  let c := mvCmd w x (fun i => getD (getStr s h t).params i 0)
  let vs := mvVals tl c
  let n := c.rows * (if c.wfmt = 6 then 2 * c.k else ceilDiv c.k 32 * blockBytes c.wfmt)
  countT (open_ (gmCheck (setTile s k (outTo tl c.toRegs c.y vs)) h t w vs) h t .mv w) h (physOf s h t) 5 n (some (cwLayer w))

/-- A VEC command that writes FP32 results to registers from DST on; `fp` says whether they are results of arithmetic, which
R100 flags, and `rc` whether R139 checks them (log entry 15). -/
def effVec (fp rc : Bool) (f : Stream → Tile → VecCmd → List W32) : Effect := fun s h t w _ =>
  let k := ctxKey s h t
  let tl := getTile s k
  let v := vecCmd w
  let vs := f (getStr s h t) tl v
  let s := setTile s k (vput tl v.dst vs)
  let s := if fp then nfCheck s h t (cwLayer w) (cwOper w) vs else s
  let s := if rc && cwRchk w then rangeCheck s h t (cwLayer w) (cwOper w) vs else s
  open_ s h t .vec w

/-- Free values drawn by a command. -/
def drew (n : Nat) (s : State) : State := { s with freeCtr := s.freeCtr + n }

/-- SHL and SHR: one draw a lane for the amounts that the spec gives no result for (log entry 8). -/
def effShift (f : W32 → Nat → W32) : Effect := fun s h t w x =>
  drew 128 (effVec false false (fun _ tl v => vshifts f s.freeCtr tl v) s h t w x)

/-- RED: lane 0 of DST holds the result, the other lanes a free value each (log entry 8). -/
def effRed : Effect := fun s h t w _ =>
  let k := ctxKey s h t
  let tl := getTile s k
  let v := vecCmd w
  let r := vred tl v
  let s' := setTile s k (vput tl v.dst (r :: (List.range 127).map (fun i => Config.freeWord (s.freeCtr + i))))
  drew 127 (open_ (gmCheck s' h t w [r]) h t .vec w)

/-- CVT (R103 to R106, R161, R264). -/
def effCvt : Effect := fun s h t w _ =>
  let k := ctxKey s h t
  let tl := getTile s k
  let v := vecCmd w
  let y := getStr s h t
  let (vs, nf) := vcvt y.key0 y.key1 tl v
  let s := setTile s k (vput tl v.dst vs)
  let s := if nf then setNf s h t (cwLayer w) (cwOper w) else s
  let s := if v.fmt = 7 ∧ cwRchk w then rangeCheck s h t (cwLayer w) (cwOper w) vs else s
  open_ s h t .vec w

/-- LD: 512 bytes of scratchpad into a register (R134). -/
def effLd : Effect :=
  effVec false true (fun _ tl v => (List.range 128).map (fun i => rd32 tl.spad (fld v.imm 17 0 + 4 * i)))

/-- ST: a register as 512 bytes of scratchpad; the register is SRCA (R134, R160). -/
def effSt : Effect := fun s h t w _ =>
  let k := ctxKey s h t
  let tl := getTile s k
  let v := vecCmd w
  let vs := vreg tl v.a
  let s := setTile s k { tl with spad := wr32s tl.spad (fld v.imm 17 0) vs }
  let s := if cwRchk w then rangeCheck s h t (cwLayer w) (cwOper w) vs else s
  open_ s h t .vec w

/-- LDSLOT (R127). -/
def effLdslot : Effect := fun s h t w _ =>
  let k := ctxKey s h t
  open_ (setTile s k (ldslot (getTile s k) (vecCmd w))) h t .vec w

/-- KCM into DST to DST + 3 (R240). -/
def effKcm : Effect := effVec false false (fun y tl v => vkcm y.key0 y.key1 tl v)

/-- A job that the stream submits to a unit of the hamlet (R162). -/
def jobOf (t : Nat) (w : W128) : Job := ⟨t, if cwClass w = 6 then fld w 15 0 else fld w 31 0, w⟩

/-- CRT: a list joins the cart's queue (R191). -/
def effCrt : Effect := fun s h t w _ =>
  let y := getHam s h
  open_ (setHam s h { y with cartQ := y.cartQ ++ [jobOf t w] }) h t .cart w

/-- ATS: a job joins the attention sequencer's queue (R193). -/
def effAts : Effect := fun s h t w _ =>
  let y := getHam s h
  open_ (setHam s h { y with atsQ := y.atsQ ++ [jobOf t w] }) h t .ats w

/-- UPD: a program joins the update streamer's queue (R162). -/
def effUpd : Effect := fun s h t w _ =>
  let y := getHam s h
  open_ (setHam s h { y with updQ := y.updQ ++ [jobOf t w] }) h t .upd w

/-! ### Completion (R148, R168) -/

/-- The oldest open command of a unit that may complete: a tile unit's at any time, a job once it is done. -/
def ripe (u : UnitK) (f : InFlight) : Bool :=
  decide (f.u = u) && (match u with | .cart => f.done | .ats => f.done | .upd => f.done | _ => true)

/-- A list without its first element that satisfies a test. -/
def dropFirst (p : InFlight → Bool) : List InFlight → List InFlight
  | [] => []
  | f :: r => if p f then r else f :: dropFirst p r

/-- The oldest ripe command of a unit leaves it and signals (R168). -/
def completeCmd (s : State) (h t : Nat) (u : UnitK) : State :=
  let x := getStr s h t
  match x.inflight.find? (ripe u) with
  | none => s
  | some f =>
    let s := setStr s h t { x with inflight := dropFirst (ripe u) x.inflight }
    let s := if u = .ats then setHam s h { getHam s h with ats := none } else s
    signalCmd s h t f.word

/-- A stream's open job of a unit becomes complete: the oldest that is not. -/
def jobDone (s : State) (h t : Nat) (u : UnitK) : State :=
  let x := getStr s h t
  let mark : List InFlight → List InFlight := fun l =>
    (l.foldl (fun (acc : List InFlight × Bool) f =>
      if !acc.2 && decide (f.u = u) && !f.done then (acc.1 ++ [{ f with done := true }], true) else (acc.1 ++ [f], acc.2)) ([], false)).1
  setStr s h t { x with inflight := mark x.inflight }

/-! ### Shadow checking (R557 to R560) -/

/-- The command of index `i` of a logical tile's stream is shadowed in the step (R557). -/
def shadowed (s : State) (p t i : Nat) : Bool :=
  let x := getPart s p
  decide (0 < x.shadow) && decide ((i + x.step + t) % x.shadow = 0)

/-- The physical tile that runs a shadow: the spare when it is free, else the next working tile, wrapping (R558). -/
def shadowTile (s : State) (h t : Nat) : Nat :=
  let f := reg s (hamPgOf h + Off.hamFold)
  if bit f 31 then fld f 12 8
  else
    let p := physOf s h t
    ((natsFrom (p + 1) 16).map (· % 17)).find? (fun q => decide (tileSt s h q ≠ 2) &&
      decide (fld (reg s (tilPg h q + Off.pageStat)) 2 0 ≠ 4)) |>.getD p

/-- A shadow that differs: the step is faulted, both tiles become SUSPECT, RAS.LAST_MM is filled (R549, R560). -/
def shadowMismatch (s : State) (p h t : Nat) : State :=
  let a := tileNo h (physOf s h t)
  let b := tileNo h (shadowTile s h t)
  let q := shadowTile s h t
  let s := bbr s { cat := 8, code := 1, loc := tilPg h (physOf s h t), arg0 := a, arg1 := b, step := (getPart s p).step, part := p }
  let s := intBit (bump s (pRas + Off.rasMismatch) 1) pRas 0
  let r := pRas + Off.rasLastMm
  let s := if bit (reg s r) 31 then s else setReg s r (w32 (2 ^ 31 + a * 2 ^ 12 + b))
  let s := tileBad (tileBad s h (physOf s h t)) h q
  faultStep s p { code := 6, loc := tilPg h (physOf s h t), arg0 := a, arg1 := b, layer := 0xFFFF, op := 0 }

/-- The run of a shadow (R558): nothing but a counter changes unless its results differ. -/
def shadowRun (s : State) (h t i : Nat) (differs : Bool) : State :=
  match (getHam s h).part with
  | some p =>
    if shadowed s p t i && decide (i < (getStr s h t).gmv) then
      let s := countT s h (shadowTile s h t) 0x8002 1 none
      if differs then shadowMismatch s p h t else s
    else s
  | none => s

end Sys2Proof.Machine
end

