-- ==== Sys2Proof/Machine/Cart.lean ====
section
/-! DEFINITION. The cart: descriptor lists in arrival order (R163, R187 to R192), with the faults of R192 and the accesses to
other tray positions of R430. -/

namespace Sys2Proof.Machine

/-! ### The descriptor (R187) -/

abbrev CartDesc := BitVec 512

def cdOp (d : CartDesc) : Nat := recF d 0 1
def cdFlags (d : CartDesc) : Nat := recF d 1 1
def cdLast (d : CartDesc) : Bool := cdFlags d % 2 = 1
def cdSigEn (d : CartDesc) : Bool := cdFlags d / 2 % 2 = 1
def cdSigTarget (d : CartDesc) : W32 := w32 (recF d 4 4)
def cdSrc (d : CartDesc) : Nat := recF d 8 8
def cdDst (d : CartDesc) : Nat := recF d 0x10 8
def cdRowBytes (d : CartDesc) : Nat := recF d 0x18 4
def cdRows (d : CartDesc) : Nat := recF d 0x1C 4
def cdSrcPitch (d : CartDesc) : Nat := recF d 0x20 4
def cdDstPitch (d : CartDesc) : Nat := recF d 0x24 4
def cdFill (d : CartDesc) : Nat := recF d 0x30 8
def cdNext (d : CartDesc) : Nat := recF d 0x38 8

/-- A reserved field of a descriptor is not zero (R190). -/
def cdReserved (d : CartDesc) : Bool := decide (8 ≤ cdFlags d) || decide (recF d 2 2 ≠ 0) || decide (recF d 0x28 8 ≠ 0)

/-- The rows of a descriptor: their numbers. -/
def cdRowList (d : CartDesc) : List Nat := List.range (cdRows d)

/-- The first byte outside the partition among the rows that a descriptor reads or writes (R190). -/
def cdBad (s : State) (p h : Nat) (d : CartDesc) (reads : Bool) : Option Nat :=
  (cdRowList d).findSome? (fun i =>
    match (if reads then spanBad s p h (cdSrc d + i * cdSrcPitch d) (cdRowBytes d) false else none) with
    | some a => some a
    | none => spanBad s p h (cdDst d + i * cdDstPitch d) (cdRowBytes d) true)

/-! ### Faults and completion -/

/-- The list faults: recorded, the waiting lists discarded without signals, the submitting stream and the step faulted
(R190, R192). -/
def cartFault (s : State) (h cause desc addr : Nat) : State :=
  let x := getHam s h
  let p := crtPg h
  let a := p + Off.crtFault
  let s := if bit (reg s a) 31 then s
    else setPair (setReg s a (w32 (2 ^ 31 + cause * 2 ^ 24 + desc % 2 ^ 16))) (p + Off.crtFaultAddrLo) addr
  let s := intBit s p 0
  let s := setHam s h { x with cartQ := [], cart := none, cartOff := true }
  match x.cart, x.part with
  | some r, some pt =>
    let s := faultStep s pt { code := 2, loc := p, arg0 := (reg s a).toNat, arg1 := addr, layer := cwLayer r.job.word,
                              op := cwOper r.job.word }
    tileFault s h r.job.tile 4 0 0 (cwLayer r.job.word) (cwOper r.job.word)
  | _, _ => s

/-- The signal of a descriptor (R168, R187, R625). -/
def cartSignal (s : State) (h : Nat) (r : CartRun) (d : CartDesc) : State :=
  if !cdSigEn d then s
  else match (getHam s h).part with
    | some p => signalEntry s p (cdSigTarget d) ⟨1, (getHam s h).lham, r.job.tile, cwLayer r.job.word, cwOper r.job.word, 0⟩
    | none => s

/-- The list goes on at its next descriptor, or is complete and so is its command (R187, R189). -/
def cartNext (s : State) (h : Nat) (r : CartRun) (last : Bool) : State :=
  if last then
    let s := setHam s h { getHam s h with cart := none }
    jobDone s h r.job.tile .cart
  else setHam s h { getHam s h with cart := some { r with desc := r.desc + 1, at_ := r.at_ + 64, await := false } }

/-- A descriptor is complete: counted, signalled, the list goes on. -/
def cartDone (s : State) (h : Nat) (r : CartRun) (d : CartDesc) : State :=
  cartNext (cartSignal (bump s (crtPg h + Off.crtDesc) 1) h r d) h r (cdLast d)

/-- Bytes counted in CRT.BYTES. -/
def cartBytes (s : State) (h n : Nat) : State :=
  countH (bumpPair s (crtPg h + Off.crtBytesLo) n) h 0x101 n ((getHam s h).cart.map (fun r => cwLayer r.job.word))

/-- The descriptor that the cart's running list is at. -/
def cartCur (s : State) (h : Nat) : Option (CartRun × CartDesc) :=
  (getHam s h).cart.map (fun r => (r, BitVec.ofNat 512 (rdNat s.mem r.at_ 64)))

/-- The cart may begin an operation of its list: the step in flight is not faulted, nothing is awaited. -/
def cartMay (s : State) (h : Nat) (r : CartRun) : Bool :=
  !r.await && (match (getHam s h).part with | some p => partGoes s p | none => false)

/-- The next waiting list starts, in arrival order (R163, R191); a list that the section does not have faults (R192). -/
def cartStart (s : State) (h : Nat) : State :=
  let x := getHam s h
  match x.cart, x.cartQ, x.part with
  | none, j :: q, some p =>
    if x.cartOff || decide (x.spill ≠ 0) || !partGoes s p then s
    else
      let s := setReg s (crtPg h + Off.crtCurList) (w32 j.idx)
      match cartList s p j.idx with
      | some a => setHam s h { x with cartQ := q, cart := some ⟨j, j.idx, 0, a, false⟩ }
      | none => cartFault (setHam s h { x with cartQ := q, cart := some ⟨j, j.idx, 0, 0, false⟩ }) h 4 0 0
  | _, _, _ => s

/-- The running list's descriptor is taken by the row of its OP; an unassigned OP or a reserved field faults (R187, R190). -/
def cartRow (op : Nat) (f : State → Nat → Nat → CartRun → CartDesc → State) (h : Nat) (s : State) : State :=
  match cartCur s h, (getHam s h).part with
  | some (r, d), some p =>
    if !cartMay s h r then s
    else if cdOp d = 0 ∨ 4 < cdOp d then cartFault s h 2 r.desc 0
    else if cdOp d ≠ op then s
    else if cdReserved d then cartFault s h 2 r.desc 0
    else f s p h r d
  | _, _ => s

/-- ROW_BYTES and ROWS in range (R187). -/
def cdSizes (d : CartDesc) : Bool :=
  decide (1 ≤ cdRowBytes d) && decide (cdRowBytes d ≤ 16777216) && decide (1 ≤ cdRows d) && decide (cdRows d ≤ 65536)

/-- One row of a COPY: local bytes read and written, or sent to or asked from another tray position (R430). -/
def copyRow (s : State) (p h : Nat) (d : CartDesc) (i : Nat) : State :=
  let a := cdSrc d + i * cdSrcPitch d
  let b := cdDst d + i * cdDstPitch d
  let n := cdRowBytes d
  match resolve s p h a false, resolve s p h b true with
  | .remote pos off, _ => sendLoads s pos p off n h b (.cart h)
  | _, .remote pos off => sendStores (spanTouch s p h a n) pos p off (spanRead s p h a n) (.cart h)
  | _, _ => spanWrite (spanTouch s p h a n) p h b (spanRead s p h a n)

/-- The cart waits for an answer or an acknowledgement from another tray position. -/
def cartOpen (s : State) (h : Nat) : Bool :=
  s.fab.wants.any (fun w => decide (w.owner = .cart h)) || s.fab.unacked.any (fun u => decide (u.owner = .cart h))

/-- A descriptor whose bytes have all been moved here; one that awaits another module stays open. -/
def cartMoved (s : State) (h : Nat) (r : CartRun) (d : CartDesc) : State :=
  if cartOpen s h then setHam s h { getHam s h with cart := some { r with await := true } } else cartDone s h r d

/-- When the last answer is in, the awaiting descriptor is complete. -/
def cartPoll (s : State) (h : Nat) : State :=
  match cartCur s h with
  | some (r, d) => if r.await && !cartOpen s h then cartDone s h r d else s
  | none => s

/-- COPY (R187): every byte checked first (R190), the source read without an uncorrectable line (R380), then the rows. -/
def cartCopy (m : MemOutcome) (s : State) (p h : Nat) (r : CartRun) (d : CartDesc) : State :=
  if !cdSizes d then cartFault s h 5 r.desc 0
  else match cdBad s p h d true with
    | some a => cartFault s h 1 r.desc a
    | none =>
      let s := memErrs s h m
      match (cdRowList d).findSome? (fun i => spanPoison s p h (cdSrc d + i * cdSrcPitch d) (cdRowBytes d)) with
      | some a => cartFault s h 3 r.desc a
      | none =>
        if hstFaults s h m.hst then cartFault s h 3 r.desc (hstAddr s h m.hst)
        else match m.unc with
          | some a => cartFault s h 3 r.desc a
          | none =>
            let s := (cdRowList d).foldl (fun s i => copyRow s p h d i) s
            cartMoved (cartBytes s h (cdRowBytes d * cdRows d)) h r d

/-- The FILL pattern repeated over a row (R187). -/
def fillBytes (v n : Nat) : List Byte := (List.range n).map (fun i => BitVec.ofNat 8 (v >>> (8 * (i % 8))))

/-- FILL (R187): the pattern over every destination row. -/
def cartFill (s : State) (p h : Nat) (r : CartRun) (d : CartDesc) : State :=
  if !cdSizes d then cartFault s h 5 r.desc 0
  else match cdBad s p h d false with
    | some a => cartFault s h 1 r.desc a
    | none =>
      let bs := fillBytes (cdFill d) (cdRowBytes d)
      let s := (cdRowList d).foldl (fun s i =>
        match resolve s p h (cdDst d + i * cdDstPitch d) true with
        | .remote pos off => sendStores s pos p off bs (.cart h)
        | _ => spanWrite s p h (cdDst d + i * cdDstPitch d) bs) s
      cartMoved (cartBytes s h (cdRowBytes d * cdRows d)) h r d

/-- LINK (R187): the list continues at the list NEXT names. -/
def cartLink (s : State) (p h : Nat) (r : CartRun) (d : CartDesc) : State :=
  match cartList s p (cdNext d) with
  | none => cartFault s h 4 r.desc 0
  | some a =>
    let s := cartSignal (bump s (crtPg h + Off.crtDesc) 1) h r d
    let s := setReg s (crtPg h + Off.crtCurList) (w32 (cdNext d))
    setHam s h { getHam s h with cart := some { r with list := cdNext d, desc := 0, at_ := a } }

/-- The next waiting list starts (R191). -/
def execCartListStart (hamlet : Nat) (s : State) : Res := checked (.cartListStart hamlet) (cartStart s hamlet)

/-- COPY moves rows of bytes (R187). -/
def execCartCopy (hamlet : Nat) (mem : MemOutcome) (s : State) : Res :=
  checked (.cartCopy hamlet mem) (cartRow 1 (cartCopy mem) hamlet s)

/-- FILL writes its pattern (R187). -/
def execCartFill (hamlet : Nat) (s : State) : Res := checked (.cartFill hamlet) (cartRow 2 cartFill hamlet s)

/-- SIGNAL only signals (R187). -/
def execCartSignal (hamlet : Nat) (s : State) : Res :=
  checked (.cartSignal hamlet) (cartRow 3 (fun s _ h r d => cartDone s h r d) hamlet s)

/-- LINK continues at the next list (R187). -/
def execCartLink (hamlet : Nat) (s : State) : Res := checked (.cartLink hamlet) (cartRow 4 cartLink hamlet s)

/-- Clearing CRT.FAULT.VALID (R192). -/
def execCrtFaultClear (w : Writer) (page : Nat) (v : W32) (s : State) : Res :=
  checked (.crtFaultClear w page v)
    (clearValid w (page + Off.crtFault) v [page + Off.crtFaultAddrLo, page + Off.crtFaultAddrHi] s)

end Sys2Proof.Machine
end

