-- ==== Sys2Proof/Machine/Attention.lean ====
section
/-! DEFINITION. The attention sequencer (06): jobs, append, the block walk, empty and non-finite rows, job faults. -/

namespace Sys2Proof.Machine

/-! ### The job descriptor (R198, R199) -/

/-- A job descriptor. -/
structure AtsJob where
  ops : Nat
  fmt : Nat
  d : Nat
  hkv : Nat
  g : Nat
  slot : Nat
  slotBytes : Nat
  window : Nat
  global : Nat
  scale : W32
  workers : Nat
  nseqPar : Nat
  stage : Nat
  stageKib : Nat
  lt : Nat
  q : Nat
  knew : Nat
  vnew : Nat
  o : Nat
  lse : Nat
  mask : Nat
  zero : Nat
deriving DecidableEq, Repr

def atsJob (x : BitVec 1024) : AtsJob :=
  { ops := recF x 0 1, fmt := recF x 1 1, d := recF x 2 2, hkv := recF x 4 1, g := recF x 5 1, slot := recF x 6 2,
    slotBytes := recF x 8 4, window := recF x 0xC 4, global := recF x 0x10 4, scale := w32 (recF x 0x14 4),
    workers := recF x 0x18 2, nseqPar := recF x 0x1A 2, stage := recF x 0x1C 2, stageKib := recF x 0x1E 2,
    lt := recF x 0x20 8, q := recF x 0x28 8, knew := recF x 0x30 8, vnew := recF x 0x38 8, o := recF x 0x40 8,
    lse := recF x 0x48 8, mask := recF x 0x50 8, zero := recF x 0x58 40 }

def AtsJob.append (j : AtsJob) : Bool := j.ops % 2 = 1
def AtsJob.attend (j : AtsJob) : Bool := j.ops / 2 % 2 = 1
def AtsJob.export_ (j : AtsJob) : Bool := j.ops / 4 % 2 = 1

/-- ARR of a head (R202). -/
def AtsJob.arr (j : AtsJob) : Nat := if j.fmt = 6 then 32 * j.d else 16 * j.d + 128

/-- HEAD_BYTES (R202). -/
def AtsJob.headBytes (j : AtsJob) : Nat := 2 * j.arr

/-- A field outside R198 or R199, or OPS 0 (cause 4 of R235). -/
def AtsJob.bad (j : AtsJob) : Bool :=
  decide (j.ops = 0) || decide (8 ≤ j.ops) || !(decide (j.fmt = 3) || decide (j.fmt = 6)) || decide (j.d < 32) ||
  decide (256 < j.d) || decide (j.d % 32 ≠ 0) || decide (j.hkv = 0) || decide (64 < j.hkv) || decide (j.g = 0) ||
  decide (64 < j.g) || decide (256 < j.hkv * j.g) || decide (j.slotBytes % 128 ≠ 0) ||
  decide (j.slotBytes < j.hkv * j.headBytes) || nonFinite j.scale || !flt 0 j.scale || decide (16 ≤ j.nseqPar) ||
  decide (2048 ≤ j.stage) || decide (j.stageKib % 4 ≠ 0) ||
  decide (j.stageKib < roundUp (ceilDiv (3 * 128 * j.d + 24576) 1024) 4) || decide (j.zero ≠ 0)

/-- A length-table entry (R206). -/
structure LtEntry where
  slot : Nat
  nq : Nat
  lc : Nat
  kstart : Nat
  qrow : Nat
  pages : Nat
  zero : Nat
deriving DecidableEq, Repr

def ltEntry (x : BitVec 256) : LtEntry :=
  { slot := recF x 0 2, nq := recF x 2 2, lc := recF x 4 4, kstart := recF x 8 4, qrow := recF x 0xC 4,
    pages := recF x 0x10 8, zero := recF x 0x18 8 }

/-- An entry breaks R206 or R207 (cause 3 of R235), given the sum of NQ before it. -/
def LtEntry.bad (e : LtEntry) (sum : Nat) : Bool :=
  decide (16384 ≤ e.slot) || decide (16384 < e.nq) || decide (16777216 < e.lc + e.nq) || decide (e.qrow ≠ sum) ||
  decide (e.zero ≠ 0) || decide (e.pages % 8 ≠ 0)

/-! ### Faults (R235, R236) -/

/-- A job fault: cause, entry and address recorded, the waiting jobs discarded, the stream and the step faulted (R236). -/
def atsFault (s : State) (h : Nat) (j : Job) (cause entry addr : Nat) : State :=
  let p := atsPg h
  let a := p + Off.atsFault
  let s := if bit (reg s a) 31 then s
    else setPair (setReg s a (w32 (2 ^ 31 + cause * 2 ^ 24 + entry % 2 ^ 14))) (p + Off.atsFaultAddrLo) addr
  let s := intBit s p 0
  let x := getHam s h
  let s := setHam s h { x with atsQ := [], ats := none, atsOff := true }
  match x.part with
  | some pt =>
    let s := faultStep s pt { code := 3, loc := p, arg0 := (reg s a).toNat, arg1 := addr, layer := cwLayer j.word, op := cwOper j.word }
    tileFault s h j.tile 4 0 0 (cwLayer j.word) (cwOper j.word)
  | none => s

/-- The first address of a span that a hamlet's own unit may not reach: outside the partition, or at another module. -/
def spanLocal (s : State) (p h a n : Nat) (write : Bool) : Option Nat :=
  ((pieces a n).find? (fun x => match resolve s p h x.1 write with
    | .bad => true
    | .remote _ _ => true
    | .spad _ b => decide (2 ^ 18 < b + x.2)
    | _ => false)).map (·.1)

/-! ### KV entries (R200 to R203, R215) -/

/-- The FP32 values of a span. -/
def f32s (s : State) (p h a n : Nat) : List W32 := bytesReg n (spanRead s p h a (4 * n))

/-- A head vector in KVFMT: element bytes and scale bytes (R215). -/
def kvEnc (fmt : Nat) (v : List W32) : List Byte × List Byte :=
  if fmt = 6 then (v.flatMap (fun x => bytesOf 2 (toBf16 none x)), [])
  else
    let bs := (List.range (v.length / 32)).map (fun i => encBlock 3 ((v.drop (32 * i)).take 32) (List.replicate 32 none))
    (bs.flatMap (fun b => b.2.map (BitVec.ofNat 8)), bs.map (fun b => BitVec.ofNat 8 b.1))

/-- Byte of a frame where the K array of a head starts; V follows after ARR (R202). -/
def headAt (j : AtsJob) (head : Nat) : Nat := j.slot * j.slotBytes + j.headBytes * head

/-- A converted vector stored at a token slot of an array at module offset `a` (R202). -/
def kvStore (s : State) (j : AtsJob) (a tok : Nat) (v : List Byte × List Byte) : State :=
  if j.fmt = 6 then memWrite s (a + tok * j.d * 2) v.1
  else
    let s := memWrite s (a + tok * j.d) v.1
    let s := memWrite s (a + 16 * j.d + tok * (j.d / 32)) v.2
    memWrite s (a + 16 * j.d + 16 * (j.d / 32)) (List.replicate (128 - 16 * (j.d / 32)) 0)

/-- The page descriptor of granule `g` of an entry (R201). -/
def pageDesc (s : State) (e : LtEntry) (g : Nat) : W64 := BitVec.ofNat 64 (rdNat s.mem (e.pages % 2 ^ 50 + 8 * g) 8)

/-- The global physical address of a frame. -/
def frameOf (d : W64) : Nat := fld d 51 12 * 4096

/-- Why a granule cannot be used: cause and address (R235). -/
def granuleBad (s : State) (p h : Nat) (j : AtsJob) (e : LtEntry) (g : Nat) (write : Bool) : Option (Nat × Nat) :=
  match spanLocal s p h (e.pages + 8 * g) 8 false with
  | some a => some (5, a)
  | none =>
    let d := pageDesc s e g
    if !bit d 63 then some (1, e.pages + 8 * g)
    else if write && bit d 61 then some (2, frameOf d)
    else match spanLocal s p h (frameOf d + headAt j 0) (j.hkv * j.headBytes) write with
      | some a => some (5, a)
      | none => none

/-- The granules that hold positions `a` to `a + n − 1`. -/
def granules (a n : Nat) : List Nat := if n = 0 then [] else natsFrom (a / 16) ((a + n - 1) / 16 - a / 16 + 1)

/-- One token of one KV head appended (R214, R215). -/
def appendTok (s : State) (p h : Nat) (j : AtsJob) (e : LtEntry) (t head : Nat) : State :=
  let pos := e.lc + t
  let f := frameOf (pageDesc s e (pos / 16)) % 2 ^ 50 + headAt j head
  let src := 4 * (((e.qrow + t) * j.hkv + head) * j.d)
  let s := kvStore s j f (pos % 16) (kvEnc j.fmt (f32s s p h (j.knew + src) j.d))
  kvStore s j (f + j.arr) (pos % 16) (kvEnc j.fmt (f32s s p h (j.vnew + src) j.d))

/-- The append of one entry, or why it faults (R214, R235). -/
def appendEntry (s : State) (p h : Nat) (j : AtsJob) (e : LtEntry) : Except (Nat × Nat) State :=
  match (granules e.lc e.nq).findSome? (fun g => granuleBad s p h j e g true) with
  | some c => .error c
  | none =>
    let n := 4 * e.nq * j.hkv * j.d
    let o := 4 * e.qrow * j.hkv * j.d
    match spanLocal s p h (j.knew + o) n false, spanLocal s p h (j.vnew + o) n false with
    | some a, _ => .error (5, a)
    | _, some a => .error (5, a)
    | none, none =>
      let s := spanTouch (spanTouch s p h (j.knew + o) n) p h (j.vnew + o) n
      .ok ((List.range (e.nq * j.hkv)).foldl (fun s i => appendTok s p h j e (i / j.hkv) (i % j.hkv)) s)

/-! ### The block walk (R210 to R228) -/

/-- The query at position q attends to the key at position p (R210). -/
def attends (j : AtsJob) (e : LtEntry) (q p : Nat) : Bool :=
  decide (e.kstart ≤ p) && decide (p ≤ q) && decide (p < e.lc + e.nq) &&
  (decide (j.window = 0) || decide (q - p < j.window) || decide (p < j.global))

/-- A query in KVFMT, as a row whose elements stand at 0 (R217). -/
def queryRow (j : AtsJob) (v : List W32) : RowRef :=
  let e := kvEnc j.fmt v
  { els := wrBytes [] 0 e.1, at_ := 0, scs := wrBytes [] 0 e.2, sc := 0, fmt := j.fmt }

/-- The stored key of a token slot, K array at module offset `a`. -/
def keyRow (s : State) (j : AtsJob) (a tok : Nat) : RowRef :=
  { els := s.mem, at_ := if j.fmt = 6 then a + tok * j.d * 2 else a + tok * j.d,
    scs := s.mem, sc := a + 16 * j.d + tok * (j.d / 32), fmt := j.fmt }

/-- Element i of a stored value as BF16 bits (R218). -/
def valueBf (s : State) (j : AtsJob) (a tok i : Nat) : Nat :=
  if j.fmt = 6 then rdNat s.mem (a + 2 * (tok * j.d + i)) 2
  else
    let e := (rdB s.mem (a + 16 * j.d + tok * (j.d / 32) + i / 32)).toNat
    if e = 0xFF then 0x7FC0
    else match decEl 3 (rdB s.mem (a + tok * j.d + i)).toNat with
      | .fin v => toBf16 none (round32 (v * 2 ^ (e + 6)) 149 (decide (128 ≤ (rdB s.mem (a + tok * j.d + i)).toNat)))
      | _ => 0x7FC0

/-- The state of a row (R219): maximum, sum, output. -/
structure AtsRow where
  m : W32
  l : W32
  o : List W32
  /-- Some attended t was a NaN or +Inf (R226). -/
  bad : Bool
deriving DecidableEq, Repr

def negInf : W32 := 0xFF800000

/-- One key block of one row (R219, R220). -/
def walkBlock (s : State) (j : AtsJob) (e : LtEntry) (head qpos : Nat) (q : RowRef) (r : AtsRow) (blk : Nat) : AtsRow :=
  let keys := (List.range 64).filter (fun k => attends j e qpos (64 * blk + k))
  if keys.isEmpty then r
  else
    let place (k : Nat) : Nat := frameOf (pageDesc s e ((64 * blk + k) / 16)) % 2 ^ 50 + headAt j head
    let t := (List.range 64).map (fun k =>
      if keys.contains k then fmul (dot q (keyRow s j (place k) ((64 * blk + k) % 16)) j.d 0) j.scale else negInf)
    let bad := r.bad || t.any (fun x => isNan x || decide (x = inf32 false))
    let mn := fmax r.m (t.foldl fmax negInf)
    if mn = negInf then { r with bad := bad }
    else
      let a := fexp2 (fsub r.m mn)
      let p := t.map (fun x => toBf16 none (fexp2 (fsub x mn)))
      let l := ffma r.l a (laneTree fadd (p.map ofBf16))
      let o := r.o.map (fun x => fmul x a)
      let o := keys.foldl (fun (o : List W32) k =>
        ((List.range j.d).zip o).map (fun x =>
          bf16Step x.2 (p.getD k 0) (valueBf s j (place k + j.arr) ((64 * blk + k) % 16) x.1))) o
      { m := mn, l := l, o := o, bad := bad }

/-- A finished row: its output, its log-sum-exp, its mask bit and whether it is non-finite (R222, R225 to R227). -/
def finishRow (j : AtsJob) (r : AtsRow) : List W32 × W32 × Bool :=
  if r.bad then (List.replicate j.d nan32, nan32, false)
  else if r.m = negInf then (List.replicate j.d 0, negInf, true)
  else
    let k := frcp r.l
    (r.o.map (fun x => fmul x k), fadd r.m (fmul (fln r.l) log2e), false)

/-- The row of a query token and query head (R219, R223). -/
def attRow (s : State) (p h : Nat) (j : AtsJob) (e : LtEntry) (t qh : Nat) : List W32 × W32 × Bool :=
  let head := qh / j.g
  let qpos := e.lc + t
  let q := queryRow j (f32s s p h (j.q + 4 * (((e.qrow + t) * (j.hkv * j.g) + qh) * j.d)) j.d)
  let r0 : AtsRow := { m := negInf, l := 0, o := List.replicate j.d 0, bad := false }
  finishRow j ((List.range (qpos / 64 + 1)).foldl (walkBlock s j e head qpos q) r0)

/-- The granules that hold a key that a row of some tokens of the entry attends (R213). -/
def neededBy (j : AtsJob) (e : LtEntry) (ts : List Nat) : List Nat :=
  (granules 0 (e.lc + e.nq)).filter (fun g => (List.range 16).any (fun k => ts.any (fun t => attends j e (e.lc + t) (16 * g + k))))

/-- The granules that hold a key some row of the entry attends (R213). -/
def needed (j : AtsJob) (e : LtEntry) : List Nat := neededBy j e (List.range e.nq)

/-- The query blocks of an entry: the tokens of each run of `Config.queryBlock` rows (R195, log entry 17). -/
def qBlocks (j : AtsJob) (e : LtEntry) : List (List Nat) :=
  let heads := j.hkv * j.g
  let rows := e.nq * heads
  let b := Config.queryBlock j.d j.stageKib + 1
  (List.range (ceilDiv rows b)).map (fun i =>
    natsFrom (i * b / heads) ((min rows (i * b + b) - 1) / heads - i * b / heads + 1))

/-- Pairs of a query block and a key block that it processes (ATS.KBLK). -/
def kblocks (j : AtsJob) (e : LtEntry) : Nat :=
  ((qBlocks j e).map (fun ts => ((List.range ((e.lc + e.nq) / 64 + 1)).filter (fun b =>
    (List.range 64).any (fun k => ts.any (fun t => attends j e (e.lc + t) (64 * b + k))))).length)).foldl (· + ·) 0

/-- Granules that the query blocks of an entry skip (R213, ATS.GSKIP). -/
def gskips (j : AtsJob) (e : LtEntry) : Nat :=
  ((qBlocks j e).map (fun ts => (granules 0 (e.lc + e.nq)).length - (neededBy j e ts).length)).foldl (· + ·) 0

/-- The attention of one entry, or why it faults (R219 to R228, R235). -/
def attendEntry (s : State) (p h : Nat) (j : AtsJob) (jb : Job) (e : LtEntry) : Except (Nat × Nat) State :=
  let need := needed j e
  match need.findSome? (fun g => granuleBad s p h j e g false) with
  | some c => .error c
  | none =>
    match need.findSome? (fun g => poisoned s (frameOf (pageDesc s e g) % 2 ^ 50 + headAt j 0) (j.hkv * j.headBytes)) with
    | some a => .error (6, a)
    | none =>
      let heads := j.hkv * j.g
      let row0 := e.qrow * heads
      let rows := e.nq * heads
      match spanLocal s p h (j.q + 4 * row0 * j.d) (4 * rows * j.d) false, spanLocal s p h (j.o + 4 * row0 * j.d) (4 * rows * j.d) true,
        (if j.export_ then spanLocal s p h (j.lse + 4 * row0) (4 * rows) true else none) with
      | some a, _, _ => .error (5, a)
      | _, some a, _ => .error (5, a)
      | _, _, some a => .error (5, a)
      | none, none, none =>
        let rs := (List.range rows).map (fun i => attRow s p h j e (i / heads) (i % heads))
        let s := need.foldl (fun s g =>
          countM s (if frameOf (pageDesc s e g) % 2 ^ 50 < nearEnd then 0 else 2) (j.hkv * j.headBytes)) s
        let s := spanTouch s p h (j.q + 4 * row0 * j.d) (4 * rows * j.d)
        let s := spanWrite s p h (j.o + 4 * row0 * j.d) (rs.flatMap (fun r => regBytes r.1))
        let s := if j.export_ then spanWrite s p h (j.lse + 4 * row0) (regBytes (rs.map (·.2.1))) else s
        let nf := rs.any (fun r => r.1.any nonFinite || (j.export_ && nonFinite r.2.1 && !r.2.2))
        let s := if nf then intBit (setNf s h jb.tile (cwLayer jb.word) (cwOper jb.word)) (atsPg h) 2 else s
        let empty := (rs.filter (·.2.2)).length
        let s := bump s (atsPg h + Off.atsEmpty) empty
        let s := bump s (atsPg h + Off.atsKblk) (kblocks j e)
        .ok (bump s (atsPg h + Off.atsGskip) (gskips j e))

/-- The empty-row bits of a whole job, padded with zeros to whole bytes (R228). -/
def maskBytes (bits : List Bool) : List Byte :=
  (List.range (ceilDiv bits.length 8)).map (fun i =>
    BitVec.ofNat 8 (((List.range 8).map (fun k => if bits.getD (8 * i + k) false then 2 ^ k else 0)).foldl (· + ·) 0))

/-- Entries checked and worked through in order, with the entry index of a fault. -/
def eachEntry (f : State → LtEntry → Except (Nat × Nat) State) : Nat → List LtEntry → State → State × Option (Nat × Nat × Nat)
  | _, [], s => (s, none)
  | i, e :: r, s => match f s e with | .ok s => eachEntry f (i + 1) r s | .error c => (s, some (c.1, i, c.2))

/-- The entries of the length table with the sum of NQ before each. -/
def ltSums : Nat → List LtEntry → List (LtEntry × Nat)
  | _, [] => []
  | k, e :: r => (e, k) :: ltSums (k + e.nq) r

/-- The empty rows of every entry, for MASK (R225, R228). -/
def jobMask (s : State) (p h : Nat) (j : AtsJob) (es : List LtEntry) : List Bool :=
  es.flatMap (fun e => (List.range (e.nq * (j.hkv * j.g))).map (fun i => (attRow s p h j e (i / (j.hkv * j.g)) (i % (j.hkv * j.g))).2.2))

/-- The entry, lowest first, one of whose frames holds an address; 0 where none does. -/
def entryAt (s : State) (j : AtsJob) (es : List LtEntry) (a : Nat) : Nat :=
  (es.findIdx? (fun e => (needed j e).any (fun g =>
    let f := frameOf (pageDesc s e g) % 2 ^ 50 + headAt j 0
    decide (f ≤ a) && decide (a < f + j.hkv * j.headBytes)))).getD 0

/-- The work of a job: append, then attend, then MASK (R214, R216, R228); `err` is the address at which a read of the attend
phase meets an uncorrectable error (cause 6 of R235). -/
def atsWork (s : State) (p h : Nat) (jb : Job) (j : AtsJob) (es : List LtEntry) (err : Option Nat) :
    State × Option (Nat × Nat × Nat) :=
  match ((ltSums 0 es).zip (List.range es.length)).find? (fun x => x.1.1.bad x.1.2) with
  | some x => (s, some (3, x.2, j.lt + 32 * x.2))
  | none =>
    let (s, c) := if j.append then eachEntry (fun s e => appendEntry s p h j e) 0 es s else (s, none)
    match c with
    | some c => (s, some c)
    | none =>
      let toks := (es.map (·.nq)).foldl (· + ·) 0
      let s := if j.append then bump s (atsPg h + Off.atsAppendTok) toks else s
      if !j.attend then (s, none)
      else
        let n := ceilDiv (toks * (j.hkv * j.g)) 8
        match (if j.export_ then spanLocal s p h j.mask n true else none), err with
        | some a, _ => (s, some (5, 0, a))
        | none, some a => (s, some (6, entryAt s j es a, a))
        | none, none =>
          let bs := if j.export_ then maskBytes (jobMask s p h j es) else []
          let (s, c) := eachEntry (fun s e => attendEntry s p h j jb e) 0 es s
          match c with
          | some c => (s, some c)
          | none => (if j.export_ then spanWrite s p h j.mask bs else s, none)

/-- Job `i` of the ATTN section: jobs of 128 bytes from its start (log entry 16). -/
def atsJobAt (s : State) (p i : Nat) : Option (BitVec 1024) :=
  (resSection s p 5).bind (fun c => if i < c.count then some (BitVec.ofNat 1024 (rdNat s.mem (c.at_ + 128 * i) 128)) else none)

/-- The next waiting job runs on its worker tiles (R193, R194): its results are written and it stays BUSY until its command
completes; a fault stops it (R236). -/
def atsStart (s : State) (h : Nat) (m : MemOutcome) : State :=
  let x := getHam s h
  match x.ats, x.atsQ, x.part with
  | none, jb :: q, some p =>
    if x.atsOff || !partGoes s p then s
    else
      let raw := atsJobAt s p jb.idx
      let j := atsJob (raw.getD 0)
      let held := bitsSet (BitVec.ofNat 16 j.workers) 16
      let bad := raw.isNone || j.bad || held.any (fun t => !bit (tmap s h t) 31)
      if !bad && held.any (fun t => !unitFree s h t .grid || !unitFree s h t .mv) then s
      else
        let s := setReg (setHam s h { x with atsQ := q }) (atsPg h + Off.atsCurJob) (w32 jb.idx)
        if bad then atsFault s h jb 4 0 0
        else
          let n := (getD (getStr s h jb.tile).params j.nseqPar 0).toNat
          match spanLocal s p h j.lt (32 * n) false with
          | some a => atsFault s h jb 5 0 a
          | none =>
            let s := memErrs s h m
            let err := if hstFaults s h m.hst then some (hstAddr s h m.hst) else m.unc
            let bs := spanRead s p h j.lt (32 * n)
            let es := (List.range n).map (fun i => ltEntry (BitVec.ofNat 256 (ofBytes ((bs.drop (32 * i)).take 32))))
            let (s, c) := atsWork s p h jb j es err
            match c with
            | some c => atsFault s h jb c.1 c.2.1 c.2.2
            | none => intBit (jobDone (setHam s h { getHam s h with ats := some (jb, j.workers) }) h jb.tile .ats) (atsPg h) 1
  | _, _, _ => s

/-- The attention sequencer starts its next job (R193). -/
def execAttentionJobStart (hamlet : Nat) (mem : MemOutcome) (s : State) : Res :=
  checked (.attentionJobStart hamlet mem) (atsStart s hamlet mem)

/-- Clearing ATS.FAULT.VALID (R236). FAULT_ADDR keeps its value (log entry 17). -/
def execAtsFaultClear (w : Writer) (page : Nat) (v : W32) (s : State) : Res :=
  checked (.atsFaultClear w page v) (clearValid w (page + Off.atsFault) v [] s)

end Sys2Proof.Machine
end

