-- ==== Sys2Proof/Machine/Islands.lean ====
section
/-! DEFINITION. Clock islands, boundaries, droop, module power and temperature (R505 to R524). -/

namespace Sys2Proof.Machine

/-! ### Operating points (R508, R518, R519, R521) -/

def islKey (h i : Nat) : Nat := h * 18 + i
def getIsl (s : State) (h i : Nat) : Island := getD s.isl (islKey h i) Island.init
def setIsl (s : State) (h i : Nat) (x : Island) : State := { s with isl := putDef s.isl (islKey h i) x Island.init }

/-- ISL.FREQ of an island. -/
def islSet (s : State) (h i : Nat) : Nat := fld (regAt s (islPg h + Off.islFreq) i) 6 0

/-- MHz of a FREQ step. -/
def mhz (step : Nat) : Nat := 800 + 25 * step

/-- The operating point after `k` cap steps: the setting times 1 − k/64, down to the 25 MHz grid, at least 0.8 GHz (R519). -/
def capPoint (set k : Nat) : Nat := (mhz set * (64 - k) / 64 - 800) / 25

/-- The operating point in effect, in FREQ steps (R518, R519, R521). -/
def islEff (s : State) (h i : Nat) : Nat :=
  let p := reg s (pPwr + Off.pwrStat)
  let set := islSet s h i
  if bit p 28 then 0 else min (min set (capPoint set (fld p 6 0))) ((getIsl s h i).low.getD set)

/-- The supply setpoint of a FREQ step in mV (R508). -/
def vfAt (s : State) (step : Nat) : Nat := getD s.vf step (600 + 300 * step / 64)

/-- The FREQ step of the spine's fixed 1.6 GHz (R505). -/
def spineStep : Nat := 32

/-- Eight times the effective clock in MHz (R515). -/
def islClk8 (s : State) (h i : Nat) : Nat :=
  mhz (islEff s h i) * (match (getIsl s h i).stretch with | 0 => 8 | 1 => 7 | 2 => 6 | _ => 4)

/-- A boundary of the island is clamped: its own, and for the hamlet island any of its hamlet's. -/
def islClamped (s : State) (h i : Nat) : Bool := s.clamps.any (fun k => decide (k / 18 = h) && (decide (i = 17) || decide (k % 18 = i)))

/-- ISL.STAT of an island, as it reads. -/
def islStat (s : State) (h i : Nat) : W32 :=
  let x := getIsl s h i
  let e := islEff s h i
  w32 (x.stretch * 2 ^ 30 + (if islClamped s h i then 2 ^ 29 else 0) + (if x.escal then 2 ^ 28 else 0) + e * 2 ^ 20 + vfAt s e % 1024 * 2 ^ 10)

/-- An island's operating point lowered by 100 MHz, down to 0.8 GHz (R513, R517, R520). -/
def islLower (s : State) (h i : Nat) : State := setIsl s h i { getIsl s h i with low := some (islEff s h i - 4) }

/-! ### Settings (R509) -/

/-- Absolute difference. -/
def absDiff (a b : Nat) : Nat := (a - b) + (b - a)

/-- The setpoints of an island's setting and of its neighbours' differ by at most 200 mV; `f` gives the settings. -/
def setpointsOk (s : State) (f : Nat → Nat) (i : Nat) : Bool :=
  let near (a b : Nat) : Bool := decide (absDiff (vfAt s a) (vfAt s b) ≤ 200)
  if i = 17 then near (f 17) spineStep && (List.range 17).all (fun t => near (f t) (f 17)) else near (f i) (f 17)

/-- A new setting of the indexed islands is refused: above 64, or out of limits for an island that it changes (R509). -/
def freqRefused (s : State) (h idx step : Nat) : Bool :=
  let f (i : Nat) : Nat := if idx = 31 ∨ i = idx then step else islSet s h i
  decide (64 < step) ||
  (if idx = 31 then !(List.range 18).all (setpointsOk s f) else !setpointsOk s f idx)

/-- A write of an ISL register that IDX = 31 sends to all 18 islands of the hamlet; reads of that index are of island 0. -/
def islWrite (bcast : Bool) (w : Writer) (h off : Nat) (v : W32) (adj : W32 → W32 → Option W32) (s : State) : State :=
  let a := islPg h + off
  if regF s (islPg h + Off.islIdx) 4 0 = 31 then
    let x := writeCore w a v bcast adj (setRegAt s a 31 (regAt s a 0))
    let t := if x.ok then (List.range 18).foldl (fun s i => setRegAt s a i x.new) x.st else x.st
    setRegAt t a 31 (resetOf a)
  else (writeCore w a v bcast adj s).st

/-- A write of ISL.FREQ (R509). -/
def freqWrite (bcast : Bool) (w : Writer) (h : Nat) (v : W32) (s : State) : State :=
  islWrite bcast w h Off.islFreq v (fun _ n => if freqRefused s h (regF s (islPg h + Off.islIdx) 4 0) (fld n 6 0) then none else some n) s

/-- A write of ISL.DROOP: a threshold outside 20 to 80, or out of order, is refused. -/
def droopWrite (bcast : Bool) (w : Writer) (h : Nat) (v : W32) (s : State) : State :=
  islWrite bcast w h Off.islDroop v (fun _ n =>
    let a := fld n 7 0
    let b := fld n 15 8
    let c := fld n 23 16
    if 20 ≤ a ∧ a < b ∧ b < c ∧ c ≤ 80 then some n else none) s

/-- A write of ISL.IDX: only an island and 31 are taken. -/
def islIdxWrite (bcast : Bool) (w : Writer) (h : Nat) (v : W32) (s : State) : State :=
  (writeCore w (islPg h + Off.islIdx) v bcast (fun _ n => if fld n 4 0 ≤ 17 ∨ fld n 4 0 = 31 then some n else none) s).st

def execIslFreqWrite (w : Writer) (page : Nat) (v : W32) (s : State) : Res :=
  checked (.islFreqWrite w page v) (match hamletOf page with | some h => freqWrite false w h v s | none => s)

/-! ### Temperatures (R511, R520, R523) -/

/-- ISL.TEMP.TJ of an island in °C. -/
def islTemp (s : State) (h i : Nat) : Int :=
  let v := fld (regAt s (islPg h + Off.islTemp) i) 7 0
  if v < 128 then v else (v : Int) - 256

/-- A temperature sample: time spent above 85 °C since the sample before is added to PWR.HOT_HOURS (R523). -/
def tempSet (s : State) (h i : Nat) (t : Int) : State :=
  let x := getIsl s h i
  let hot := if 85 < islTemp s h i then s.hotNs + (s.time - x.sampled) else s.hotNs
  let s := { setIsl s h i { x with sampled := s.time } with hotNs := hot }
  let s := setReg s (pPwr + Off.pwrHotHours) (w32 (min (2 ^ 32 - 1) (hot / 3600000000000)))
  setRegAt s (islPg h + Off.islTemp) i (w32 (t % 256).toNat)

/-- The hottest island, the first of equals, and its temperature: PWR.TEMP_MAX as it reads. -/
def tempMax (s : State) : W32 :=
  let best := (List.range 2304).foldl (fun (b : Nat × Int) k =>
    let t := islTemp s (k / 18) (k % 18)
    if b.2 < t then (k, t) else b) (0, islTemp s 0 0)
  w32 (best.1 * 2 ^ 8 + (best.2 % 256).toNat)

/-! ### Boundaries (R510 to R513) -/

/-- The sides of a boundary as sampled: eight times the clocks, the supplies in mV and the temperatures. -/
structure Pair where
  ca : Nat
  cb : Nat
  mvA : Nat
  mvB : Nat
  tA : Int
  tB : Int
deriving DecidableEq, Repr

/-- The samples of a boundary: of a tile island with the hamlet island, or (17) of the hamlet island with the spine. -/
def pairOf (s : State) (h bnd mvA mvB : Nat) (tA tB : Int) : Pair :=
  ⟨islClk8 s h bnd, if bnd = 17 then 12800 else islClk8 s h 17, mvA, mvB, tA, tB⟩

/-- The temperatures of a boundary's samples kept; the spine has no register. -/
def pairTemps (s : State) (h bnd : Nat) (tA tB : Int) : State :=
  let s := tempSet s h bnd tA
  if bnd = 17 then s else tempSet s h 17 tB

/-- The pair is within a ratio of `r2`/2, `v` mV and `t` °C (R510, R513). -/
def pairWithin (x : Pair) (r2 v : Nat) (t : Int) : Bool :=
  decide (2 * max x.ca x.cb ≤ r2 * min x.ca x.cb) && decide (absDiff x.mvA x.mvB ≤ v) && decide (x.tA - x.tB ≤ t) && decide (x.tB - x.tA ≤ t)

/-- A clamp starts, counted for the island on the faster side, the tile's when the clocks are equal (R512). The spine has no
ISL page, so a clamp whose faster side it is counts for the hamlet island (log entry 34). -/
def clampStart (s : State) (h bnd : Nat) (x : Pair) : State :=
  let i := if bnd = 17 then 17 else if x.ca < x.cb then 17 else bnd
  intBit (bumpAt { s with clamps := insN s.clamps (h * 18 + bnd) } (islPg h + Off.islClampCnt) i 1) (islPg h) 0

/-- The clamp is released (R513). -/
def clampEnd (s : State) (h bnd : Nat) : State := { s with clamps := s.clamps.filter (fun k => decide (k ≠ h * 18 + bnd)) }

/-- A boundary's evaluation: a limit exceeded clamps it, and a clamped pair that is back within the release limits is released
(R511 to R513). -/
def boundaryEval (s : State) (h bnd mvA mvB : Nat) (tA tB : Int) : State :=
  if !hamletOn s h then s
  else
    let s := pairTemps s h bnd tA tB
    let x := pairOf s h bnd mvA mvB tA tB
    if s.clamps.contains (h * 18 + bnd) then (if pairWithin x 5 160 25 then clampEnd s h bnd else s)
    else if pairWithin x 6 200 30 then s
    else clampStart s h bnd x

def execBoundaryEvaluate (hamlet bnd mvA mvB : Nat) (tA tB : Int) (s : State) : Res :=
  checked (.boundaryEvaluate hamlet bnd mvA mvB tA tB) (boundaryEval s hamlet bnd mvA mvB tA tB)

/-- The side of a clamped pair that is lowered: the faster one, for a supply difference the one with the higher supply, for a
temperature difference the hotter one; `true` is the first side (R513). -/
def clampSide (x : Pair) : Bool :=
  if 5 * min x.ca x.cb < 2 * max x.ca x.cb then decide (x.cb ≤ x.ca)
  else if 160 < absDiff x.mvA x.mvB then decide (x.mvB ≤ x.mvA)
  else decide (x.tB ≤ x.tA)

/-- 20 µs of a clamp: released when the pair is within the release limits, else an island is lowered; the spine is fixed (R505,
R513). -/
def clampLower (s : State) (h bnd mvA mvB : Nat) (tA tB : Int) : State :=
  if !s.clamps.contains (h * 18 + bnd) then s
  else
    let s := pairTemps s h bnd tA tB
    let x := pairOf s h bnd mvA mvB tA tB
    if pairWithin x 5 160 25 then clampEnd s h bnd
    else if clampSide x then islLower s h bnd
    else if bnd = 17 then s
    else islLower s h 17

def execClampLower (hamlet bnd mvA mvB : Nat) (tA tB : Int) (s : State) : Res :=
  checked (.clampLower hamlet bnd mvA mvB tA tB) (clampLower s hamlet bnd mvA mvB tA tB)

/-! ### Droop (R515 to R518) -/

/-- The stretch level of a supply `mv` below the setpoint (R515). -/
def droopLevel (d : W32) (mv : Nat) : Nat :=
  if fld d 23 16 < mv then 3 else if fld d 15 8 < mv then 2 else if fld d 7 0 < mv then 1 else 0

/-- The supply falls to `mv` below the setpoint: a deeper level is taken at once; a stretch is counted when it begins (R515,
R516). -/
def droopCross (s : State) (h i mv : Nat) : State :=
  let x := getIsl s h i
  let n := droopLevel (regAt s (islPg h + Off.islDroop) i) mv
  if n ≤ x.stretch || !hamletOn s h then s
  else
    let s := setIsl s h i { x with stretch := n }
    if x.stretch = 0 then bumpAt s (islPg h + Off.islStretchCnt) i 1 else s

def execDroopCross (hamlet isl mv : Nat) (s : State) : Res := checked (.droopCross hamlet isl mv) (droopCross s hamlet isl mv)

/-- 64 cycles above the threshold: one level is released; with the last the escalation is over (R516, R517). -/
def stretchRelease (s : State) (h i : Nat) : State :=
  let x := getIsl s h i
  if x.stretch = 0 then s else setIsl s h i { x with stretch := x.stretch - 1, escal := x.escal && decide (1 < x.stretch) }

def execStretchRelease (hamlet isl : Nat) (s : State) : Res := checked (.stretchRelease hamlet isl) (stretchRelease s hamlet isl)

/-- An escalated island's operating point is lowered by 100 MHz; where R509 would refuse that, its hamlet's other islands go
down with it (R517). -/
def escalDown (s : State) (h i : Nat) : State :=
  let f (j : Nat) : Nat := if j = i then islEff s h i - 4 else islEff s h j
  if setpointsOk s f i then islLower s h i else (List.range 18).foldl (fun s j => islLower s h j) s

/-- An island stretched for ISL.SUSTAIN.US escalates (R517). -/
def escalate (s : State) (h i : Nat) : State :=
  let x := getIsl s h i
  if x.stretch = 0 || x.escal then s
  else
    let s := bumpAt (setIsl s h i { x with escal := true }) (islPg h + Off.islEscalCnt) i 1
    escalDown (intBit s (islPg h) 1) h i

def execEscalation (hamlet isl : Nat) (s : State) : Res := checked (.escalation hamlet isl) (escalate s hamlet isl)

/-- 20 µs of an escalation (R517). -/
def escalLower (s : State) (h i : Nat) : State :=
  let x := getIsl s h i
  if x.stretch ≠ 0 && x.escal then escalDown s h i else s

def execEscalationLower (hamlet isl : Nat) (s : State) : Res := checked (.escalationLower hamlet isl) (escalLower s hamlet isl)

/-- PWR.STAT.THERMAL follows the islands (R520). -/
def thermBit (s : State) : State :=
  setRegF s (pPwr + Off.pwrStat) 29 29 (if s.isl.any (fun e => e.2.therm) then 1 else 0)

/-- A lowered island that is clear rises by 100 MHz toward its setting (R518). -/
def islRestore (s : State) (h i : Nat) : State :=
  let x := getIsl s h i
  match x.low with
  | none => s
  | some p =>
    if x.stretch ≠ 0 || x.hot || islClamped s h i || bit (reg s (pPwr + Off.pwrStat)) 28 then s
    else if islSet s h i ≤ p + 4 then thermBit (setIsl s h i { x with low := none, therm := false })
    else setIsl s h i { x with low := some (p + 4) }

def execIslandRestore (hamlet isl : Nat) (s : State) : Res := checked (.islandRestore hamlet isl) (islRestore s hamlet isl)

/-! ### Module power (R519, R521) -/

/-- A 10 µs sample of the input: PWR.INPUT holds the average over the last millisecond (R519). -/
def powerSample (s : State) (watts mv : Nat) : State :=
  let l := (watts :: s.power).take 100
  setReg { s with power := l } (pPwr + Off.pwrInput) (w32 (min 65535 ((l.foldl (· + ·) 0) / l.length) * 2 ^ 16 + min 65535 mv))

def execPowerSample (watts mv : Nat) (s : State) : Res := checked (.powerSample watts mv) (powerSample s watts mv)

/-- PWR.CAP as it acts. -/
def capWatts (s : State) : Nat := min 3600 (max 1600 (regF s (pPwr + Off.pwrCap) 11 0))

/-- Every tile and hamlet island is at 0.8 GHz (R521). -/
def atFloor (s : State) : Bool := (hamletsOn s).all (fun h => (List.range 18).all (fun i => decide (islEff s h i = 0)))

/-- The number of cap steps set; a capping episode begins with the first (R519). -/
def capSet (s : State) (k : Nat) : State :=
  let a := pPwr + Off.pwrStat
  let was := regF s a 6 0
  let s := setRegF (setRegF s a 6 0 k) a 31 31 (if k = 0 then 0 else 1)
  if was = 0 ∧ 0 < k then intBit (bump s (pPwr + Off.pwrCapCnt) 1) pPwr 0 else s

/-- PWR.STAT.OVER: the cap is exceeded at the floor; the record precedes its report (R521, R581). -/
def capOver (s : State) (ovr : Bool) : State :=
  let a := pPwr + Off.pwrStat
  if ovr && !bit (reg s a) 30 then
    let s := bbr s { cat := 6, code := 2, loc := pPwr, arg0 := (reg s (pPwr + Off.pwrInput)).toNat, arg1 := (reg s (pPwr + Off.pwrCap)).toNat }
    intBit (setRegF s a 30 30 1) pPwr 1
  else if ovr then s else setRegF s a 30 30 0

/-- 100 µs of the power controller: one cap step down while the average exceeds the cap, one up while it stays below 95 % of it
(R519, R521). -/
def capStep (s : State) : State :=
  let avg := regF s (pPwr + Off.pwrInput) 31 16
  let cap := capWatts s
  let k := regF s (pPwr + Off.pwrStat) 6 0
  if cap < avg then
    if atFloor s then capOver s true else capOver (capSet s (min 64 (k + 1))) false
  else capOver (if 100 * avg < 95 * cap then capSet s (k - 1) else s) false

def execCapStep (s : State) : Res := checked .capStep (capStep s)

/-- The floor under HALT, and its end: every island then rises from 0.8 GHz (R518, R521, R578, R579). -/
def haltFloor (s : State) (on : Bool) : State :=
  let s' := setRegF s (pPwr + Off.pwrStat) 28 28 (if on then 1 else 0)
  if on || !bit (reg s (pPwr + Off.pwrStat)) 28 then s'
  else { s' with isl := (List.range 2304).map (fun k => (k, { getD s.isl k Island.init with low := some 0 })) }

/-! ### Temperature (R520, R522) -/

/-- PWR.TJ as it acts. -/
def tjMax (s : State) : Nat := min 105 (max 70 (regF s (pPwr + Off.pwrTj) 7 0))

/-- 1 ms of an island's temperature control: an episode begins above TJ_MAX, lowers the island each time, and ends below
TJ_MAX − 3 °C (R520). -/
def thermalLower (s : State) (h i : Nat) (t : Int) : State :=
  if !hamletOn s h then s
  else
    let s := tempSet s h i t
    let x := getIsl s h i
    let m := tjMax s
    if x.hot then
      if t < (m : Int) - 3 then setIsl s h i { x with hot := false } else islLower s h i
    else if t ≤ (m : Int) then s
    else
      let s := bump (setIsl s h i { x with hot := true, therm := true }) (pPwr + Off.pwrThermCnt) 1
      let first := !bit (reg s (pPwr + Off.pwrStat)) 29
      let s := intBit (thermBit (islLower s h i)) (islPg h) 2
      if first then intBit s pPwr 2 else s

def execThermalLower (hamlet isl : Nat) (temp : Int) (s : State) : Res :=
  checked (.thermalLower hamlet isl temp) (thermalLower s hamlet isl temp)

/-- A junction at 110 °C: the record is written, dispatch stops and the compute dies lose their power (R522, R584). -/
def thermalTrip (s : State) (h i : Nat) (t : Int) : State :=
  if t < 110 || !hamletOn s h || s.dark then s
  else
    let s := tempSet s h i t
    { bbr s { cat := 6, code := 1, loc := islPg h, arg0 := islKey h i, arg1 := t.toNat } with dark := true, tripped := true }

def execThermalTrip (hamlet isl : Nat) (temp : Int) (s : State) : Res :=
  checked (.thermalTrip hamlet isl temp) (thermalTrip s hamlet isl temp)

/-! ### References (R507) -/

/-- A reference is lost: 0 the 156.25 MHz one, 1 the 100 MHz one (R507). -/
def refLoss (s : State) (which : Nat) : State :=
  let b := 31 - which
  let a := pClk + Off.clkStat
  if bit (reg s a) b then intBit (bump (setRegF s a b b 0) (pClk + Off.clkRefLoss) 1) pClk 0 else s

def execRefLoss (which : Nat) (s : State) : Res := checked (.refLoss which) (refLoss s which)

/-- A reference is present again. -/
def refBack (s : State) (which : Nat) : State := setRegF s (pClk + Off.clkStat) (31 - which) (31 - which) 1

def execReferenceClockReturn (which : Nat) (s : State) : Res := checked (.referenceClockReturn which) (refBack s which)

end Sys2Proof.Machine
end

