-- ==== Sys2Proof/Machine/Loft.lean ====
section
/-! DEFINITION. The loft (R401 to R412): its object directory, its commands, patrol, member failures and rebuild. Parity units
are functions of the data units (R401), so the state holds the data; which stripes a failure loses is an operand of the event
(log entry 23). -/

namespace Sys2Proof.Machine

def getObj (s : State) (i : Nat) : Option LoftObj := getS s.loft i
def setObj (s : State) (i : Nat) (o : LoftObj) : State := { s with loft := putS s.loft i o }

/-- Live members, as LFT.STAT.LIVE shows them. -/
def loftLive (s : State) : Nat := ((List.range 10).filter (fun m => bit (reg s (pLft + Off.lftStat)) m)).length
def loftState (s : State) : Nat := regF s (pLft + Off.lftStat) 31 30

/-- Bytes of the objects that the loft stores: a LOST object has none. -/
def loftUsed (s : State) : Nat := ((s.loft.filter (fun e => decide (e.2.st ≠ 2))).map (fun e => e.2.len)).foldl (· + ·) 0

/-- Usable bytes with `w` members (R402). -/
def loftCap (w : Nat) : Nat := if w < 4 then 0 else min (16 * 2 ^ 40) ((w - 2) * (5 * 2 ^ 39))

/-- LFT.CAP, USED in GiB, rounded up. -/
def loftCounts (s : State) : State :=
  setReg (setReg s (pLft + Off.lftCap) (w32 (ceilDiv (loftCap (loftLive s)) (2 ^ 30)))) (pLft + Off.lftUsed)
    (w32 (ceilDiv (loftUsed s) (2 ^ 30)))

/-- An object becomes LOST: counted, recorded (R411, R412). -/
def objLost (s : State) (i stripe : Nat) : State :=
  match getObj s i with
  | none => s
  | some o =>
    if o.st = 2 then s
    else
      let s := setObj s i { o with st := 2, data := [] }
      let s := bbr s { cat := 3, code := 5, cause := 3, loc := pLft, arg0 := i, arg1 := stripe }
      intBit (bump s (pLft + Off.lftLost) 1) pLft 2

/-- Lost stripes recorded, and every object with a byte on one LOST (R411). -/
def stripesLost (s : State) (ls : List LostObj) : State :=
  let s := ((ls.map (·.stripe)).eraseDups).foldl (fun s k => bbr s { cat := 3, code := 5, cause := 2, loc := pLft, arg1 := k }) s
  loftCounts (ls.foldl (fun s x => objLost s x.obj x.stripe) s)

/-! ### Commands (R403 to R405, R411) -/

/-- The module offset of a span of this module's memory; none where it lies outside (RESULT 6). -/
def loftSpan (s : State) (a n : Nat) : Option Nat :=
  let o := a % 2 ^ 50
  if a / 2 ^ 52 = 0 ∧ a / 2 ^ 50 % 4 = trayPos s ∧ (o + n ≤ nearEnd ∨ (farBase ≤ o ∧ o + n ≤ farEnd)) then some o else none

/-- A directory entry (R403). -/
def dirEntry (i : Nat) (o : LoftObj) : List Byte :=
  bytesOf 4 i ++ bytesOf 1 o.typ ++ bytesOf 1 o.st ++ bytesOf 1 (if o.fetchable then 1 else 0) ++ bytesOf 1 0 ++ bytesOf 8 o.len ++
  bytesOf 8 o.created ++ o.digest ++ List.replicate 56 0

/-- An object's bytes. -/
def objBytes (o : LoftObj) : List Byte := rdBytes o.data 0 o.len

/-- READ, with the sectors that were rebuilt from parity and how the digest check came out: 0 it held, 1 at the second
reading, 2 not at all (R405, R406). -/
def loftRead (s : State) (obj a n sectors bad : Nat) : State × Nat :=
  match getObj s obj with
  | none => (s, 1)
  | some o =>
    if o.st = 2 then (s, 2)
    else if o.st ≠ 0 then (s, 1)
    else match loftSpan s a (min n o.len) with
      | none => (s, 6)
      | some off =>
        let s := bump s (pLft + Off.lftSectErr) sectors
        if 2 ≤ bad then (loftCounts (objLost s obj 0), 3)
        else (memWrite s off (rdBytes o.data 0 (min n o.len)), 0)

/-- WRITE: the object is WRITING until the command ends (R404). -/
def loftWrite (s : State) (obj a n typ : Nat) (fetchable : Bool) : State × Nat :=
  let free := match getObj s obj with | some o => decide (o.st = 2) | none => true
  if obj = 0 ∨ obj = 0xFFFFFFFF then (s, 1)
  else if !free then (s, 5)
  else if loftCap (loftLive s) < loftUsed s + n then (s, 4)
  else match loftSpan s a n with
    | none => (s, 6)
    | some off =>
      let bs := rdBytes s.mem off n
      (loftCounts (setObj s obj { typ := typ, st := 1, fetchable := fetchable, len := n, created := 0, digest := sha384 bs,
                                  data := wrBytes [] 0 bs }), 0)

def loftDelete (s : State) (obj : Nat) : State × Nat :=
  match getObj s obj with
  | none => (s, 1)
  | some _ => (loftCounts { s with loft := delS s.loft obj }, 0)

/-- DIR: the directory, at most LEN bytes of it. -/
def loftDir (s : State) (a n : Nat) : State × Nat :=
  let bs := (s.loft.flatMap (fun e => dirEntry e.1 e.2)).take n
  match loftSpan s a bs.length with
  | none => (s, 6)
  | some off => (memWrite s off bs, 0)

/-- FETCH: the file store's bytes are checked against DIGEST; they replace the object when the command ends (R411). -/
def loftFetch (s : State) (obj : Nat) (data : List Byte) : State × Nat :=
  match getObj s obj with
  | none => (s, 1)
  | some o =>
    if !o.fetchable then (s, 2)
    else if data.length = o.len ∧ sha384 data = o.digest then (setObj s obj { o with st := 3 }, 0)
    else (s, 3)

/-- A command started by GO. -/
def loftRun (s : State) (sectors bad : Nat) (data : List Byte) : State :=
  let op := regF s (pLft + Off.lftCmd) 31 24
  let obj := (reg s (pLft + Off.lftCmdObj)).toNat
  let a := pair s (pLft + Off.lftCmdAddrLo)
  let n := pair s (pLft + Off.lftCmdLenLo)
  let r : State × Nat :=
    if loftState s = 3 then (s, 7)
    else match op with
      | 1 => loftRead s obj a n sectors bad
      | 2 => loftWrite s obj a n (regF s (pLft + Off.lftCmd) 23 16) (bit (reg s (pLft + Off.lftCmd)) 0)
      | 3 => loftDelete s obj
      | 4 => loftDir s a n
      | 5 => loftFetch s obj data
      | _ => (s, 1)
  { setReg r.1 (pLft + Off.lftCmdStat) (w32 (2 ^ 31)) with lcmd := some ⟨op, obj, r.2, data⟩ }

/-- A write of LFT.CMD_GO. -/
def loftGo (w : Writer) (v : W32) (sectors bad : Nat) (data : List Byte) (s : State) : State :=
  let x := writePlain w (pLft + Off.lftCmdGo) v s
  if !x.ok || !bit x.wo 0 then x.st
  else if bit (reg s (pLft + Off.lftCmdStat)) 31 || bit (reg s (pLft + Off.pageCtl)) 1 then errInc x.st pLft
  else loftRun x.st sectors bad data

/-- The write of CMD_GO with CMD.OP holding the row's opcode. -/
def loftRow (op : Nat) (w : Writer) (v : W32) (sectors bad : Nat) (data : List Byte) (s : State) : State :=
  when (decide (regF s (pLft + Off.lftCmd) 31 24 = op)) (loftGo w v sectors bad data) s

def execLoftRead (w : Writer) (v : W32) (sectors bad : Nat) (s : State) : Res :=
  checked (.loftRead w v sectors bad) (loftRow 1 w v sectors bad [] s)
def execLoftWrite (w : Writer) (v : W32) (s : State) : Res := checked (.loftWrite w v) (loftRow 2 w v 0 0 [] s)
def execLoftDelete (w : Writer) (v : W32) (s : State) : Res := checked (.loftDelete w v) (loftRow 3 w v 0 0 [] s)
def execLoftDir (w : Writer) (v : W32) (s : State) : Res := checked (.loftDir w v) (loftRow 4 w v 0 0 [] s)
def execLoftFetch (w : Writer) (v : W32) (data : List Byte) (s : State) : Res :=
  checked (.loftFetch w v data) (loftRow 5 w v 0 0 data s)

/-- The command ends: a written object is VALID, a fetched one too, RESULT shows (R404, R411). -/
def loftDone (s : State) : State :=
  match s.lcmd with
  | none => s
  | some c =>
    let s := match getObj s c.obj with
      | some o =>
        if c.op = 2 ∧ c.res = 0 ∧ o.st = 1 then setObj s c.obj { o with st := 0, created := s.time }
        else if c.op = 5 ∧ c.res = 0 ∧ o.st = 3 then setObj s c.obj { o with st := 0, data := wrBytes [] 0 c.data, created := s.time }
        else s
      | none => s
    intBit (loftCounts { setReg s (pLft + Off.lftCmdStat) (w32 c.res) with lcmd := none }) pLft 3

def execLoftCommandDone (s : State) : Res := checked .loftCommandDone (loftDone s)

/-! ### Patrol, failure, rebuild (R402, R407 to R412) -/

/-- A patrol pass: sectors corrected and counted, stripes lost (R406, R407). -/
def execLoftPatrol (sectors : Nat) (lost : List LostObj) (s : State) : Res :=
  checked (.loftPatrol sectors lost) (when (decide (regF s (pLft + Off.lftCfg) 15 8 ≠ 0) && decide (loftState s ≠ 3))
    (fun s => stripesLost (bump s (pLft + Off.lftSectErr) sectors) lost) s)

/-- The object that R412 frees first: checkpoint caches by age, then black-box mirrors, then base weights by size. -/
def freeNext (s : State) : Option (Nat × LoftObj) :=
  let of (t : Nat) : List (Nat × LoftObj) := s.loft.filter (fun e => decide (e.2.typ = t) && decide (e.2.st ≠ 2))
  let best (le : LoftObj → LoftObj → Bool) : List (Nat × LoftObj) → Option (Nat × LoftObj)
    | [] => none
    | e :: r => some (r.foldl (fun b c => if le b.2 c.2 then b else c) e)
  match best (fun a b => decide (a.created ≤ b.created)) (of 5) with
  | some e => some e
  | none => match (of 4).head? with
    | some e => some e
    | none => best (fun a b => decide (b.len ≤ a.len)) (of 1)

/-- Objects freed until the stored bytes fit (R412). -/
def freeObjs : Nat → State → State
  | 0, s => s
  | k + 1, s =>
    if loftUsed s ≤ loftCap (loftLive s) then s
    else match freeNext s with
      | none => s
      | some (i, o) => freeObjs k (if o.typ = 5 then { s with loft := delS s.loft i } else objLost s i 0)

/-- A member fails: the target geometry shrinks and a rebuild starts, or with fewer than four members the loft is FAILED and
every object LOST (R402, R408, R409, R412). -/
def memberFail (s : State) (m : Nat) (lost : List LostObj) : State :=
  let a := pLft + Off.lftStat
  if !bit (reg s a) m then s
  else
    let s := bbr s { cat := 3, code := 5, cause := 1, loc := pLft, arg0 := m }
    let s := setReg s a (setBit (reg s a) m false)
    let w := loftLive s
    let s := setRegF s a 19 16 w
    let s := intBit s pLft 0
    if w < 4 then
      loftCounts (setReg (setRegF ((s.loft.map (·.1)).foldl (fun s i => objLost s i 0) s) a 31 30 3) (pLft + Off.lftTodo) 0)
    else
      let s := stripesLost (setRegF s a 31 30 2) lost
      let s := loftCounts (freeObjs s.loft.length s)
      setReg s (pLft + Off.lftTodo) (w32 (ceilDiv (loftUsed s) (2 ^ 30)))

def execLoftMemberFail (m : Nat) (lost : List LostObj) (s : State) : Res := checked (.loftMemberFail m lost) (memberFail s m lost)

/-- The rebuild is complete (R408); with fewer than ten members the loft is DEGRADED (log entry 23). -/
def execLoftRebuildDone (s : State) : Res :=
  checked .loftRebuildDone (when (decide (loftState s = 2)) (fun s =>
    let s := setRegF s (pLft + Off.lftStat) 31 30 (if loftLive s = 10 then 0 else 1)
    intBit (setReg s (pLft + Off.lftTodo) 0) pLft 1) s)

end Sys2Proof.Machine
end

