-- ==== Sys2Proof/Machine/Crier.lean ====
section
/-! DEFINITION. The crier: origination through the token bucket, sending on every live plane, duplicates and relays (R468 to
R471), and the membership-epoch check that every packet meets (R425). -/

namespace Sys2Proof.Machine

/-- The page of a Yelyo port; an Ethernet arrival counts in YLK0 (log entry 25). -/
def ylkPg (p : Nat) : Nat := pYlk0 + 4096 * (if p < 16 then p else 0)

/-- A packet whose membership epoch differs is dropped and counted: one that precedes or follows the module's (R425, R655). -/
def epochDrop (s : State) (port mepoch : Nat) : State :=
  if serialAfter mepoch s.mepoch then bump s (ylkPg port + Off.ylkAheadDrop) 1
  else intBit (bump s (ylkPg port + Off.ylkStaleDrop) 1) (ylkPg port) 3

/-! ### The packet (the table above R468) -/

/-- The 64 payload bytes. -/
def criBytes (k : Crier) : List Byte :=
  bytesOf 1 k.typ ++ bytesOf 1 k.hops ++ bytesOf 2 k.seq ++ bytesOf 2 k.origin ++ bytesOf 2 0 ++ bytesOf 8 k.time ++
  (k.args ++ List.replicate 48 0).take 48

/-- The crier packet that 64 payload bytes give. -/
def criParse (dst mepoch : Nat) (bs : List Byte) (plane : Nat) : Crier :=
  let f (o n : Nat) : Nat := ofBytes ((bs.drop o).take n)
  { dst := dst, origin := f 4 2, mepoch := mepoch, typ := f 0 1, hops := f 1 1 % 2, seq := f 2 2, time := f 8 8,
    args := (bs.drop 16).take 48, plane := plane }

/-- A field of ARGS. -/
def criArg (k : Crier) (o n : Nat) : Nat := ofBytes ((k.args.drop o).take n)

/-! ### Sending (R469 to R471) -/

/-- The planes of a crier packet: every live plane of its destination; for a broadcast every port that is up (R469, R471). -/
def criPlanes (s : State) (dst : Nat) : List Nat :=
  if dst = 0xFFFF then (List.range 16).filter (fun p => decide (portState s p = 2) || decide (portState s p = 3))
  else if bit (planeEntry s dst) 31 then livePlanes s dst
  else [16]

/-- One copy on one plane. -/
def criPut (s : State) (k : Crier) (dst plane : Nat) : State :=
  let (s, seq) := takeSeq s dst 7
  launch s { dst := dst, src := modId s, mepoch := k.mepoch, op := 9, flags := 0, len := 64, part := 0, seq := seq, tag := 0, addr := 0,
             data := criBytes k, vc := 7, port := 0 } plane

/-- The modules of the relay table (CRI.RELAY_BASE, CRI.RELAY_CNT). -/
def relays (s : State) : List Nat :=
  (List.range (min 32 (regF s (pCri + Off.criRelayCnt) 5 0))).map (fun i => rdNat s.mem (pair s (pCri + Off.criRelayBaseLo) % 2 ^ 50 + 2 * i) 2)

def isRelay (s : State) : Bool := bit (reg s (pCri + Off.criCfg)) 0

/-- The crier priority is paused on all four Ethernet ports (R440). -/
def ethPaused (s : State) : Bool := (List.range 4).all (fun p => decide (s.time < getD s.paused p 0))

/-- Copies to the relay table over Ethernet; they wait while every port is paused (R440; log entry 27). -/
def toRelays (s : State) (k : Crier) : State :=
  if ethPaused s then { s with criHold := s.criHold ++ [k] } else (relays s).foldl (fun s m => criPut s k m 16) s

/-- The copies that waited for a pause go. -/
def relaysGo (s : State) : State :=
  if ethPaused s || s.quar then s else s.criHold.foldl toRelays { s with criHold := [] }

/-- A packet leaves on all its planes; in QUARANTINE none does (R571). -/
def criLeave (s : State) (k : Crier) : State :=
  if s.quar then s
  else
    let s := (criPlanes s k.dst).foldl (fun s p => criPut s k k.dst p) s
    if k.dst = 0xFFFF && isRelay s && decide (k.hops = 0) then toRelays s k else s

/-- The bucket filled up to now: its depth and refill period as CRI.CFG says (R470). -/
def criFill (s : State) : State :=
  let c := reg s (pCri + Off.criCfg)
  let period := 100 * max 1 (fld c 23 16)
  let depth := min 8 (max 1 (fld c 11 8))
  let n := (s.time - s.criAt) / period
  { s with criTok := min depth (s.criTok + n), criAt := s.criAt + n * period }

/-- A packet originated: sent at once with a token, else it waits and is counted (R470). -/
def criGo (s : State) (k : Crier) : State :=
  let s := bump (criFill s) (pCri + Off.criTxCnt) 1
  if s.criQ.isEmpty && decide (0 < s.criTok) then criLeave { s with criTok := s.criTok - 1 } k
  else intBit (bump { s with criQ := s.criQ ++ [k] } (pCri + Off.criLimited) 1) pCri 0

/-- A packet of this module with the next CSEQ (R468). -/
def criNew (s : State) (dst typ : Nat) (args : List Byte) : State :=
  if s.quar then s
  else criGo { s with criSeq := (s.criSeq + 1) % 65536 }
    { dst := dst, origin := modId s, mepoch := s.mepoch, typ := typ, hops := 0, seq := s.criSeq, time := s.time, args := args, plane := 0 }

/-- A write of CRI.TX_GO (CRI.TX_DST, TX_TYPE and TX_ARG0 to TX_ARG3 describe the packet). -/
def criTxGo (w : Writer) (v : W32) (s : State) : State :=
  let x := writePlain w (pCri + Off.criTxGo) v s
  if x.ok && bit x.wo 0 then
    let s := x.st
    criNew s (regF s (pCri + Off.criTxDst) 15 0) (regF s (pCri + Off.criTxType) 7 0)
      ((List.range 4).flatMap (fun i => bytesOf 4 (reg s (pCri + Off.criTxArg + 4 * i)).toNat) ++ List.replicate 32 0)
  else x.st

def execCrierOriginate (w : Writer) (v : W32) (s : State) : Res := checked (.crierOriginate w v) (criTxGo w v s)

/-- The oldest waiting packet goes once a token is free (R470). -/
def criSend (s : State) : State :=
  let s := relaysGo s
  let s' := criFill s
  match s'.criQ with
  | k :: r => if 0 < s'.criTok then criLeave { s' with criQ := r, criTok := s'.criTok - 1 } k else s
  | [] => s

def execCrierSend (s : State) : Res := checked .crierSend (criSend s)

/-! ### Receiving (R425, R469, R471) -/

/-- A CSEQ of an origin has been applied, or lies below the window (R469; log entry 27). -/
def criSeen (s : State) (o q : Nat) : Bool :=
  match getS s.criRx o with
  | none => false
  | some (top, l) => !serialAfter q top && (l.contains q || decide (1024 ≤ (top + 65536 - q) % 65536))

/-- A CSEQ joins the window of its origin. -/
def criMark (s : State) (o q : Nat) : State :=
  let x := getD s.criRx o (q, [])
  let top := if serialAfter q x.1 then q else x.1
  { s with criRx := putS s.criRx o (top, (q :: x.2).filter (fun y => decide ((top + 65536 - y) % 65536 < 1024))) }

/-- A relay passes a broadcast on: to the relay table when it comes from its rack; when it comes over Ethernet, to its own
rack with RELAYED set, and one level further down (R471; log entry 27). -/
def criRelay (s : State) (k : Crier) : State :=
  if k.dst ≠ 0xFFFF || !isRelay s || s.quar then s
  else if k.plane < 16 then (if k.hops = 0 then toRelays s k else s)
  else
    let s := (criPlanes s 0xFFFF).foldl (fun s p => criPut s { k with hops := 1 } 0xFFFF p) s
    if k.hops = 0 then toRelays s { k with hops := 1 } else s

/-- MEMBERSHIP packets and FENCEs of KIND MODULE are applied whatever their epoch (R425, R572; log entry 27). -/
def criExempt (k : Crier) : Bool := decide (k.typ = 1) || (decide (k.typ = 2) && decide (criArg k 0 1 = 1))

/-- A crier packet that arrives: epoch check, first copy only, counted, relayed, applied by `f`. -/
def criIn (k : Crier) (f : State → State) (s : State) : State :=
  if !criExempt k && decide (k.mepoch ≠ s.mepoch) then epochDrop s k.plane k.mepoch
  else if criSeen s k.origin k.seq then bump s (pCri + Off.criDup) 1
  else
    let s := bump (criMark s k.origin k.seq) (pCri + Off.criRxCnt) 1
    let lat := min (2 ^ 32 - 1) (s.time - k.time)
    let s := { s with heard := s.time }
    let a := pCri + Off.criLatMax
    let s := if (reg s a).toNat < lat then setReg s a (w32 lat) else s
    let s := if 4000 < lat then intBit s pCri 1 else s
    f (criRelay s k)

end Sys2Proof.Machine
end

