-- ==== Sys2Proof/Machine/Requests.lean ====
section
/-! DEFINITION. Request entries (R272 to R276), their frames (R201, R230, R232, R283, R299, R310), their records (R290 to R294,
R297, R298) and the rings they go to (R487, R488, R490). -/

namespace Sys2Proof.Machine

/-! ### The request table -/

def getReq (s : State) (i : Nat) : Req := getD s.reqs i Req.free
def setReq (s : State) (i : Nat) (r : Req) : State := { s with reqs := putDef s.reqs i r Req.free }

/-- State codes (R275). -/
abbrev stFree : Nat := 0
abbrev stQueued : Nat := 1
abbrev stPrefill : Nat := 2
abbrev stDecode : Nat := 3
abbrev stSpec : Nat := 4
abbrev stPaused : Nat := 5
abbrev stParked : Nat := 6
abbrev stExpired : Nat := 7
abbrev stShipped : Nat := 8
abbrev stDone : Nat := 9
abbrev stFaulted : Nat := 10

/-- The request is in the step in flight. -/
def inFlightReq (r : Req) : Bool := decide (r.st = stPrefill) || decide (r.st = stDecode) || decide (r.st = stSpec)

/-- The Submitter fields of an entry image, with the module's own fields as a SUBMIT sets them (R272, R280). -/
def reqOfImage (w : W1024) : Req :=
  { Req.free with
    prio := recF w 0x01 1, part := recF w 0x04 1, bclass := recF w 0x05 1, profile := recF w 0x06 2, lk := recF w 0x10 4,
    lmax := recF w 0x14 4, pageList := recF w 0x18 8, tokAddr := recF w 0x20 8, deadline := recF w 0x28 8,
    seed := recF w 0x3C 4, ttl := recF w 0x40 4, eot := recF w 0x44 4, eos := recF w 0x48 4, envQp := recF w 0x4C 2,
    traj := recF w 0x50 8, ship := recF w 0x60 4, flags := recF w 0x64 4, draftAddr := recF w 0x68 8, shipTok := recF w 0x70 8,
    pin := 0xFFFFFFFF, fresh := true }

/-- The 128 bytes of an entry (R272). -/
def reqBytes (r : Req) : List Byte :=
  bytesOf 1 r.st ++ bytesOf 1 r.prio ++ bytesOf 2 r.func ++ bytesOf 1 r.part ++ bytesOf 1 r.bclass ++ bytesOf 2 r.profile ++
  bytesOf 4 r.lc ++ bytesOf 4 r.lt ++ bytesOf 4 r.lk ++ bytesOf 4 r.lmax ++ bytesOf 8 r.pageList ++ bytesOf 8 r.tokAddr ++
  bytesOf 8 r.deadline ++ bytesOf 8 r.admitNo ++ bytesOf 4 r.pin ++ bytesOf 4 r.seed ++ bytesOf 4 r.ttl ++ bytesOf 4 r.eot ++
  bytesOf 4 r.eos ++ bytesOf 2 r.envQp ++ bytesOf 1 r.ndraft ++ bytesOf 1 r.cause ++ bytesOf 8 r.traj ++ bytesOf 8 r.expiry ++
  bytesOf 4 r.ship ++ bytesOf 4 r.flags ++ bytesOf 8 r.draftAddr ++ bytesOf 8 r.shipTok ++ bytesOf 8 r.pausedAt

/-- A field of the entry image is outside R272 or R273: a bit that is zero in the layout is set, or a length is out of range. -/
def imageBad (w : W1024) : Bool :=
  decide (8 ≤ recF w 0x01 1) || decide (32 ≤ recF w 0x04 1) || decide (4 ≤ recF w 0x05 1) || decide (4096 ≤ recF w 0x06 2) ||
  decide (2 ^ 31 ≤ recF w 0x3C 4) || decide (recF w 0x4C 2 / 2 ^ 14 % 2 = 1) || decide (recF w 0x60 4 / 2 ^ 21 % 2 ^ 10 ≠ 0) ||
  decide (4 ≤ recF w 0x64 4) || decide (recF w 0x18 8 % 8 ≠ 0) ||
  decide (recF w 0x14 4 < 2) || decide (16777216 < recF w 0x14 4) || decide (recF w 0x10 4 < 1) || decide (recF w 0x14 4 ≤ recF w 0x10 4)

/-- The GRANARY and the HOST flag of a request. -/
def Req.granary (r : Req) : Bool := decide (r.flags % 2 = 1)
def Req.host (r : Req) : Bool := decide (r.flags / 2 % 2 = 1)

/-- Requests of a function that are not FREE (FNC.STAT.ACTIVE). -/
def activeOf (s : State) (n : Nat) : Nat := (s.reqs.filter (fun e => decide (e.2.st ≠ stFree) && decide (e.2.func = n))).length

/-- The slots of a partition's requests, ascending. -/
def slotsOf (s : State) (p : Nat) : List Nat :=
  (s.reqs.filter (fun e => decide (e.2.st ≠ stFree) && decide (e.2.part = p))).map (·.1)

/-- The offset in this module of a global physical address (R188). -/
def gOff (a : Nat) : Nat := a % 2 ^ 50

/-! ### Functions (R480 to R483, R491) -/

def fnOn (s : State) (n : Nat) : Bool := bit (reg s (fncPg n + Off.fncCfg)) 31

/-- The function is assigned to the partition (R481). -/
def assigned (s : State) (n p : Nat) : Bool := bit (reg s (fncPg n + Off.fncPmask)) p && decide ((getPart s p).st ≠ .free)

/-- A slot lies in a function's slot range (R482). -/
def inSlots (s : State) (n i : Nat) : Bool :=
  let v := reg s (fncPg n + Off.fncSlots)
  decide (fld v 29 16 ≤ i) && decide (i < fld v 29 16 + fld v 14 0)

/-- The enabled function whose slot range holds a slot (R278). -/
def slotOwner (s : State) (i : Nat) : Option Nat := (List.range 512).find? (fun n => fnOn s n && inSlots s n i)

/-- Entry `i` of a function's allocation table: base, length, flags (R483). -/
def allocEntry (s : State) (n i : Nat) : Nat × Nat × Nat :=
  let a := gOff (pair s (fncPg n + Off.fncAllocBaseLo)) + 16 * i
  (rdNat s.mem a 8, rdNat s.mem (a + 8) 4, rdNat s.mem (a + 12) 4)

/-- A span lies in one of the function's own allocations (R278, R483). -/
def inAllocs (s : State) (n a len : Nat) : Bool :=
  (List.range 64).any (fun i =>
    let e := allocEntry s n i
    decide (e.2.2 % 2 = 1) && decide (e.1 ≤ a) && decide (a + len ≤ e.1 + e.2.1))

/-! ### Host rings (R487, R488) -/

def hrLog (s : State) (n : Nat) : Nat := regF s (fncPg n + Off.fncRings) 12 8
def hrProd (s : State) (n : Nat) : W32 := reg s (fncPg n + Off.fncHringProd)

/-- Records in the ring that the host has not consumed. -/
def hrUsed (s : State) (n : Nat) : Nat := (hrProd s n - reg s (fncPg n + Off.fncHringCons)).toNat

/-- The room of a host ring (R487). -/
def hrRoom (s : State) (n : Nat) : Nat := 2 ^ hrLog s n - hrUsed s n

/-- Records dropped (R488); the PF's page has no counter for them. -/
def hrDrop (s : State) (n k : Nat) : State :=
  if n = 0x200 ∨ k = 0 then s else intBit (bump s (fncPg n + Off.fncHrDrop) k) (fncPg n) 1

/-- One record in the next slot of a host ring, then the count after the ring (R487). -/
def hrPut (s : State) (n : Nat) (r : List Byte) : State :=
  let base := pair s (fncPg n + Off.fncHringBaseLo)
  let k := 2 ^ hrLog s n
  let c := hrProd s n
  let s := setReg s (fncPg n + Off.fncHringProd) (c + 1)
  { s with host := wrNat (wrBytes s.host (base + 32 * (c.toNat % k)) r) (base + 32 * k) 4 (c + 1).toNat }

/-- Waiting STATUS records written while there is room (R488). -/
def hrDrainList (n : Nat) : List (List Byte) → State → State × List (List Byte)
  | [], s => (s, [])
  | r :: t, s => if hrRoom s n = 0 then (s, r :: t) else hrDrainList n t (hrPut s n r)

def hrDrain (s : State) (n : Nat) : State :=
  let x := hrDrainList n (getD s.hrWait n []) s
  { x.1 with hrWait := putDef x.1.hrWait n x.2 [] }

/-- A STATUS record for a function's host ring (R488). -/
def hrStatus (s : State) (n : Nat) (r : List Byte) : State :=
  if hrLog s n = 0 then hrDrop s n 1
  else
    let s := hrDrain s n
    let w := getD s.hrWait n []
    if w.isEmpty ∧ 0 < hrRoom s n then hrPut s n r
    else if w.length < 1024 then { s with hrWait := putDef s.hrWait n (w ++ [r]) [] }
    else hrDrop s n 1

/-- A token record for a function's host ring; R281 has kept room for it behind the waiting STATUS records. -/
def hrToken (s : State) (n : Nat) (r : List Byte) : State :=
  if hrLog s n = 0 then hrDrop s n 1
  else
    let s := hrDrain s n
    if (getD s.hrWait n []).isEmpty ∧ 0 < hrRoom s n then hrPut s n r else hrDrop s n 1

/-- The function whose host ring has its count at a register address. -/
def ringFn (a : Nat) : Option Nat :=
  if a % 4096 ≠ Off.fncHringProd then none
  else if 0x100 ≤ a / 4096 ∧ a / 4096 < 0x300 then some (a / 4096 - 0x100)
  else if a / 4096 = 0x70 then some 0x200 else none

/-- The functions whose host-ring count differs between two states. -/
def ringsMoved (before s : State) : List Nat :=
  (((before.regs ++ s.regs).filterMap (fun e => ringFn e.1)).eraseDups).filter (fun n => decide (hrProd s n ≠ hrProd before n))

/-- One MSI-X message for every host ring whose count has advanced since `before` (R492). -/
def hrNotify (before s : State) : State :=
  { s with irqs := s.irqs ++ (ringsMoved before s).map (fun n => (n, if n = 0x200 then 0 else 1)) }

/-! ### Records (R290 to R292) -/

/-- A 32-byte record: slot, Flags and a body from byte 4 on. -/
def rec32 (slot flags : Nat) (body : List Byte) : List Byte :=
  (bytesOf 2 slot ++ bytesOf 2 flags ++ body ++ List.replicate 28 0).take 32

/-- STATUS (R292). -/
def statusRec (slot : Nat) (r : Req) (cause : Nat) : List Byte :=
  rec32 slot 0x5000 (bytesOf 4 (r.st % 16 + cause % 256 * 256) ++ bytesOf 4 r.lk ++ bytesOf 4 r.lc ++
    bytesOf 2 (if r.ship / 2 ^ 31 % 2 = 1 then r.ship else 0) ++ bytesOf 2 (r.accepted.getD 0))

/-- START (R292). -/
def startRec (slot : Nat) (r : Req) (cont : Bool) : List Byte :=
  rec32 slot 0x4000 (bytesOf 4 r.seed ++ bytesOf 4 (r.func % 512 + r.profile % 4096 * 4096) ++ bytesOf 4 (if cont then 1 else 0) ++
    bytesOf 8 r.traj)

/-- END (R292). -/
def endRec (slot : Nat) (r : Req) : List Byte := rec32 slot 0x3000 (bytesOf 4 r.cause ++ bytesOf 4 r.lk)

/-- REWARD (R292). -/
def rewardRec (slot : Nat) (r : Req) (chan value : Nat) : List Byte :=
  rec32 slot 0x2000 (bytesOf 4 chan ++ bytesOf 4 r.lk ++ bytesOf 4 0 ++ bytesOf 4 value)

/-- Unframed records of eight token IDs (R292). -/
def obsData : Nat → List W32 → List (List Byte)
  | 0, _ => []
  | k + 1, t =>
    if t.isEmpty then []
    else (((t.take 8).flatMap (fun (w : W32) => bytesOf 4 w.toNat) ++ List.replicate 32 0)).take 32 :: obsData k (t.drop 8)

/-- OBS and its token IDs (R292). -/
def obsRecs (slot first : Nat) (toks : List W32) : List (List Byte) :=
  rec32 slot 0x1000 (bytesOf 4 toks.length ++ bytesOf 4 first) :: obsData (toks.length / 8 + 1) toks

/-! ### The granary (R297, R298, R311) -/

/-- Records of the granary ring in effect; 0 when there is none. -/
def grnSize (g : Gen) : Nat := if 10 ≤ g.grnSize ∧ g.grnSize ≤ 26 then 2 ^ g.grnSize else 0

def grnHead (s : State) (p : Nat) : Nat := pairAt s (pOrc + Off.orcPGrnHeadLo) p

/-- Free records of the ring, those that wait taken off. -/
def grnFree (s : State) (p : Nat) : Nat :=
  let x := getPart s p
  grnSize x.gen - (grnHead s p - x.gen.tail) - x.grnWait.length

/-- Waiting records written while the ring has room (R298). -/
def grnFlushList (p : Nat) : List (List Byte) → State → State × List (List Byte)
  | [], s => (s, [])
  | r :: t, s =>
    let g := (getPart s p).gen
    let h := grnHead s p
    if g.tail + grnSize g ≤ h then (s, r :: t)
    else
      let s := memWrite s (gOff (g.grnBase + 32 * (h % grnSize g))) r
      grnFlushList p t (setPairAt s (pOrc + Off.orcPGrnHeadLo) p (h + 1))

def grnFlush (s : State) (p : Nat) : State :=
  if grnSize (getPart s p).gen = 0 then s
  else
    let x := grnFlushList p (getPart s p).grnWait s
    setPart x.1 p { getPart x.1 p with grnWait := x.2 }

/-- Records appended to the granary, in order (R297, R298). -/
def grnPut (s : State) (p : Nat) (rs : List (List Byte)) : State :=
  if grnSize (getPart s p).gen = 0 then s
  else grnFlush (setPart s p { getPart s p with grnWait := (getPart s p).grnWait ++ rs }) p

/-- The request's records go to a granary (R297, R501). -/
def wantsGranary (s : State) (r : Req) : Bool := r.granary && !r.mute && decide (grnSize (getPart s r.part).gen ≠ 0)

/-- Records of a request for its granary. -/
def grnReq (s : State) (r : Req) (rs : List (List Byte)) : State := if wantsGranary s r then grnPut s r.part rs else s

/-- A granary hold: ORC.P_HOLD is counted once a boundary by its caller. -/
def grnShort (s : State) (p : Nat) : Bool :=
  let x := getPart s p
  decide (grnSize x.gen ≠ 0) && (!x.grnWait.isEmpty || decide (grnFree s p < x.gen.reserve))

/-- The ORC writes of a partition take effect (R311). -/
def orcApply (s : State) (p : Nat) : State :=
  let ops := (getPart s p).orcQ
  let s := setPart s p { getPart s p with orcQ := [] }
  ops.foldl (fun s o =>
    let x := getPart s p
    let g := x.gen
    let zero (s : State) : State := setPairAt (setPairAt s (pOrc + Off.orcPGrnHeadLo) p 0) (pOrc + Off.orcPGrnTailLo) p 0
    if o.1 = Off.orcPChunk then setPart s p { x with gen := { g with chunk := o.2 % 2 ^ 16 } }
    else if o.1 = Off.orcPLimits then setPart s p { x with gen := { g with tokmax := o.2 / 2 ^ 16, seqmax := o.2 % 2 ^ 13 } }
    else if o.1 = Off.orcPGrnBaseLo then zero (setPart s p { x with gen := { g with grnBase := o.2, tail := 0 } })
    else if o.1 = Off.orcPGrnSize then zero (setPart s p { x with gen := { g with grnSize := o.2 % 32, tail := 0 } })
    else if o.1 = Off.orcPGrnReserve then setPart s p { x with gen := { g with reserve := o.2 % 2 ^ 24 } }
    else if o.1 = Off.orcPGrnTailLo then
      if g.tail ≤ o.2 ∧ o.2 ≤ grnHead s p then setPart s p { x with gen := { g with tail := o.2 } }
      else errInc (setPairAt s (pOrc + Off.orcPGrnTailLo) p g.tail) pOrc
    else s) s

/-! ### KV frames (R201, R230 to R232, R283, R299, R310) -/

/-- Index of a KV pool: REQ.KVP_IDX as tier × 32 + partition. -/
def poolIx (tier p : Nat) : Nat := tier * 32 + p

def kvBase (s : State) (k : Nat) : Nat := pairAt s (pReq + Off.reqKvpBaseLo) k
def kvBytes (s : State) (k : Nat) : Nat := (regAt s (pReq + Off.reqKvpFbytes) k).toNat

/-- Frames that a pool can supply in all (R310). -/
def kvFrames (s : State) (k : Nat) : Nat :=
  if kvBytes s k = 0 ∨ kvBytes s k % 4096 ≠ 0 ∨ kvBase s k % 4096 ≠ 0 then 0 else min 1048576 (fld (regAt s (pReq + Off.reqKvpFrames) k) 20 0)

def kvUsedOf (s : State) (k : Nat) : List Nat := getD s.kvUsed k []

/-- REQ.KVP_FREE (R310). -/
def kvFree (s : State) (k : Nat) : Nat := kvFrames s k - (kvUsedOf s k).length

/-- Some of `n` bytes at a module offset lie in a RETIRING far frame (R384). -/
def farLeaves (s : State) (a n : Nat) : Bool :=
  s.farRet.any (fun f => decide (a < farBase + (f + 1) * frameBytes) && decide (farBase + f * frameBytes < a + n))

/-- A pool's frame that may be supplied: not in a pseudo-channel that has left ACTIVE, nor in a far frame that retires
(R384, R385). -/
def kvUsable (s : State) (k f : Nat) : Bool :=
  let a := gOff (kvBase s k + f * kvBytes s k)
  let e := a + kvBytes s k - 1
  if nearEnd ≤ a then !farLeaves s a (kvBytes s k)
  else decide (pcState s (a / pcBytes) = 0) && decide (pcState s (e / pcBytes) = 0)

/-- The lowest `n` frames that satisfy `ok`, searched in `fuel` frames from `f` on (log entry 19). -/
def freeFrames (ok : Nat → Bool) : Nat → Nat → Nat → List Nat
  | 0, _, _ => []
  | k + 1, f, n => if n = 0 then [] else if ok f then f :: freeFrames ok k (f + 1) (n - 1) else freeFrames ok k (f + 1) n

/-- `n` frames allocated from a pool: their addresses; none where it cannot supply them all (R283). -/
def kvAlloc (s : State) (k n : Nat) : Option (State × List Nat) :=
  let used := kvUsedOf s k
  let fs := freeFrames (fun f => !used.contains f && kvUsable s k f) (kvFrames s k) 0 n
  if fs.length < n then none
  else some ({ s with kvUsed := putDef s.kvUsed k (used ++ fs) [] }, fs.map (fun f => kvBase s k + f * kvBytes s k))

/-- A frame given back to the pool that holds it. -/
def kvRelease (s : State) (p a : Nat) : State :=
  match [poolIx 0 p, poolIx 1 p].find? (fun k =>
    decide (kvBase s k ≤ a) && decide (kvBytes s k ≠ 0) && decide ((a - kvBase s k) % kvBytes s k = 0) &&
    (kvUsedOf s k).contains ((a - kvBase s k) / kvBytes s k)) with
  | some k => { s with kvUsed := putDef s.kvUsed k ((kvUsedOf s k).filter (· ≠ (a - kvBase s k) / kvBytes s k)) [] }
  | none => s

/-- The page descriptor of granule `g` (R201, R274). -/
def reqDesc (s : State) (r : Req) (g : Nat) : W64 := BitVec.ofNat 64 (rdNat s.mem (gOff (r.pageList + 8 * g)) 8)

def setReqDesc (s : State) (r : Req) (g v : Nat) : State := memWrite s (gOff (r.pageList + 8 * g)) (bytesOf 8 v)

/-- A descriptor of a private frame: VALID, TENT as given, and the address (R201). -/
def newDesc (a : Nat) (tent : Bool) : Nat := 2 ^ 63 + (if tent then 2 ^ 62 else 0) + a % 2 ^ 52 / 4096 * 4096

/-- The frame address of a descriptor. -/
def descAddr (d : W64) : Nat := fld d 51 12 * 4096

/-- Granules that a request can have frames for. -/
def granulesOf (r : Req) : List Nat := List.range (ceilDiv (max r.lk r.lt) 16 + 1)

/-- A frame for every granule below ⌈(LC + nq) ÷ 16⌉ whose descriptor is not VALID, or nothing (R230, R283). -/
def framesFor (s : State) (r : Req) (nq : Nat) : Option State :=
  let need := (List.range (ceilDiv (r.lc + nq) 16)).filter (fun g => !bit (reqDesc s r g) 63)
  match kvAlloc s (poolIx 0 r.part) need.length with
  | none => none
  | some (s, as_) => some ((need.zip as_).foldl (fun s x => setReqDesc s r x.1 (newDesc x.2 (decide (r.lc ≤ 16 * x.1)))) s)

/-- The commit of a request's tentative frames (R232). -/
def commitFrames (s : State) (r : Req) (lc' : Nat) : State :=
  (granulesOf r).foldl (fun s g =>
    let d := reqDesc s r g
    if !(bit d 62 && bit d 63) then s
    else if lc' ≤ 16 * g then setReqDesc (kvRelease s r.part (descAddr d)) r g (d.toNat % 2 ^ 62)
    else setReqDesc s r g (d.toNat - 2 ^ 62)) s

/-- Every frame of a request released and every descriptor cleared; a shared frame's reference is dropped (R276, R300). -/
def releaseFrames (s : State) (r : Req) : State :=
  (granulesOf r).foldl (fun s g =>
    let d := reqDesc s r g
    let s := if bit d 63 && !bit d 61 then kvRelease s r.part (descAddr d) else s
    if d = 0 then s else setReqDesc s r g 0) s

/-! ### State changes (R276, R294) -/

/-- A request's state set, with PAUSED_AT, the interrupts and the STATUS record that R294 asks for. -/
def setReqSt (s : State) (slot st : Nat) : State :=
  let r := getReq s slot
  let n : Req := { r with st := st, pausedAt := if st = stPaused then s.time else r.pausedAt }
  let s := setReq s slot (if st = stFree then Req.free else n)
  let s := if st = stFaulted then intBit s pReq 1 else s
  let s := if st = stExpired then intBit (bump s (pReq + Off.reqExpired) 1) pReq 2 else s
  if r.st = st ∨ r.mute ∨ ¬(st = stFree ∨ stPaused ≤ st) then s else hrStatus s r.func (statusRec slot n r.cause)

/-- A request's CAUSE and state set. -/
def endReq (s : State) (slot st cause : Nat) : State := setReqSt (setReq s slot { getReq s slot with cause := cause }) slot st

/-- A slot freed with every frame (R276). -/
def freeReq (s : State) (slot : Nat) : State := setReqSt (releaseFrames s (getReq s slot)) slot stFree

/-- A PAUSED request's private near-tier frames move to the far pool and it becomes PARKED, where the pool can hold them
(R299). -/
def parkReq (s : State) (slot : Nat) : State :=
  let r := getReq s slot
  let near := poolIx 0 r.part
  let far := poolIx 1 r.part
  let priv := (granulesOf r).filter (fun g => let d := reqDesc s r g; bit d 63 && !bit d 61 && decide (gOff (descAddr d) < nearEnd))
  let shared := (granulesOf r).filter (fun g => let d := reqDesc s r g; bit d 63 && bit d 61)
  if !priv.isEmpty && decide (kvBytes s far < kvBytes s near) then s
  else match kvAlloc s far priv.length with
    | none => s
    | some (s, as_) =>
      let s := (priv.zip as_).foldl (fun s x =>
        let d := reqDesc s r x.1
        let s := memWrite s (gOff x.2) (rdBytes s.mem (gOff (descAddr d)) (kvBytes s near))
        setReqDesc (kvRelease s r.part (descAddr d)) r x.1 (newDesc x.2 false)) s
      let s := shared.foldl (fun s g => setReqDesc s r g 0) s
      let e := if r.ttl = 0xFFFFFFFF then 2 ^ 64 - 1 else (s.time + r.ttl * 1000000) % 2 ^ 64
      setReqSt (setReq s slot { r with expiry := e }) slot stParked

/-- A PARKED request at its EXPIRY (R300). -/
def expireReq (s : State) (slot : Nat) : State := setReqSt (releaseFrames s (getReq s slot)) slot stExpired

/-- A request returns to scheduling by APPEND or RESUME; one that had expired starts again at 0 (R276, R302). -/
def resumeReq (s : State) (slot : Nat) : State :=
  let r := getReq s slot
  let r := if r.st = stExpired then { r with lc := 0, lt := 0 } else r
  setReqSt (setReq s slot { r with fresh := true }) slot stQueued

/-- The tokens of a request from a position on. -/
def readToks (s : State) (a n : Nat) : List W32 := (List.range n).map (fun i => rd32 s.mem (gOff (a + 4 * i)))

/-- Token IDs written to a buffer. -/
def writeToks (s : State) (a : Nat) (ts : List W32) : State := memWrite s (gOff a) (ts.flatMap (fun t => bytesOf 4 t.toNat))

end Sys2Proof.Machine
end

