-- ==== Sys2Proof/Machine/MapEng.lean ====
section
/-! DEFINITION. The memory controllers and the map engine (11): scrubbing, repair and retirement (R378 to R385), map commands
(R389 to R392), migration (R393 to R395) and the prefetch schedule (R396, R397). -/

namespace Sys2Proof.Machine

/-! ### Frames (R373, R374, R390) -/

/-- The module offset of a frame of a tier. -/
def frameOff (tier f : Nat) : Nat := (if tier = 0 then 0 else farBase) + f * frameBytes

/-- The spill area of the `i`-th hamlet of a partition: module offset and bytes (R496). -/
def spillArea (s : State) (p i : Nat) : Nat × Nat :=
  let x := getPart s p
  let npc := x.pcs.length
  if npc = 0 ∨ x.spillSlots = 0 then (0, 0)
  else
    let n := 7 * x.spillSlots
    (x.pcs.getD (i % npc) 0 * pcBytes + (768 - n * (i / npc + 1)) * frameBytes, n * frameBytes)

/-- Objects placed by physical address: the module's tables and rings, images, KV pools, granaries and spill areas, as
module offset and length (R79, R310, R376, R386, R392, R496). -/
def placed (s : State) : List (Nat × Nat) :=
  [(tableOff s (pLdg + Off.ldgRingBaseLo), 64 * ringSlots), (tableOff s (pFtm0 + Off.ftmUmapBaseLo), 8 * 2 ^ 21),
   (tableOff s (pFtm0 + Off.ftmFownBaseLo), 851968), (tableOff s (pFtm0 + Off.ftmAccBaseLo), 4 * 2 ^ 21)] ++
  (List.range 64).map (fun k => (gOff (kvBase s k), kvFrames s k * kvBytes s k)) ++
  s.parts.flatMap (fun e =>
    e.2.images.map (fun i => (i.2.base, i.2.size)) ++ [(gOff e.2.gen.grnBase, 32 * grnSize e.2.gen)] ++
    (List.range e.2.hams.length).map (spillArea s e.1))

/-- A frame holds no part of a placed object. -/
def clearOfPlaced (ps : List (Nat × Nat)) (tier f : Nat) : Bool :=
  let a := frameOff tier f
  ps.all (fun x => decide (x.2 = 0) || decide (x.1 + x.2 ≤ a) || decide (a + frameBytes ≤ x.1))

/-- The frames that back a page or receive a migration: tier and frame. -/
def backed (s : State) : List (Nat × Nat) := (mapped s).map (·.2) ++ s.migs.map (·.2)

/-- An owner: a partition, or the module (none). -/
abbrev FrameOwner := Option Nat

/-- The owner's ACTIVE pseudo-channels, ascending (R390). -/
def activePcs (s : State) (o : FrameOwner) : List Nat :=
  (List.range 256).filter (fun n => decide (pcOwner s n = o) && decide (pcState s n = 0))

/-- The owner of a far frame (R376). -/
def farOwner (s : State) (f : Nat) : FrameOwner := let b := farOwn s f; if bit b 7 then some (fld b 4 0) else none

/-- A free near frame for page `u`, from the (u mod n)-th pseudo-channel on (R390). -/
def nearFrame (s : State) (o : FrameOwner) (u : Nat) (skip : List Nat) : Option Nat :=
  let pcs := (activePcs s o).filter (fun n => !skip.contains n)
  let k := if pcs.length = 0 then 0 else u % pcs.length
  let busy := backed s
  let ps := placed s
  (pcs.drop k ++ pcs.take k).findSome? (fun n =>
    (natsFrom (n * 768) 768).find? (fun f => !busy.contains (0, f) && clearOfPlaced ps 0 f))

/-- The lowest far frame from `f` on that satisfies a test, in `fuel` frames. -/
def farFrom (ok : Nat → Bool) : Nat → Nat → Option Nat
  | 0, _ => none
  | k + 1, f => if ok f then some f else farFrom ok k (f + 1)

/-- The lowest free far frame that the owner owns (R390). -/
def farFrame (s : State) (o : FrameOwner) : Option Nat :=
  let busy := backed s
  let ps := placed s
  farFrom (fun f => decide (farOwner s f = o) && !s.farRet.contains f && !busy.contains (1, f) && clearOfPlaced ps 1 f) 851968 0

/-- A free frame of a tier. -/
def takeFrame (s : State) (o : FrameOwner) (tier u : Nat) : Option Nat := if tier = 0 then nearFrame s o u [] else farFrame s o

/-- The bytes of `[src, src + n)` copied to `dst`, poison marks included (R383, R393). -/
def copyMem (s : State) (src dst n : Nat) : State :=
  let moved := s.mem.filter (fun c => decide (src ≤ c.1) && decide (c.1 < src + n))
  let pm := s.poison.filter (fun l => decide (src ≤ 64 * l) && decide (64 * l < src + n))
  let pk := s.poison.filter (fun l => !(decide (dst ≤ 64 * l) && decide (64 * l < dst + n)))
  { s with
    mem := moved.foldl (fun m c => wrB m (c.1 - src + dst) c.2) (zeroRange s.mem dst n),
    poison := (pm.map (fun l => (64 * l - src + dst) / 64)).foldl insN pk }

/-- A frame filled with zeros, its lines no longer poisoned (R380, R389). -/
def zeroFrame (s : State) (tier f : Nat) : State :=
  let a := frameOff tier f
  { s with mem := zeroRange s.mem a frameBytes, poison := unpoison s.poison a frameBytes }

/-- The owner that a map entry names (R387). -/
def entryOwner (e : W64) : FrameOwner := if bit e 60 then none else some (fld e 57 53)

/-- An entry with other tier and frame. -/
def retarget (e : W64) (tier f : Nat) : W64 :=
  (e &&& ~~~(BitVec.ofNat 64 (2 ^ 62 + (2 ^ 20 - 1)))) ||| BitVec.ofNat 64 (tier * 2 ^ 62 + f)

/-- An entry's bit. -/
def setEBit (e : W64) (i : Nat) (b : Bool) : W64 :=
  (e &&& ~~~(BitVec.ofNat 64 (2 ^ i))) ||| (if b then BitVec.ofNat 64 (2 ^ i) else 0)

/-! ### Migration (R393, R395) -/

/-- A page begins to move to a frame. -/
def migStart (s : State) (u tier f : Nat) : State :=
  { setMapEntry s u (setEBit (mapEntry s u) 58 true) with migs := s.migs ++ [(u, tier, f)] }

/-- A page is asked to be in a tier: nothing where it is, a new migration, or a wait behind the one that runs (R395);
`none` where no frame is free. -/
def migAsk (s : State) (u tier : Nat) : Option State :=
  let e := mapEntry s u
  if bit e 58 then some { s with migWait := s.migWait ++ [(u, tier)] }
  else if fld e 62 62 = tier then some s
  else (takeFrame s (entryOwner e) tier u).map (migStart s u tier)

/-- The near pseudo-channel that a page's frame lies in. -/
def pagePc (s : State) (u : Nat) : Option Nat :=
  let e := mapEntry s u
  if bit e 63 && !bit e 62 then some (fld e 19 0 / 768) else none

/-- The move of a page out of a retiring frame: to another pseudo-channel of its owner, else to the far tier; a far page to
another far frame (R384). -/
def migOut (s : State) (u : Nat) : State :=
  let e := mapEntry s u
  if bit e 58 then s
  else
    let o := entryOwner e
    match (if bit e 62 then none else nearFrame s o u []) with
    | some f => migStart s u 0 f
    | none => match farFrame s o with
      | some f => migStart s u 1 f
      | none => s

/-- A near pseudo-channel holds no allocated frame. -/
def pcEmpty (s : State) (n : Nat) : Bool :=
  let a := n * pcBytes
  (backed s).all (fun x => !(decide (x.1 = 0) && decide (x.2 / 768 = n))) &&
  s.kvUsed.all (fun e => e.2.all (fun f =>
    let b := gOff (kvBase s e.1 + f * kvBytes s e.1)
    decide (a + pcBytes ≤ b) || decide (b + kvBytes s e.1 ≤ a))) &&
  (s.parts.flatMap (fun e => e.2.images.map (fun i => (i.2.base, i.2.size)) ++
      (List.range e.2.hams.length).map (spillArea s e.1)) ++
    [(tableOff s (pLdg + Off.ldgRingBaseLo), 64 * ringSlots), (tableOff s (pFtm0 + Off.ftmUmapBaseLo), 8 * 2 ^ 21),
     (tableOff s (pFtm0 + Off.ftmFownBaseLo), 851968), (tableOff s (pFtm0 + Off.ftmAccBaseLo), 4 * 2 ^ 21)]).all (fun x =>
    decide (x.2 = 0) || decide (a + pcBytes ≤ x.1) || decide (x.1 + x.2 ≤ a))

/-- A RETIRING pseudo-channel that holds no allocated frame becomes RETIRED (R384). -/
def pcSettle (s : State) : State :=
  ((List.range 256).filter (fun n => decide (pcState s n = 1))).foldl (fun s n =>
    if pcEmpty s n then intBit (setRegF s (pcStat n) 31 29 2) (ntmPg (n / 32)) 3 else s) s

/-- A pseudo-channel becomes RETIRING: its unified pages start to move, and a partition with fewer pseudo-channels than
hamlets is reported (R384, R584). -/
def pcRetiring (s : State) (n : Nat) : State :=
  if pcState s n ≠ 0 then s
  else
    let s := bbr (setRegF s (pcStat n) 31 29 1) { cat := 3, code := 4, cause := 3, loc := ntmPg (n / 32), arg0 := n * pcBytes, arg1 := n }
    let s := intBit s (ntmPg (n / 32)) 2
    let s := match pcOwner s n with
      | some p => if (activePcs s (some p)).length < (getPart s p).hams.length then intBit s (ntmPg (n / 32)) 4 else s
      | none => s
    let s := (((mapped s).filter (fun x => decide (x.2.1 = 0) && decide (x.2.2 / 768 = n))).map (·.1)).foldl migOut s
    pcSettle s

/-- A pseudo-channel becomes FAILED (R385). -/
def pcFailed (s : State) (n : Nat) : State :=
  if pcState s n = 3 then s
  else
    let s := bbr (setRegF s (pcStat n) 31 29 3) { cat := 3, code := 4, cause := 4, loc := ntmPg (n / 32), arg0 := n * pcBytes, arg1 := n }
    intBit s (ntmPg (n / 32)) 3

/-- Far frames become RETIRING (R384). -/
def farRetiring (s : State) (ctrl : Nat) (fs : List Nat) : State :=
  let fresh := fs.filter (fun f => !s.farRet.contains f)
  if fresh.isEmpty then s
  else
    let pg := pFtm0 + 4096 * ctrl
    let s := { s with farRet := s.farRet ++ fresh }
    let s := setReg s (pg + Off.ftmRetired) (w32 ((reg s (pg + Off.ftmRetired)).toNat + fresh.length))
    let s := fresh.foldl (fun s f => bbr s { cat := 3, code := 4, cause := 3, loc := pg, arg0 := frameOff 1 f, arg1 := f }) s
    let s := intBit s pg 2
    (((mapped s).filter (fun x => decide (x.2.1 = 1) && fresh.contains x.2.2)).map (·.1)).foldl migOut s

/-! ### Scrubbing and repair (R382, R383) -/

/-- The page and the offsets of a scrub controller: 0 to 7 a near stack, 8 to 15 a far controller. -/
def scrubPage (c : Nat) : Nat := if c < 8 then ntmPg c else pFtm0 + 4096 * (c - 8)
def scrubReg (c ntm ftm : Nat) : Nat := scrubPage c + (if c < 8 then ntm else ftm)

/-- A row of a controller lies where it says. -/
def rowIn (c : Nat) (r : RowErr) : Bool :=
  if c < 8 then decide (r.at_ < nearEnd) && decide (r.at_ / pcBytes / 32 = c)
  else decide (farBase ≤ r.at_) && decide (r.at_ < farEnd) && decide ((r.at_ - farBase) / 4096 % 8 = c - 8)

/-- A row's repair: a spare row takes its place, or without one its pseudo-channel or its far frames retire (R383, R384). -/
def rowRepair (s : State) (c : Nat) (r : RowErr) : State :=
  if r.spares = 0 then (if c < 8 then pcRetiring s (r.at_ / pcBytes) else farRetiring s (c - 8) r.frames)
  else
    let s := bump s (scrubReg c Off.ntmRepairs Off.ftmRepairs) 1
    let s := bbr s { cat := 3, code := 4, cause := 2, loc := scrubPage c, arg0 := r.at_,
                     arg1 := if c < 8 then r.at_ / pcBytes else (r.at_ - farBase) / frameBytes }
    let s := intBit s (scrubPage c) 1
    if c < 8 then
      let a := pcStat (r.at_ / pcBytes)
      setRegF s a 15 8 (min (regF s a 15 8) (r.spares - 1))
    else s

/-- A row's errors of one pass: corrected lines counted, uncorrectable lines poisoned, the row repaired (R379, R380, R383). -/
def scrubRow (s : State) (c : Nat) (r : RowErr) : State :=
  if !rowIn c r then s
  else
    let s := bump s (scrubReg c Off.ntmEccCorr Off.ftmEccCorr) r.corr
    let s := r.uncs.foldl eccUnc s
    let thr := regF s (scrubReg c Off.ntmRepair Off.ftmRepair) 15 8
    if r.uncs ≠ [] ∨ (0 < thr ∧ thr ≤ r.corr) then rowRepair s c r else s

/-- A scrub pass of a controller (R382 to R385). -/
def scrubPass (s : State) (c : Nat) (rows : List RowErr) : State :=
  let bad (n : Nat) : Nat := (rows.filter (fun r => rowIn c r && decide (r.at_ / pcBytes = n) && decide (r.uncs ≠ []))).length
  let s := rows.foldl (fun s r => scrubRow s c r) s
  if c < 8 then ((natsFrom (32 * c) 32).filter (fun n => decide (16 < bad n))).foldl pcFailed s else s

def execScrubPass (ctrl : Nat) (rows : List RowErr) (s : State) : Res :=
  checked (.scrubPass ctrl rows)
    (when (decide (regF s (scrubReg ctrl Off.ntmRepair Off.ftmRepair) 7 0 ≠ 0)) (fun s => scrubPass s ctrl rows) s)

/-- A write of NTM.RETIRE (R384). -/
def pcRetireWrite (w : Writer) (p : Nat) (v : W32) (s : State) : State :=
  let x := writePlain w (p + Off.ntmRetire) v s
  if x.ok && bit x.wo 8 then pcRetiring x.st (instanceOf p * 32 + fld x.new 4 0) else x.st

def execPcRetire (w : Writer) (page : Nat) (v : W32) (s : State) : Res := checked (.pcRetire w page v) (pcRetireWrite w page v s)

/-- Clearing NTM.ERR_ADDR_HI.VALID, or that of an FTM page (R380). -/
def execNtmErrClear (w : Writer) (page : Nat) (v : W32) (s : State) : Res :=
  checked (.ntmErrClear w page v) (
    if classOf page = 0x14 then clearValid w (page + Off.ftmErrAddrHi) v [page + Off.ftmErrAddrLo] s
    else clearValid w (page + Off.ntmErrAddrHi) v [page + Off.ntmErrAddrLo] s)

/-! ### Map commands (R389, R390) -/

/-- Reserved bits of ARG for an opcode (R389). -/
def mapArgBad (op arg : Nat) : Bool :=
  let free := match op with
    | 1 => 0x0FFFFFE0
    | 3 => 0x7FFFFFFF
    | 4 => 0xAFFFFFFF
    | 6 => 0x5FFFFFE0
    | _ => 0xFFFFFFFF
  decide (arg &&& free ≠ 0)

/-- A partition exists. -/
def isPart (s : State) (p : Nat) : Bool := decide ((getPart s p).st ≠ .free)

/-- The items of a command applied one after the other; none where one has no free frame. -/
def eachItem (f : State → Nat → Option State) : List Nat → State → Option State
  | [], s => some s
  | u :: r, s => match f s u with | some s => eachItem f r s | none => none

/-- The map entry of a newly mapped page. -/
def newEntry (arg f : Nat) : W64 :=
  let b (i j : Nat) : Nat := if arg / 2 ^ i % 2 = 1 then 2 ^ j else 0
  BitVec.ofNat 64 (2 ^ 63 + b 31 62 + b 30 61 + b 29 60 + b 28 59 + arg % 32 * 2 ^ 53 + f)

/-- One page mapped (R390, R392). -/
def mapPage (arg : Nat) (s : State) (u : Nat) : Option State :=
  let tier := arg / 2 ^ 31 % 2
  let o : FrameOwner := if arg / 2 ^ 29 % 2 = 1 then none else some (arg % 32)
  (takeFrame s o tier u).map (fun f =>
    let s := setMapEntry (zeroFrame s tier f) u (newEntry arg f)
    { s with mem := zeroRange s.mem (tableOff s (pFtm0 + Off.ftmAccBaseLo) + 4 * u) 4 })

/-- One page unmapped: its frames freed, VALID and MIG cleared. -/
def unmapPage (s : State) (u : Nat) : State :=
  { setMapEntry s u (setEBit (setEBit (mapEntry s u) 63 false) 58 false) with
    migs := s.migs.filter (fun m => decide (m.1 ≠ u)), migWait := s.migWait.filter (fun m => decide (m.1 ≠ u)) }

/-- RESULT of a command before its items are tried, 0 where they may be (R389, MCMD_STAT; order of checks, log entry 22). -/
def mapCheck (s : State) (op pg n arg : Nat) : Nat :=
  let top := if op = 6 then 851968 else 2 ^ 21
  let items := natsFrom pg n
  if op = 0 ∨ 6 < op ∨ mapArgBad op arg = true then 4
  else if (op = 1 ∧ arg / 2 ^ 29 % 2 = 0 ∧ isPart s (arg % 32) = false) ∨ (op = 6 ∧ arg / 2 ^ 31 % 2 = 1 ∧ isPart s (arg % 32) = false) then 4
  else if n = 0 ∨ 2 ^ 21 < n ∨ top < pg + n then 1
  else if op = 1 ∧ items.any (fun u => bit (mapEntry s u) 63) = true then 2
  else if (op = 2 ∨ op = 3 ∨ op = 4) ∧ items.all (fun u => bit (mapEntry s u) 63) = false then 2
  else if op = 6 ∧ items.any (fun f => (backed s).contains (1, f)) = true then 2
  else 0

/-- The effect of a command whose checks pass; none where frames run out (R389). -/
def mapEffect (s : State) (op pg n arg : Nat) : Option State :=
  let items := natsFrom pg n
  match op with
  | 1 => eachItem (mapPage arg) items s
  | 2 => some (pcSettle (items.foldl unmapPage s))
  | 3 => eachItem (fun s u => migAsk s u (arg / 2 ^ 31 % 2)) items s
  | 4 => some (items.foldl (fun s u =>
      setMapEntry s u (setEBit (setEBit (mapEntry s u) 61 (arg / 2 ^ 30 % 2 = 1)) 59 (arg / 2 ^ 28 % 2 = 1))) s)
  | 5 => some { s with mem := zeroRange s.mem (tableOff s (pFtm0 + Off.ftmAccBaseLo) + 4 * pg) (4 * n) }
  | 6 => some { s with mem := items.foldl (fun m f =>
      wrB m (tableOff s (pFtm0 + Off.ftmFownBaseLo) + f)
        (BitVec.ofNat 8 (arg / 2 ^ 31 % 2 * 128 + arg / 2 ^ 29 % 2 * 64 + arg % 32))) s.mem }
  | _ => some s

/-- A command started by GO: all of its items or none, the RESULT kept for its end (R389). -/
def mapRun (s : State) : State :=
  let op := regF s (pFtm0 + Off.ftmMcmdOp) 7 0
  let pg := regF s (pFtm0 + Off.ftmMcmdPage) 20 0
  let n := regF s (pFtm0 + Off.ftmMcmdCount) 21 0
  let arg := (reg s (pFtm0 + Off.ftmMcmdArg)).toNat
  let c := mapCheck s op pg n arg
  let r : State × Nat := if c ≠ 0 then (s, c) else match mapEffect s op pg n arg with | some t => (t, 0) | none => (s, 3)
  { setReg r.1 (pFtm0 + Off.ftmMcmdStat) (w32 (2 ^ 31)) with mcmd := some (op, pg, n, r.2) }

/-- A write of MCMD_GO. -/
def mapGo (w : Writer) (v : W32) (s : State) : State :=
  let x := writePlain w (pFtm0 + Off.ftmMcmdGo) v s
  if !x.ok || !bit x.wo 0 then x.st
  else if bit (reg s (pFtm0 + Off.ftmMcmdStat)) 31 || bit (reg s (pFtm0 + Off.pageCtl)) 1 then errInc x.st pFtm0
  else mapRun x.st

/-- The write of MCMD_GO with MCMD_OP holding the row's opcode. -/
def mapRow (op : Nat) (w : Writer) (v : W32) (s : State) : State :=
  when (decide (regF s (pFtm0 + Off.ftmMcmdOp) 7 0 = op)) (mapGo w v) s

def execMap (w : Writer) (v : W32) (s : State) : Res := checked (.map w v) (mapRow 1 w v s)
def execUnmap (w : Writer) (v : W32) (s : State) : Res := checked (.unmap w v) (mapRow 2 w v s)
def execMove (w : Writer) (v : W32) (s : State) : Res := checked (.move w v) (mapRow 3 w v s)
def execAttr (w : Writer) (v : W32) (s : State) : Res := checked (.attr w v) (mapRow 4 w v s)
def execClrcnt (w : Writer) (v : W32) (s : State) : Res := checked (.clrcnt w v) (mapRow 5 w v s)
def execFarown (w : Writer) (v : W32) (s : State) : Res := checked (.farown w v) (mapRow 6 w v s)

/-- The command ends: BUSY clears, RESULT shows (R389). A MOVE ends when none of its pages migrates any more. -/
def mapDone (s : State) : State :=
  match s.mcmd with
  | none => s
  | some (op, pg, n, r) =>
    if op = 3 ∧ (s.migs.any (fun m => decide (pg ≤ m.1) && decide (m.1 < pg + n))) = true then s
    else intBit { setReg s (pFtm0 + Off.ftmMcmdStat) (w32 r) with mcmd := none } pFtm0 5

def execMapCommandDone (s : State) : Res := checked .mapCommandDone (mapDone s)

/-- The waiting moves of pages that migrate no more take effect, in order (R395). -/
def migNext (s : State) : State :=
  s.migWait.foldl (fun s m =>
    if bit (mapEntry s m.1) 58 then s
    else
      let s := { s with migWait := s.migWait.erase m }
      (migAsk s m.1 m.2).getD s) s

/-- A page's copy is complete: the entry switches to the new frame, the old one is free (R393). -/
def migComplete (s : State) (u : Nat) : State :=
  match s.migs.find? (fun m => decide (m.1 = u)) with
  | none => s
  | some (_, tier, f) =>
    let e := mapEntry s u
    let s := copyMem s (pageOff e 0) (frameOff tier f) frameBytes
    let s := countM s 5 frameBytes
    let s := { setMapEntry s u (retarget (setEBit e 58 false) tier f) with migs := s.migs.filter (fun m => decide (m.1 ≠ u)) }
    pcSettle (migNext (bumpPair s (pFtm0 + Off.ftmMigLo) 1))

def execMigrationComplete (vpage : Nat) (s : State) : Res := checked (.migrationComplete vpage) (migComplete s vpage)

/-! ### The prefetch schedule (R396, R397) -/

/-- Entry `i` of a partition's schedule. -/
def pfAt (s : State) (p i : Nat) : Nat := gOff (getPart s p).pfBase + 16 * i

/-- An entry keeps to R396. -/
def pfOk (s : State) (a : Nat) : Bool :=
  let op := rdNat s.mem (a + 6) 1
  decide (rdNat s.mem a 4 < 2 ^ 21) && decide (1 ≤ rdNat s.mem (a + 4) 2) && (decide (op = 1) || decide (op = 2)) &&
  decide (rdNat s.mem (a + 7) 1 = 0) && decide (rdNat s.mem (a + 8) 2 < 256) && decide (rdNat s.mem (a + 10) 2 = 0) &&
  decide (rdNat s.mem a 4 + rdNat s.mem (a + 4) 2 ≤ 2 ^ 21)

/-- A page of an entry: skipped, or asked to move; without a free near frame it is counted (R397). -/
def pfPage (p tier : Nat) (s : State) (u : Nat) : State :=
  let e := mapEntry s u
  if bit e 59 || !bit e 63 || decide (entryOwner e ≠ some p) || decide (fld e 62 62 = tier) then s
  else match migAsk s u tier with
    | some s => s
    | none => if tier = 0 then intBit (bump s (pFtm0 + Off.ftmPfNoroom) 1) pFtm0 6 else s

/-- The next entry of the schedule starts, once its counter has reached THRESH since the release (R397). -/
def pfStart (s : State) (p : Nat) : State :=
  let x := getPart s p
  if !x.inStep || decide (x.pfCnt ≤ x.pfNext) then s
  else
    let a := pfAt s p x.pfNext
    let c := rdNat s.mem (a + 8) 2
    let s' := setPart s p { x with pfNext := x.pfNext + 1 }
    if !pfOk s a then s'
    else if getD x.pctr c 0 - getD x.pctr0 c 0 < rdNat s.mem (a + 12) 4 then s
    else (natsFrom (rdNat s.mem a 4) (rdNat s.mem (a + 4) 2)).foldl (pfPage p (if rdNat s.mem (a + 6) 1 = 1 then 0 else 1)) s'

def execPrefetchEntryStart (part : Nat) (s : State) : Res := checked (.prefetchEntryStart part) (pfStart s part)

/-! ### KV frames of a retiring pseudo-channel (R384) -/

/-- A KV frame lies in a pseudo-channel that is RETIRING, or in a far frame that is (R384). -/
def kvLeaves (s : State) (a n : Nat) : Bool :=
  if nearEnd ≤ a then farLeaves s a n
  else decide (pcState s (a / pcBytes) = 1) || decide (pcState s ((a + n - 1) / pcBytes) = 1)

/-- A request's private frames in pseudo-channels or far frames that are RETIRING move to other frames of their pool, those of
the near pool to the far one where it has none; their descriptors are rewritten (R299, R384). -/
def moveKv (s : State) (slot : Nat) : State :=
  (granulesOf (getReq s slot)).foldl (fun s g =>
    let r := getReq s slot
    let d := reqDesc s r g
    let a := gOff (descAddr d)
    let near := poolIx 0 r.part
    let far := poolIx 1 r.part
    let own := if nearEnd ≤ a then far else near
    let bytes := kvBytes s own
    if !(bit d 63 && !bit d 61 && kvLeaves s a bytes) then s
    else
      match (match kvAlloc s own 1 with
        | some x => some x
        | none => if own = near ∧ bytes ≤ kvBytes s far then kvAlloc s far 1 else none) with
      | some (s, [b]) =>
        let s := memWrite s (gOff b) (rdBytes s.mem a bytes)
        setReqDesc (kvRelease s r.part (descAddr d)) r g (newDesc b (bit d 62))
      | _ => s) s

/-- At a boundary of a partition: KV frames leave what is RETIRING, and pseudo-channels may then be RETIRED (R384). -/
def retireMoves (s : State) (p : Nat) : State :=
  if !s.farRet.isEmpty || (List.range 256).any (fun n => decide (pcState s n = 1)) then pcSettle ((slotsOf s p).foldl moveKv s) else s

end Sys2Proof.Machine
end

