-- ==== Sys2Proof/Machine/Epochs.lean ====
section
/-! DEFINITION. Weight epochs at a subscriber (R344 to R348, R351 to R370): arrival and checks, loads from the loft, rechecks,
and the take-up of an epoch by a partition. -/

namespace Sys2Proof.Machine

def setCurEpoch (s : State) (p e : Nat) : State := setRegAt s (pEpo + Off.epoPCur) p (w32 e)
/-- The number that no epoch carries (R344). -/
abbrev noEpoch : Nat := 0xFFFFFFFF
/-- The epoch that a slot's register shows. -/
def epochOf (s : State) (n : Nat) : Nat := (reg s (slotEpoch n)).toNat

/-- A slot becomes EMPTY. -/
def slotClear (s : State) (n : Nat) : State :=
  setSlot (setReg (setReg s (slotStat n) 0) (slotEpoch n) (w32 noEpoch)) n EpSlot.init

/-- The lowest EMPTY slot with SIZE not 0 (log entry 24). -/
def emptySlot (s : State) : Option Nat := (List.range 3).find? (fun n => decide (slotSt s n = 0) && decide (slotSize s n ≠ 0))

/-- An epoch is current for a partition, or has its pin window open for one (R348). -/
def epochUsed (s : State) (e : Nat) : Bool :=
  (List.range 32).any (fun p => decide ((getPart s p).st ≠ .free) && (decide (curEpoch s p = e) || (getPart s p).pins.any (fun w => decide (w.1 = e))))

/-- ACTIVE slots that nothing uses become EMPTY (R348). -/
def slotSweep (s : State) : State :=
  ((List.range 3).filter (fun n => decide (slotSt s n = 3) && !epochUsed s (epochOf s n))).foldl slotClear s

/-! ### The shard header (R351) -/

def shEpoch (h : W1024) : Nat := recF h 0 4
def shShard (h : W1024) : Nat := recF h 4 2
def shN (h : W1024) : Nat := recF h 6 2
def shSw (h : W1024) : Nat := recF h 8 8
def shLstep (h : W1024) : Nat := recF h 0x10 8
def shOff (h : W1024) : Nat := recF h 0x18 8
def shLen (h : W1024) : Nat := recF h 0x20 8
def shMep (h : W1024) : Nat := recF h 0x28 2
def shBase (h : W1024) : Bool := recF h 0x2C 4 % 2 = 1
def shDigest (h : W1024) : List Byte := bytesOf 48 (recF h 0x30 48)

/-- A header breaks R351. -/
def shBad (h : W1024) (n : Nat) : Bool :=
  decide (shEpoch h = noEpoch) || decide (shN h = 0) || decide (4096 < shN h) || decide (shN h ≤ shShard h) ||
  decide (shOff h % 128 ≠ 0) || decide (shLen h = 0) || decide (shLen h ≠ n) || decide (2 ≤ recF h 0x2C 4) || decide (recF h 0x60 32 ≠ 0)

/-! ### Placing shards (R354 to R356) -/

/-- Bytes at an offset of a slot, through the map; none where a page is not mapped. -/
def slotPages (s : State) (n off len : Nat) : Option (List (Nat × Nat × Nat)) :=
  let v := slotBase s n * frameBytes + off
  let ps := (pieces v len).map (fun x => (x.1 - v, x.1, x.2))
  if ps.all (fun x => bit (mapEntry s (x.2.1 / frameBytes)) 63) then
    some (ps.map (fun x => (x.1, pageOff (mapEntry s (x.2.1 / frameBytes)) (x.2.1 % frameBytes), x.2.2)))
  else none

def slotWrite (s : State) (n off : Nat) (bs : List Byte) : Option State :=
  (slotPages s n off bs.length).map (fun ps => ps.foldl (fun s x => memWrite s x.2.1 ((bs.drop x.1).take x.2.2)) s)

def slotRead (s : State) (n off len : Nat) : List Byte :=
  match slotPages s n off len with
  | some ps => ps.flatMap (fun x => rdBytes s.mem x.2.1 x.2.2)
  | none => []

/-- A fetch of a shard again, from its source (R355; the region handle, log entry 24). -/
def refetch (s : State) (n : Nat) (x : Shard) : State :=
  let s := bump s (pEpo + Off.epoRefetch) 1
  let y := getSlot s n
  let s := setSlot s n { y with fetch := (y.fetch.filter (fun f => decide (f.1.idx ≠ x.idx))) ++ [(x, [])] }
  (spans (x.len / 4096 + 1) 0 x.len).foldl (fun s p =>
    sendWant s x.src 5 0 0 (x.off + p.1) p.2 129 (n * 2 ^ 48 + x.off + p.1) .none) s

/-- A complete, checked epoch (R356): READY and acknowledged to every source, or ACTIVE again after a reload (R366). -/
def slotDone (s : State) (n : Nat) (reload : Bool) : State :=
  let y := getSlot s n
  if y.shards.length < y.nshard ∨ !y.fetch.isEmpty ∨ slotSt s n ≠ 1 then s
  else if reload && epochUsed s (epochOf s n) then setSlotSt s n 3
  else y.srcs.foldl (fun s m => epochAckTo s (epochOf s n) true m) (intBit (setSlotSt s n 2) pEpo 0)

/-- A shard that has arrived whole and passed its check joins its slot. -/
def shardIn (s : State) (n : Nat) (x : Shard) : State :=
  let y := getSlot s n
  let y := { y with shards := y.shards ++ [x], fetch := y.fetch.filter (fun f => decide (f.1.idx ≠ x.idx)) }
  slotDone (setRegF (setSlot s n y) (slotStat n) 12 0 y.shards.length) n false

/-- The bytes of a shard checked against its digest (R355): taken, fetched again, or after three failed fetches the slot is
BAD. `again` says that the bytes come from a fetch. -/
def shardCheck (s : State) (n : Nat) (x : Shard) (data : List Byte) (again : Bool) : State :=
  if !bit (reg s (pEpo + Off.epoCfg)) 16 || sha384 data = x.digest then shardIn s n x
  else
    let y := getSlot s n
    let f := getD y.fails x.idx 0 + (if again then 1 else 0)
    let s := setSlot s n { y with fails := putDef y.fails x.idx f 0 }
    if 3 ≤ f then slotBad s n 1 else refetch s n x

/-- A shard placed in the LOADING slot (R354). -/
def shardPlace (s : State) (n : Nat) (h : W1024) (data : List Byte) (src : Nat) : State :=
  let y := getSlot s n
  let y := { y with srcs := if y.srcs.contains src then y.srcs else y.srcs ++ [src] }
  let s := setSlot s n y
  let x : Shard := ⟨shShard h, shOff h, shLen h, shDigest h, src⟩
  let old := y.shards ++ y.fetch.map (·.1)
  if shN h ≠ y.nshard ∨ shSw h ≠ y.swstep ∨ shLstep h ≠ y.lstep then slotBad s n 1
  else if old.any (fun z => decide (z.idx = x.idx) && decide (z.off = x.off) && decide (z.len = x.len)) then s
  else if old.any (fun z => decide (z.idx = x.idx) || (decide (z.off < x.off + x.len) && decide (x.off < z.off + z.len))) then slotBad s n 1
  else if slotSize s n * frameBytes < x.off + x.len then slotBad s n 1
  else match slotWrite s n x.off data with
    | none => slotBad s n 1
    | some s => shardCheck s n x data false

/-- An epoch refused (R353). -/
def epochRefuse (s : State) (h : W1024) (src : Nat) : State :=
  epochAckTo (intBit (bump s (pEpo + Off.epoRefused) 1) pEpo 4) (shEpoch h) false src

/-- A number or a SWITCH_STEP that R353 refuses. -/
def epochStale (s : State) (e sw : Nat) : Bool :=
  (match s.lastEpoch with | some l => decide (e ≤ l) | none => false) || (match s.lastSw with | some l => decide (sw ≤ l) | none => false)

/-- A slot other than `n` is LOADING or READY (R347). -/
def slotPending (s : State) (n : Option Nat) : Bool :=
  (List.range 3).any (fun m => decide (some m ≠ n) && (decide (slotSt s m = 1) || decide (slotSt s m = 2)))

/-- A slot takes an accepted epoch. -/
def slotOpen (s : State) (n e sw lstep nsh : Nat) (base : Bool) : State :=
  let s := setReg (setReg s (slotStat n) (w32 (2 ^ 29 + if base then 2 ^ 28 else 0))) (slotEpoch n) (w32 e)
  { setSlot s n { EpSlot.init with nshard := nsh, swstep := sw, lstep := lstep } with lastEpoch := some e, lastSw := some sw }

/-- A shard of an epoch arrives (R353, R354). A further shard whose header breaks R351 has not arrived whole and is dropped (log entry
24). -/
def shardArrive (s : State) (h : W1024) (data : List Byte) (src : Nat) : State :=
  let e := shEpoch h
  let slotOf (p : Nat → Bool) : Option Nat := (List.range 3).find? (fun n => decide (epochOf s n = e) && decide (e ≠ noEpoch) && p (slotSt s n))
  match slotOf (fun t => decide (t = 1)), slotOf (fun t => decide (t = 2) || decide (t = 3)) with
  | some n, _ =>
    if shMep h ≠ s.mepoch then epochRefuse s h src
    else if shBad h data.length then s
    else shardPlace s n h data src
  | none, some _ => epochAckTo (bump s (pEpo + Off.epoDup) 1) e true src
  | none, none =>
    if shBad h data.length || decide (shMep h ≠ s.mepoch) || epochStale s e (shSw h) then epochRefuse s h src
    else match emptySlot s with
      | some n => if slotPending s none then s else shardPlace (slotOpen s n e (shSw h) (shLstep h) (shN h) (shBase h)) n h data src
      | none => s

def execEpochShardArrive (hdr : W1024) (data : List Byte) (src : Nat) (s : State) : Res :=
  checked (.epochShardArrive hdr data src) (shardArrive s hdr data src)

/-- Bytes of a published shard's packets gathered until the shard is whole (R351, log entry 24). -/
def shardPacket (s : State) (src off : Nat) (data : List Byte) : State :=
  let fresh := decide (off = 0)
  let m := wrBytes (if fresh then [] else getD s.epoAsm src []) off data
  let got := (if fresh then 0 else getD s.epoGot src 0) + data.length
  let h : W1024 := BitVec.ofNat 1024 (rdNat m 0 128)
  if 128 ≤ got ∧ got = 128 + shLen h then
    shardArrive { s with epoAsm := delS s.epoAsm src, epoGot := delS s.epoGot src } h (rdBytes m 128 (shLen h)) src
  else { s with epoAsm := putS s.epoAsm src m, epoGot := putS s.epoGot src got }

/-- Bytes of a shard that is fetched again (R355). -/
def fetchData (s : State) (n off : Nat) (data : List Byte) : State :=
  match (getSlot s n).fetch.find? (fun f => decide (f.1.off ≤ off) && decide (off < f.1.off + f.1.len)) with
  | none => s
  | some f =>
    let y := getSlot s n
    let parts := f.2 ++ [(off, data)]
    let s := setSlot s n { y with fetch := y.fetch.map (fun g => if g.1.idx = f.1.idx then (g.1, parts) else g) }
    if (parts.map (fun p => p.2.length)).foldl (· + ·) 0 < f.1.len then s
    else
      let m := parts.foldl (fun m p => wrBytes m (p.1 - f.1.off) p.2) []
      let bs := rdBytes m 0 f.1.len
      match slotWrite s n f.1.off bs with
      | some s => shardCheck s n f.1 bs true
      | none => slotBad s n 1

/-! ### Loads from the loft (R366) -/

/-- The slot that a load goes into, and whether it is a reload. -/
def loadSlot (s : State) (e : Nat) : Option (Nat × Bool) :=
  match (List.range 3).find? (fun n => decide (slotSt s n = 4) && decide (epochOf s n = e)) with
  | some n => some (n, true)
  | none => (emptySlot s).map (fun n => (n, false))

/-- A refused load (R366). -/
def loadRefuse (s : State) (stale : Bool) : State := intBit (if stale then bump s (pEpo + Off.epoRefused) 1 else s) pEpo 4

def loadStart (s : State) : State :=
  let e := (reg s (pEpo + Off.epoLoadEpoch)).toNat
  let sw := pair s (pEpo + Off.epoLoadSwLo)
  let obj := (reg s (pEpo + Off.epoLoadObj)).toNat
  if (List.range 3).any (fun n => (decide (slotSt s n = 1) || decide (slotSt s n = 2) || decide (slotSt s n = 3)) && decide (epochOf s n = e)) then
    bump s (pEpo + Off.epoDup) 1
  else match loadSlot s e, getObj s obj with
    | some (n, true), some _ =>
      if (List.range 3).any (fun m => decide (m ≠ n) && decide (slotSt s m = 1)) then loadRefuse s false
      else
        let y := getSlot s n
        let s := setReg s (slotStat n) (w32 (2 ^ 29 + 2 ^ 28))
        { setSlot s n { EpSlot.init with nshard := 1, swstep := y.swstep, lstep := 0 } with epLoad := some (obj, n) }
    | some (n, false), some _ =>
      if e = noEpoch || epochStale s e sw then loadRefuse s true
      else if slotPending s none then loadRefuse s false
      else { slotOpen s n e sw 0 1 true with epLoad := some (obj, n) }
    | none, some _ => loadRefuse s (e = noEpoch || epochStale s e sw)
    | _, none => loadRefuse s false

/-- A write of EPO.LOAD_GO. -/
def loadGo (w : Writer) (v : W32) (s : State) : State :=
  let x := writePlain w (pEpo + Off.epoLoadGo) v s
  if x.ok && bit x.wo 0 then loadStart x.st else x.st

def execEpochLoad (w : Writer) (v : W32) (s : State) : Res := checked (.epochLoad w v) (loadGo w v s)

/-- The object has been read: checked, and placed as one shard at offset 0 (R355, R366); `ok` says that its digest held. -/
def loadDone (s : State) (ok : Bool) : State :=
  match s.epLoad with
  | none => s
  | some (obj, n) =>
    let s := { s with epLoad := none }
    if slotSt s n ≠ 1 then s
    else match getObj s obj with
      | none => slotBad s n 1
      | some o =>
        if !ok || decide (o.st ≠ 0) || decide (o.len = 0) || decide (slotSize s n * frameBytes < o.len) then slotBad s n 1
        else match slotWrite s n 0 (objBytes o) with
          | none => slotBad s n 1
          | some s =>
            let y := getSlot s n
            slotDone (setRegF (setSlot s n { y with shards := [⟨0, 0, o.len, o.digest, modId s⟩] }) (slotStat n) 12 0 1) n true

def execEpochLoadComplete (ok : Bool) (s : State) : Res := checked (.epochLoadComplete ok) (loadDone s ok)

/-- A write of EPO.Sn_BASE or Sn_SIZE: refused unless the slot is EMPTY or BAD; a BAD slot becomes EMPTY when its base is
written (R348, R369). -/
def slotRegWrite (w : Writer) (n : Nat) (size : Bool) (v : W32) (s : State) : State :=
  let a := pEpo + (if size then Off.epoSSize else Off.epoSBase) + 16 * n
  let free := decide (slotSt s n = 0) || decide (slotSt s n = 4)
  let x := writeCore w a v false (fun _ new => if free then some new else none) s
  if x.ok && !size && decide (slotSt s n = 4) then slotClear x.st n else x.st

def execSlotBaseWrite (w : Writer) (slot : Nat) (size : Bool) (v : W32) (s : State) : Res :=
  checked (.slotBaseWrite w slot size v) (slotRegWrite w slot size v s)

/-! ### Rechecks (R358) -/

/-- Every shard of a slot holds its digest. -/
def slotClean (s : State) (n : Nat) : Bool := (getSlot s n).shards.all (fun x => sha384 (slotRead s n x.off x.len) = x.digest)

/-- A recheck pass over the READY and ACTIVE slots. -/
def recheck (s : State) : State :=
  ((List.range 3).filter (fun n => decide (slotSt s n = 2) || decide (slotSt s n = 3))).foldl (fun s n =>
    if slotClean s n then
      ((List.range 32).filter (fun p => decide (curEpoch s p = epochOf s n))).foldl (fun s p =>
        let x := getPart s p
        if x.st = .free then s else setPart s p { x with cleanStep := x.step }) s
    else slotBad s n 2) s

/-- The next pass is due RECHECK_S seconds after the start of this one. -/
def recheckPass (s : State) (now : Nat) : State :=
  let k := regF s (pEpo + Off.epoCfg) 15 0
  if k = 0 ∨ now < s.recheckAt then s
  else recheck { s with time := max s.time now, recheckAt := now + k * 1000000000 }

def execEpochRecheck (now : Nat) (s : State) : Res := checked (.epochRecheck now) (recheckPass s now)

/-! ### Taking an epoch up (R359 to R362) -/

/-- PIN and PINMAX of a P_CFG value; 0 acts as 1. -/
def pinOn (c : W32) : Bool := bit c 30
def pinMax (c : W32) : Nat := max 1 (fld c 15 0)

/-- The slot that holds an epoch, READY or ACTIVE. -/
def goodSlot (s : State) (e : Nat) : Option Nat :=
  (List.range 3).find? (fun n => decide (epochOf s n = e) && decide (e ≠ noEpoch) && (decide (slotSt s n = 2) || decide (slotSt s n = 3)))

/-- An epoch becomes current for a partition; the one before it drains, with its pin window open under pin-per-request
(R361, R362). -/
def takeUp (s : State) (p n : Nat) : State :=
  let x := getPart s p
  let old := curEpoch s p
  let pins := if pinOn x.epCfg ∧ old ≠ noEpoch then x.pins ++ [(old, pinMax x.epCfg)] else x.pins
  setSlotSt (setCurEpoch (setPart s p { x with pins := pins }) p (epochOf s n)) n 3

/-- What the release of a step must wait for, or the slot to take up first (R41, R42, R358 to R360). -/
inductive Due where
  | go
  | hold
  | take (n : Nat)
deriving DecidableEq, Repr

/-- Slots of an epoch newer than the current one, whose SWITCH_STEP has come (`all`: whatever it is). -/
def newer (s : State) (p step : Nat) (all : Bool) (st : Nat → Bool) : Option Nat :=
  let cur := curEpoch s p
  (List.range 3).find? (fun n => st (slotSt s n) && decide (epochOf s n ≠ noEpoch) && (decide (cur = noEpoch) || decide (cur < epochOf s n)) &&
    (all || decide ((getSlot s n).swstep ≤ step)))

def epochDue (s : State) (p step : Nat) : Due :=
  let x := getPart s p
  let cur := curEpoch s p
  let up (t : Nat) : Bool := decide (t = 2) || decide (t = 3)
  if (List.range 3).any (fun n => decide (slotSt s n = 4) && decide (epochOf s n = cur) && decide (cur ≠ noEpoch)) then .hold
  else if cur = noEpoch ∧ step = 1 ∧ x.epInit.toNat = noEpoch then .go
  else if cur = noEpoch ∧ step = 1 then (match goodSlot s x.epInit.toNat with | some n => .take n | none => .hold)
  else if bit x.epCfg 31 then (match newer s p step true up with | some n => .take n | none => .go)
  else match newer s p step false up with
    | some n => .take n
    | none => match newer s p step false (fun t => decide (t = 1) || decide (t = 4)) with
      | some _ => .hold
      | none => .go

/-- P_CFG and P_INIT taken, and the epoch for the release of a step settled: held, counted once, or free to go (R370); a take-up empties
the slots that nothing uses any more (R348). -/
def epochRelease (s : State) (p step : Nat) : State × Bool :=
  let x := getPart s p
  let s := setPart s p { x with epCfg := regAt s (pEpo + Off.epoPCfg) p, epInit := regAt s (pEpo + Off.epoPInit) p }
  match epochDue s p step with
  | .go => (setPart s p { getPart s p with epHeld := false }, true)
  | .take n => (slotSweep (takeUp (setPart s p { getPart s p with epHeld := false }) p n), true)
  | .hold =>
    if (getPart s p).epHeld then (s, false)
    else (intBit (bumpAt (setPart s p { getPart s p with epHeld := true }) (pEpo + Off.epoPHolds) p 1) pEpo 2, false)

/-- The epochs of the sub-batches of a step, ascending (R363). -/
def subEpochs (s : State) (p : Nat) : List Nat :=
  let es := ((getPart s p).batch.map (·.epoch)).foldl insN []
  if es.isEmpty then [curEpoch s p] else es

/-- The value of the slot parameter for an epoch: bits [47:21] of the slot's base (R361). -/
def slotPar (s : State) (e : Nat) : Option W32 :=
  ((List.range 3).find? (fun n => decide (epochOf s n = e) && decide (e ≠ noEpoch) && decide (slotSt s n ≠ 0))).map (fun n => w32 (slotBase s n))

/-- The parameter that receives it; 0 and 1 act as 2 (SLOTPAR of P_CFG). -/
def slotParIx (c : W32) : Nat := max 2 (fld c 19 16)

/-- A step has run: pin windows shorten, and those that close unpin every request that names their epoch (R362). -/
def pinStep (s : State) (p : Nat) : State :=
  let x := getPart s p
  let ws := x.pins.map (fun w => (w.1, w.2 - 1))
  let closed := (ws.filter (fun w => decide (w.2 = 0))).map (·.1)
  let s := setPart s p { x with pins := ws.filter (fun w => decide (w.2 ≠ 0)) }
  { s with reqs := s.reqs.map (fun e =>
      if e.2.part = p ∧ e.2.st ≠ 0 ∧ closed.contains e.2.pin = true then (e.1, { e.2 with pin := noEpoch }) else e) }

end Sys2Proof.Machine
end

