-- ==== Sys2Proof/Machine/PortEng.lean ====
section
/-! DEFINITION. The port engine: groups, firings and descriptors of chains (R442 to R466), the canonical tree of ALLREDUCE
(R455 to R461), publications (R351) and the re-formation of groups (R462 to R464). -/

namespace Sys2Proof.Machine

/-! ### Groups (the table above R462) -/

/-- The module offset of a group's entry. -/
def grpAt (s : State) (g : Nat) : Nat := pair s (pPen + Off.penGrpBaseLo) % 2 ^ 50 + 32 * g
def grpN (s : State) (g : Nat) : Nat := rdNat s.mem (grpAt s g) 4
def grpRank (s : State) (g : Nat) : Nat := rdNat s.mem (grpAt s g + 4) 4
def grpEpoch (s : State) (g : Nat) : Nat := rdNat s.mem (grpAt s g + 8) 2
def grpStale (s : State) (g : Nat) : Bool := decide (rdNat s.mem (grpAt s g + 0xA) 1 = 1)
def grpShrinks (s : State) (g : Nat) : Bool := decide (rdNat s.mem (grpAt s g + 0xB) 1 = 1)
def grpList (s : State) (g : Nat) : Nat := rdNat s.mem (grpAt s g + 0x10) 8 % 2 ^ 50
/-- The module at a rank. -/
def grpMember (s : State) (g r : Nat) : Nat := rdNat s.mem (grpList s g + 2 * r) 2
def grpMembers (s : State) (g : Nat) : List Nat := (List.range (grpN s g)).map (grpMember s g)

/-- PEN.STAT.STALE. -/
def anyStale (s : State) : Bool := (List.range 64).any (grpStale s)

/-! ### Descriptors (R447) -/

abbrev PenDesc := BitVec 512

def pdOp (d : PenDesc) : Nat := recF d 0 1
def pdFlag (d : PenDesc) (i : Nat) : Bool := bit d (8 + i)
def pdWaitCtr (d : PenDesc) : Nat := recF d 2 2
def pdWaitN (d : PenDesc) : Nat := recF d 4 4
def pdNotify (d : PenDesc) : W32 := w32 (recF d 8 4)
def pdGroup (d : PenDesc) : Nat := recF d 0xC 1
def pdRop (d : PenDesc) : Nat := recF d 0xD 1
def pdArity (d : PenDesc) : Nat := recF d 0xE 1
def pdSrc (d : PenDesc) : Nat := recF d 0x10 8
def pdDst (d : PenDesc) : Nat := recF d 0x18 8
def pdLen (d : PenDesc) : Nat := recF d 0x20 8
def pdSlots (d : PenDesc) : Nat := recF d 0x28 8
def pdSeg (d : PenDesc) : Nat := recF d 0x30 4
def pdPeer (d : PenDesc) : Nat := recF d 0x34 2
def pdRctr (d : PenDesc) : Nat := recF d 0x36 2

/-- A field of a descriptor lies outside R447 (cause 1 of R466). LEN of a SIGNAL is not looked at (log entry 26). -/
def pdBad (d : PenDesc) : Bool :=
  let op := pdOp d
  decide (op = 0) || decide (5 < op) || decide (32 ≤ recF d 1 1) || (pdFlag d 4 && decide (2 < op)) ||
  (decide (pdWaitCtr d ≠ 0xFFFF) && (decide (255 < pdWaitCtr d) || decide (pdWaitN d = 0))) ||
  decide (63 < pdGroup d) || decide (recF d 0xF 1 ≠ 0) || decide (recF d 0x38 8 ≠ 0) ||
  (decide (op ≠ 4) && (decide (pdLen d = 0) || decide (2 ^ 40 < pdLen d))) ||
  (decide (op = 3) && (decide (2 < pdRop d) || decide (pdArity d < 2) || decide (16 < pdArity d) || decide (pdLen d % 4 ≠ 0) ||
    decide (pdSeg d % 4096 ≠ 0) || decide (pdSeg d = 0) || decide (16777216 < pdSeg d))) ||
  (decide (op = 5) && decide (63 < pdPeer d))

/-- The groups that a chain's descriptors name. -/
def chainGroups (s : State) (c : Chain) : List Nat :=
  (List.range c.ndesc).flatMap (fun i =>
    let d := chainDesc s c i
    if pdOp d = 4 then [] else if pdOp d = 5 then [pdGroup d % 64, pdPeer d % 64] else [pdGroup d % 64])

/-- A descriptor of a chain is a PUBLISH: the chain runs at publishing commits (R349, log entry 26). -/
def publishes (s : State) (c : Chain) : Bool := (List.range c.ndesc).any (fun i => decide (pdOp (chainDesc s c i) = 5))

/-- The groups that the chains of a partition's image name. -/
def partGroups (s : State) (p : Nat) : List Nat :=
  (List.range (chainCount s p)).flatMap (fun i => match chainHdr s p i with | some c => chainGroups s c | none => [])

/-! ### Firings (R445, R446) -/

def getFir (s : State) (p chain k : Nat) : Option Firing :=
  (getPart s p).firings.find? (fun f => decide (f.chain = chain) && decide (f.k = k))

def setFir (s : State) (p : Nat) (f : Firing) : State :=
  let x := getPart s p
  setPart s p { x with firings := x.firings.map (fun g => if g.chain = f.chain ∧ g.k = f.k then f else g) }

/-- The port engine works for a partition: it runs, the module is not fenced and has power, and its chains are not held. -/
def penRuns (s : State) (p : Nat) : Bool :=
  let x := getPart s p
  decide (x.st = .running) && !s.quar && !s.dark && !x.penHeld

/-- The port engine starts work for a partition: a quiescing page starts no firing and no descriptor, and goes on with those
started (R64, log entry 26). -/
def penGoes (s : State) (p : Nat) : Bool := penRuns s p && !bit (reg s (pPen + Off.pageCtl)) 1

/-- A firing begins (R445). -/
def firPush (s : State) (p chain lstep sw : Nat) : State :=
  let x := getPart s p
  let k := getD x.fired chain 0 + (x.firings.filter (fun f => decide (f.chain = chain))).length + 1
  setPart s p { x with firings := x.firings ++ [⟨chain, k, 0, [], [], [], [], [], lstep, sw⟩] }

/-- A field of a chain header lies outside its table (R444, R466). -/
def hdrBad (c : Chain) : Bool :=
  decide (255 < c.ctr) || decide (c.ndesc = 0) || decide (64 < c.ndesc) || decide (c.n = 0) || decide (c.zero ≠ 0)

/-- The next firing of a chain begins once START_CTR holds k × START_N, with at most two in progress and no group STALE
(R445, R464). -/
def firStart (s : State) (p chain : Nat) : State :=
  let x := getPart s p
  match chainHdr s p chain with
  | none => s
  | some c =>
    let open_ := (x.firings.filter (fun f => decide (f.chain = chain))).length
    let k := getD x.fired chain 0 + open_ + 1
    if !penGoes s p || x.chainOff.contains chain || decide (2 ≤ open_) then s
    else if hdrBad c then penFault s p chain 0 1 0
    else if publishes s c || decide (getD x.pctr c.ctr 0 < k * c.n) || (chainGroups s c).any (grpStale s) then s
    else firPush s p chain 0 0

/-- Descriptor `i` of a firing may start (R446). -/
def descReady (s : State) (p : Nat) (c : Chain) (f : Firing) (i : Nat) : Bool :=
  let d := chainDesc s c i
  decide (f.started = i) && decide (i < c.ndesc) &&
  (decide (pdWaitCtr d = 0xFFFF) || decide (f.k * pdWaitN d ≤ getD (getPart s p).pctr (pdWaitCtr d) 0)) &&
  (match getFir s p f.chain (f.k - 1) with | some g => g.done.contains i | none => true) &&
  (decide (i = 0) || !pdFlag d 1 || f.done.contains (i - 1))

/-- The firing whose descriptor `i` is to start next: the older one first. -/
def nextDesc (s : State) (p chain i : Nat) : Option (Chain × Firing × PenDesc) :=
  (chainHdr s p chain).bind (fun c =>
    ((getPart s p).firings.find? (fun f => decide (f.chain = chain) && descReady s p c f i)).map (fun f => (c, f, chainDesc s c i)))

/-- This module's place in a descriptor's group and, for a PUT or GET, its peer's are right (cause 6 of R466). -/
def rankBad (s : State) (d : PenDesc) : Bool :=
  let g := pdGroup d
  decide (pdOp d ≠ 4) &&
  (decide (grpN s g ≤ grpRank s g) || decide (grpMember s g (grpRank s g) ≠ modId s) ||
   (decide (pdOp d ≤ 2) && decide (grpN s g ≤ pdPeer d)))

/-- The first address of a span that the port engine may not use: it has no hamlet and no other tray position (R190, R431). -/
def penBad (s : State) (p a n : Nat) (write : Bool) : Option Nat :=
  match spanBad s p 128 a n write with
  | some x => some x
  | none => ((pieces a n).find? (fun x => match resolve s p 128 x.1 write with | .remote _ _ => true | _ => false)).map (·.1)

/-- What starting a descriptor does. -/
abbrev DescEffect := State → Nat → Chain → Firing → PenDesc → Nat → State

/-- The next descriptor `i` of a chain is started by the row of its OP; an unassigned OP or a bad field faults (R466). -/
def descRow (op : Nat) (eff : DescEffect) (p chain i : Nat) (s : State) : State :=
  if !penGoes s p then s
  else match nextDesc s p chain i with
    | none => s
    | some (c, f, d) =>
      let other := decide (pdOp d ≠ op) && decide (1 ≤ pdOp d) && decide (pdOp d ≤ 5)
      if other then s
      else if pdBad d then penFault s p chain i 1 0
      else if rankBad s d then penFault s p chain i 6 0
      else eff (setFir s p { f with started := i + 1 }) p c { f with started := i + 1 } d i

/-- Packets that the port engine sends, counted. -/
def penSent (s : State) (n : Nat) : State := bump s (pPen + Off.penTxPkt) n

/-- PUT: the region is read and sent in packets on VC2 (R454). -/
def putStart (m : MemOutcome) : DescEffect := fun s p _ f d i =>
  let n := pdLen d
  match penBad s p (pdSrc d) n false with
  | some a => penFault s p f.chain i 2 a
  | none =>
    let s := memErrs s 128 m
    match spanPoison s p 128 (pdSrc d) n with
    | some a => penFault s p f.chain i 3 a
    | none =>
      match m.unc with
      | some a => penFault s p f.chain i 3 a
      | none =>
        let bs := spanRead s p 128 (pdSrc d) n
        let s := spanTouch s p 128 (pdSrc d) n
        let ps := packets (n / 4096 + 1) 0 bs
        ps.foldl (fun s x => sendPkt s (grpMember s (pdGroup d) (pdPeer d)) 2 4 (if pdFlag d 4 then 1 else 0) p (pdRctr d)
          (pdDst d / 2 ^ 48 * 2 ^ 48 + (pdDst d % 2 ^ 48 + x.1) % 2 ^ 48) x.2.length x.2 (.pen p f.chain f.k i)) (penSent s ps.length)

/-- GET: requests on VC0; SRC names the region at the peer, DST the local place (R447, R451, R454; log entry 26). -/
def getStart : DescEffect := fun s p _ f d i =>
  let n := pdLen d
  match penBad s p (pdDst d) n true with
  | some a => penFault s p f.chain i 2 a
  | none =>
    let ps := spans (n / 4096 + 1) 0 n
    ps.foldl (fun s x => sendWant s (grpMember s (pdGroup d) (pdPeer d)) 5 (if pdFlag d 4 then 1 else 0) p
      (pdSrc d / 2 ^ 48 * 2 ^ 48 + (pdSrc d % 2 ^ 48 + x.1) % 2 ^ 48) x.2 128 (pdDst d + x.1) (.pen p f.chain f.k i)) (penSent s ps.length)

/-! ### ALLREDUCE (R455 to R461) -/

/-- LEN rounded up to a multiple of 128. -/
def lenR (d : PenDesc) : Nat := roundUp (pdLen d) 128
/-- Segments of the tensor, and the bytes of one. -/
def segCount (d : PenDesc) : Nat := ceilDiv (pdLen d) (pdSeg d)
def segLen (d : PenDesc) (g : Nat) : Nat := min (pdSeg d) (pdLen d - g * pdSeg d)
/-- A segment's name in a firing. -/
def segKey (i g : Nat) : Nat := i * 2 ^ 28 + g
/-- A contribution's name: chain, descriptor, parity, child, segment. -/
def arrKey (chain i q j g : Nat) : Nat := (((chain * 64 + i) * 2 + q) * 16 + j) * 2 ^ 28 + g

/-- The relative rank of this module for a segment, and the rank of a relative rank (R455). -/
def relRank (s : State) (d : PenDesc) (g : Nat) : Nat :=
  let n := grpN s (pdGroup d)
  (grpRank s (pdGroup d) + (n - g % n)) % n
def absRank (s : State) (d : PenDesc) (g v : Nat) : Nat := (v + g) % grpN s (pdGroup d)

/-- The children of this module in a segment's tree: child index and relative rank (R455). -/
def childrenOf (s : State) (d : PenDesc) (g : Nat) : List (Nat × Nat) :=
  ((List.range (pdArity d)).map (fun j => (j, pdArity d * relRank s d g + 1 + j))).filter (fun x => decide (x.2 < grpN s (pdGroup d)))

/-- A child's slot for a parity (R458). -/
def slotAt (d : PenDesc) (q j : Nat) : Nat := pdSlots d + (q * pdArity d + j) * lenR d

/-- ALLREDUCE: its regions are checked; its segments are combined as their contributions complete. -/
def arStart : DescEffect := fun s p _ f d i =>
  let bad := [penBad s p (pdSrc d) (pdLen d) false, penBad s p (pdDst d) (pdLen d) true,
              (if pdFlag d 2 then penBad s p (pdDst d + lenR d) 4 true else none),
              penBad s p (pdSlots d) (2 * pdArity d * lenR d) true]
  match bad.findSome? id with
  | some a => penFault s p f.chain i 2 a
  | none => s

/-- The combination of two words (R456, R459): its result. -/
def ropApply (rop : Nat) (a b : W32) : W32 := match rop with | 0 => fadd a b | 1 => a ||| b | _ => fmax a b

/-- One contribution combined into the accumulator, with its NF. -/
def ropStep (rop : Nat) (x : List W32 × Bool) (b : List W32) : List W32 × Bool :=
  let r := List.zipWith (ropApply rop) x.1 b
  (r, x.2 || (decide (rop ≠ 1) && r.any nonFinite))

/-- Bytes as words. -/
def wordsOf : Nat → List Byte → List W32
  | 0, _ => []
  | n + 1, d => BitVec.ofNat 32 (ofBytes (d.take 4)) :: wordsOf n (d.drop 4)

/-- ADDR of a REDUCE_PUT (R451). -/
def redAddr (chain i j q : Nat) (down : Bool) (off : Nat) : Nat :=
  chain * 2 ^ 52 + i * 2 ^ 46 + j * 2 ^ 42 + q * 2 ^ 41 + (if down then 2 ^ 40 else 0) + off

/-- A segment sent to a rank on VC3 (R456, R457). -/
def sendRed (s : State) (p : Nat) (f : Firing) (d : PenDesc) (i r j : Nat) (down nf : Bool) (off : Nat) (bs : List Byte) : State :=
  let ps := packets (bs.length / 4096 + 1) off bs
  ps.foldl (fun s x => sendPkt s (grpMember s (pdGroup d) r) 3 7 (if nf then 2 else 0) p 0 (redAddr f.chain i j (f.k % 2) down x.1)
    x.2.length x.2 (.pen p f.chain f.k i)) (penSent s ps.length)

/-- A result sent to this module's children (R457). -/
def sendDown (s : State) (p : Nat) (f : Firing) (d : PenDesc) (i g : Nat) (nf : Bool) (bs : List Byte) : State :=
  (childrenOf s d g).foldl (fun s c => sendRed s p f d i (absRank s d g c.2) c.1 true nf (g * pdSeg d) bs) s

/-- A segment's result is here: marked with its NF and passed down (R457, R459). -/
def segResult (s : State) (p : Nat) (f : Firing) (d : PenDesc) (i g : Nat) (nf : Bool) (bs : List Byte) : State :=
  let k := segKey i g
  let f := { f with resulted := f.resulted ++ [k], nf := if nf && !f.nf.contains k then f.nf ++ [k] else f.nf }
  sendDown (setFir s p f) p f d i g nf bs

/-- The firing in which a segment can be combined now: its descriptor has started, the segment is not combined and every
child's slot for it is complete (R456). -/
def combinable (s : State) (p chain i g : Nat) : Option (Firing × PenDesc) :=
  (chainHdr s p chain).bind (fun c =>
    let d := chainDesc s c i
    if pdOp d ≠ 3 ∨ pdBad d = true ∨ segCount d ≤ g then none
    else ((getPart s p).firings.find? (fun f => decide (f.chain = chain) && decide (i < f.started) && !f.combined.contains (segKey i g) &&
      (childrenOf s d g).all (fun x => decide ((getD (getPart s p).arrived (arrKey chain i (f.k % 2) x.1 g) (0, false)).1 = segLen d g)))).map
        (fun f => (f, d)))

/-- A node combines a segment in ascending child order and sends it up, or at the root writes and sends the result (R456,
R457, R459). -/
def segCombine (s : State) (p chain i g : Nat) : State :=
  if !penRuns s p then s
  else match combinable s p chain i g with
    | none => s
    | some (f, d) =>
      let q := f.k % 2
      let off := g * pdSeg d
      let n := segLen d g
      let kids := childrenOf s d g
      let places := (pdSrc d + off) :: kids.map (fun x => slotAt d q x.1 + off)
      match places.findSome? (fun a => spanPoison s p 128 a n) with
      | some a => penFault s p chain i 3 a
      | none =>
        let rd (a : Nat) : List W32 := wordsOf (n / 4) (spanRead s p 128 a n)
        let own := rd (pdSrc d + off)
        let nf0 := (decide (pdRop d ≠ 1) && own.any nonFinite) ||
          kids.any (fun x => (getD (getPart s p).arrived (arrKey chain i q x.1 g) (0, false)).2)
        let (acc, nf) := (kids.map (fun x => rd (slotAt d q x.1 + off))).foldl (ropStep (pdRop d)) (own, nf0)
        let nf := nf && decide (pdRop d ≠ 1)
        let bs := acc.flatMap (fun w => bytesOf 4 w.toNat)
        let s := places.foldl (fun s a => spanTouch s p 128 a n) s
        let x := getPart s p
        let s := setPart s p { x with arrived := x.arrived.filter (fun e => !(kids.any (fun y => decide (e.1 = arrKey chain i q y.1 g)))) }
        let f := { f with combined := f.combined ++ [segKey i g] }
        let s := setFir s p f
        let v := relRank s d g
        if v = 0 then segResult (spanWrite s p 128 (pdDst d + off) bs) p f d i g nf bs
        else sendRed s p f d i (absRank s d g ((v - 1) / pdArity d)) ((v - 1) % pdArity d) false nf off bs

/-! ### PUBLISH (R351) -/

/-- The 128-byte shard header of a publication (R351). -/
def pubHeader (s : State) (f : Firing) (d : PenDesc) (bs : List Byte) : List Byte :=
  let g := pdGroup d
  bytesOf 4 f.lstep ++ bytesOf 2 (grpRank s g) ++ bytesOf 2 (grpN s g) ++ bytesOf 8 f.sw ++ bytesOf 8 f.lstep ++
  bytesOf 8 (pdDst d % 2 ^ 48) ++ bytesOf 8 bs.length ++ bytesOf 2 s.mepoch ++ bytesOf 2 (modId s) ++ bytesOf 4 0 ++ sha384 bs ++
  bytesOf 32 0

/-- PUBLISH: header and shard to every subscriber on VC4 as PUTs to handle 0x3FF (log entry 24). -/
def pubStart : DescEffect := fun s p _ f d i =>
  let n := pdLen d
  match penBad s p (pdSrc d) n false with
  | some a => penFault s p f.chain i 2 a
  | none =>
    match spanPoison s p 128 (pdSrc d) n with
    | some a => penFault s p f.chain i 3 a
    | none =>
      let bs := spanRead s p 128 (pdSrc d) n
      let s := spanTouch s p 128 (pdSrc d) n
      let all := pubHeader s f d bs ++ bs
      let ps := packets (all.length / 4096 + 1) 0 all
      (grpMembers s (pdPeer d)).foldl (fun s m =>
        ps.foldl (fun s x => sendPkt s m 4 4 0 p 0xFFFF (0x3FF * 2 ^ 48 + x.1) x.2.length x.2 (.pen p f.chain f.k i)) (penSent s ps.length)) s

/-! ### Completion (R446, R460) -/

/-- Every packet that a descriptor sent is acknowledged and every byte it asked for has come. -/
def descQuiet (s : State) (o : Owner) : Bool := s.fab.unacked.all (fun u => decide (u.owner ≠ o)) && s.fab.wants.all (fun w => decide (w.owner ≠ o))

/-- A started descriptor has done its work (R446, R454, R457). -/
def descDone (s : State) (p : Nat) (f : Firing) (d : PenDesc) (i : Nat) : Bool :=
  match pdOp d with
  | 3 => (List.range (segCount d)).all (fun g => f.resulted.contains (segKey i g))
  | 4 => true
  | 5 => s.pubs.all (fun u => !(decide (u.1 = p) && decide (u.2.1 = f.chain)))
  | _ => descQuiet s (.pen p f.chain f.k i)

/-- A descriptor completes: status word, NOTIFY, and the firing when it was the last (R446, R460). -/
def descFinish (s : State) (p : Nat) (c : Chain) (f : Firing) (d : PenDesc) (i : Nat) : State :=
  let nf := f.nf.any (fun k => decide (k / 2 ^ 28 = i))
  let s := if pdOp d = 3 && pdFlag d 2 then spanWrite s p 128 (pdDst d + lenR d) (bytesOf 4 (if nf then 1 else 0)) else s
  let f := { f with done := insN f.done i }
  let x := getPart s p
  let s := if c.ndesc ≤ f.done.length then
      setPart s p { x with firings := x.firings.filter (fun g => !(decide (g.chain = f.chain) && decide (g.k = f.k))),
                           fired := putS x.fired f.chain f.k }
    else setFir s p f
  if pdFlag d 3 then signalEntry s p (pdNotify d) ⟨2, 0, 0, 0xFFFF, f.chain % 4096, 0⟩ else s

/-- The oldest firing whose descriptor `i` is started, not complete and done. -/
def descComplete (s : State) (p chain i : Nat) : State :=
  match chainHdr s p chain with
  | none => s
  | some c =>
    let d := chainDesc s c i
    match (getPart s p).firings.find? (fun f => decide (f.chain = chain) && decide (i < f.started) && !f.done.contains i) with
    | some f => if pdBad d || !descDone s p f d i || s.quar then s else descFinish s p c f d i
    | none => s

/-- SIGNAL completes as soon as it starts (R447). -/
def sigStart : DescEffect := fun s p c f d i => descFinish s p c f d i

/-! ### Membership changes (R462 to R464) -/

/-- Free bytes for a region whose contents become undefined (R462, R550; log entry 8). -/
def freeSpan (s : State) (p h a n : Nat) : State :=
  let bs := (List.range n).map (fun i => BitVec.ofNat 8 (Config.freeWord (s.freeCtr + i)).toNat)
  if (spanBad s p h a n true).isSome then s
  else { spanWrite s p h a bs with freeCtr := s.freeCtr + n }

/-- The arrival slots of a partition's chains become undefined (R462). -/
def slotsUndef (s : State) (p : Nat) : State :=
  (List.range (chainCount s p)).foldl (fun s i =>
    match chainHdr s p i with
    | none => s
    | some c => (List.range c.ndesc).foldl (fun s j =>
        let d := chainDesc s c j
        if pdOp d = 3 && !pdBad d then freeSpan s p 128 (pdSlots d) (2 * pdArity d * lenR d) else s) s) s

/-- Counters, firings and chains of a partition start over (R442). -/
def penClear (s : State) (p : Nat) : State :=
  let own (o : Owner) : Bool := match o with | .pen q _ _ _ => decide (q = p) | _ => false
  let s := setPart s p { getPart s p with pctr := [], firings := [], fired := [], chainOff := [], arrived := [] }
  { s with fab := { s.fab with wants := s.fab.wants.filter (fun w => !own w.owner),
                               unacked := s.fab.unacked.filter (fun u => !own u.owner) } }

/-- A new membership epoch at the port engine, in one operation (R462). -/
def penAdopt (s : State) : State :=
  let ps := (List.range 32).filter (fun p => decide (0 < chainCount s p))
  let any := ps.any (fun p => !(getPart s p).firings.isEmpty)
  let s := ps.foldl (fun s p =>
    let s := if (getPart s p).firings.isEmpty then s else slotsUndef s p
    let s := penClear s p
    setPart s p { getPart s p with penHeld := true }) s
  let s := (List.range 64).foldl (fun s g => { s with mem := wrNat s.mem (grpAt s g + 0xA) 1 1 }) s
  let s := { s with fab := { s.fab with held := [] } }
  let s := intBit s pPen 1
  if any then intBit s pPen 2 else s

/-- A new release finds every group of the partition's chains VALID: firings start over at k = 1 (R464). -/
def chainRestart (s : State) (p : Nat) : State :=
  let x := getPart s p
  if x.penHeld && !(partGroups s p).any (grpStale s) then setPart s p { x with penHeld := false } else s

/-- The DEADs adopted after a group's entry was written. -/
def deathsSince (s : State) (e : Nat) : List (Nat × Nat × Nat) := s.deaths.filter (fun x => serialAfter x.1 e)

/-- Firmware rewrites a STALE group for the new epoch by its POLICY (R463). A REPLACE group waits until every dead member has
a replacement, named in its DEAD or supplied later (`replace`). -/
def groupReform (s : State) (g : Nat) (replace : Bool) : State :=
  if !grpStale s g then s
  else
    let ms := grpMembers s g
    let dead := ((deathsSince s (grpEpoch s g)).filter (fun x => ms.contains x.2.1))
    let out := if grpShrinks s g then ms.filter (fun m => !(dead.any (fun x => decide (x.2.1 = m)))) else ms
    if !grpShrinks s g && !replace && dead.any (fun x => decide (x.2.2 = 0xFFFE)) then s
    else
      let a := grpAt s g
      let mem := wrBytes s.mem (grpList s g) (out.flatMap (bytesOf 2))
      let mem := wrNat mem a 4 out.length
      let mem := wrNat mem (a + 4) 4 ((out.findIdx? (fun m => decide (m = modId s))).getD (grpRank s g))
      { s with mem := wrNat (wrNat mem (a + 8) 2 s.mepoch) (a + 0xA) 1 0 }

/-! ### The rows -/

/-- A PEN command increments the START_CTR of its chain; one that names no chain faults with cause 1 (R162, R443; log entry
26). -/
def effPen : Effect := fun s h _ w _ =>
  match (getHam s h).part with
  | none => s
  | some p =>
    let i := fld w 15 0
    match chainHdr s p i with
    | some c => if 255 < c.ctr then penFault s p i 0 1 0 else penInc s p c.ctr
    | none => penFault s p (i % 4096) 0 1 0

def execPenTrigger (d : Disp) (s : State) : Res := checked (.penTrigger d) (dispatch 7 1 (atOnce effPen) d s)

/-- A firing begins (R445). -/
def execFiringStart (part chain : Nat) (s : State) : Res := checked (.firingStart part chain) (firStart s part chain)

/-- A PUT descriptor starts (R454). -/
def execDescPut (part chain idx : Nat) (mem : MemOutcome) (s : State) : Res :=
  checked (.descPut part chain idx mem) (descRow 1 (putStart mem) part chain idx s)

/-- A GET descriptor starts (R454). -/
def execDescGet (part chain idx : Nat) (s : State) : Res := checked (.descGet part chain idx) (descRow 2 getStart part chain idx s)

/-- An ALLREDUCE descriptor starts (R455). -/
def execAllreduce (part chain idx : Nat) (s : State) : Res := checked (.allreduce part chain idx) (descRow 3 arStart part chain idx s)

/-- A SIGNAL descriptor starts and completes (R447). -/
def execDescSignal (part chain idx : Nat) (s : State) : Res := checked (.descSignal part chain idx) (descRow 4 sigStart part chain idx s)

/-- A PUBLISH descriptor starts (R351). -/
def execPublish (part chain idx : Nat) (s : State) : Res := checked (.publish part chain idx) (descRow 5 pubStart part chain idx s)

/-- A segment is combined (R456). -/
def execSegmentCombine (part chain idx seg : Nat) (s : State) : Res :=
  checked (.segmentCombine part chain idx seg) (segCombine s part chain idx seg)

/-- A descriptor completes (R446). -/
def execDescriptorComplete (part chain idx : Nat) (s : State) : Res :=
  checked (.descriptorComplete part chain idx) (descComplete s part chain idx)

/-- Clearing PEN.FAULT.VALID (PEN.FAULT). -/
def execPenFaultClear (w : Writer) (v : W32) (s : State) : Res :=
  checked (.penFaultClear w v) (clearValid w (pPen + Off.penFault) v [pPen + Off.penFaultAddrLo, pPen + Off.penFaultAddrHi] s)

/-- A STALE group is rewritten (R463). -/
def execGroupReform (group : Nat) (replace : Bool) (s : State) : Res := checked (.groupReform group replace) (groupReform s group replace)

end Sys2Proof.Machine
end

