-- ==== Sys2Proof/Machine/ReqCmds.lean ====
section
/-! DEFINITION. Request commands and environment messages (R277 to R280, R295, R296), budgets (R285, R286), parking and expiry
(R299, R300), and shipping (R303 to R305). -/

namespace Sys2Proof.Machine

/-! ### The command record (R278) -/

def rcOp (w : W256) : Nat := recF w 0 1
def rcSlot (w : W256) : Nat := recF w 2 2
def rcN (w : W256) : Nat := recF w 4 4
def rcAddr (w : W256) : Nat := recF w 8 8
def rcArg (w : W256) : Nat := recF w 0x10 8

/-- The entry image of a SUBMIT as it stands in memory. -/
def submitImage (s : State) (w : W256) : W1024 := BitVec.ofNat 1024 (rdNat s.mem (gOff (rcAddr w)) 128)

/-- The function that a command serves (R278): the issuing one, or for the PF the one whose slot range holds the slot. -/
def cmdFn (s : State) (fn : Nat) (w : W256) : Option Nat :=
  if fn = 0x200 then slotOwner s (rcSlot w) else if inSlots s fn (rcSlot w) then some fn else none

/-- The states in which a command is valid (R278). -/
def validIn (op : Nat) (r : Req) : Bool :=
  let st := r.st
  match op with
  | 1 => decide (st = stFree)
  | 2 => decide (st = stPaused) || decide (st = stParked) || decide (st = stExpired)
  | 3 => decide (st = stPaused) || decide (st = stParked) || decide (st = stExpired)
  | 4 => decide (st = stQueued)
  | 5 => decide (st = stPaused)
  | 6 => decide (st = stQueued) || decide (st = stPaused) || decide (st = stParked) || decide (st = stExpired)
  | 7 => decide (st = stDone) || decide (st = stFaulted) || decide (st = stExpired)
  | 8 => decide (st = stQueued) && decide (r.lk - r.lc = 1)
  | 9 => decide (st ≠ stFree)
  | 10 => decide (st ≠ stFree)
  | _ => false

/-- An address of a submitted entry image lies outside the function's allocations (R279, check 8). -/
def submitAddrBad (s : State) (fn : Nat) (w : W256) : Bool :=
  let r := reqOfImage (submitImage s w)
  !inAllocs s fn (rcAddr w) 128 || !inAllocs s fn r.tokAddr (4 * r.lmax) ||
  !inAllocs s fn r.pageList (8 * ceilDiv r.lmax 16) || (decide (r.draftAddr ≠ 0) && !inAllocs s fn r.draftAddr 64)

/-- The granary records that a command produces (R297), for a request with GRANARY set. -/
def cmdRecords (op lk n : Nat) : Nat :=
  match op with
  | 1 => 2 + ceilDiv lk 8
  | 2 => 1 + ceilDiv n 8
  | 6 => 1
  | 10 => 1
  | _ => 0

/-- Those records could never fit (R279, check 7). -/
def neverFits (s : State) (r : Req) (k : Nat) : Bool :=
  let g := (getPart s r.part).gen
  wantsGranary s r && decide (grnSize g - g.reserve < k)

/-- They do not fit now above the reserve (R298). -/
def noRoom (s : State) (r : Req) (k : Nat) : Bool :=
  wantsGranary s r && decide (grnFree s r.part < (getPart s r.part).gen.reserve + k)

/-- The request as a command of it would leave it named: the entry, or for a SUBMIT its image. -/
def cmdReq (s : State) (w : W256) : Req := if rcOp w = 1 then reqOfImage (submitImage s w) else getReq s (rcSlot w)

/-- The pool of a generator partition; none for a learner or a FREE partition. -/
def poolOf (s : State) (p : Nat) : Option Nat :=
  let x := getPart s p
  if x.learner ∨ x.st = .free then none else some x.pool

/-- The cause of the first check of R279 that a command fails; 0 when it passes them all. -/
def cmdCause (s : State) (fn : Nat) (w : W256) : Nat :=
  let op := rcOp w
  let slot := rcSlot w
  let n := rcN w
  if op = 0 ∨ 10 < op ∨ recF w 1 1 ≠ 0 ∨ recF w 0x18 8 ≠ 0 ∨ 16384 ≤ slot ∨ (op = 1 ∧ (n ≠ 0 ∨ rcArg w ≠ 0)) then 7
  else match cmdFn s fn w with
    | none => 1
    | some f =>
      let r := cmdReq s w
      if !validIn op (getReq s slot) || (decide (op = 1) && (getS s.shipIn slot).isSome) then 2
      else if op = 2 ∧ (rcArg w % 2 ^ 32 ≠ r.lk ∨ r.lmax ≤ r.lk + n) then 3
      else if (op = 2 ∧ poolOf s r.part = some 2) ∨
          (op = 1 ∧ (poolOf s r.part = some 2 ∨ (poolOf s r.part = some 1 ∧ r.ship / 2 ^ 31 = 0))) then 4
      else if (op = 1 ∧ (imageBad (submitImage s w) = true ∨ (assigned s f r.part && (poolOf s r.part).isSome) = false)) ∨
          (op = 2 ∧ (n < 1 ∨ 16384 < n)) ∨ (op = 8 ∧ (n < 1 ∨ 15 < n)) then 5
      else if neverFits s r (cmdRecords op r.lk n) then 8
      else if (op = 1 ∧ submitAddrBad s f w = true) ∨ (op = 2 ∧ inAllocs s f (rcAddr w) (4 * n) = false) ∨
          (op = 8 ∧ (inAllocs s f (rcAddr w) (4 * n) = false ∨ r.draftAddr = 0)) then 6
      else 0

/-- A rejected command: counted, the first recorded, a STATUS record to the issuer (R279). -/
def rejectReq (s : State) (fn : Nat) (w : W256) (cause : Nat) : State :=
  let slot := rcSlot w % 16384
  let s := bump s (pReq + Off.reqCmdRej) 1
  let s := if bit (reg s (pReq + Off.reqLastRej)) 31 then s
    else setReg s (pReq + Off.reqLastRej) (w32 (2 ^ 31 + cause * 2 ^ 16 + slot))
  hrStatus (intBit s pReq 0) fn (statusRec slot (getReq s slot) cause)

/-! ### The effects (R278, R280) -/

def effSubmit (s : State) (fn : Nat) (w : W256) : State :=
  let slot := rcSlot w
  let r := { reqOfImage (submitImage s w) with func := fn, admitNo := s.admitSeq }
  let s := setReqSt { (setReq s slot r) with admitSeq := s.admitSeq + 1 } slot stQueued
  grnReq s r (startRec slot r false :: obsRecs slot 0 (readToks s r.tokAddr r.lk))

/-- N tokens from an address appended at position LK, and the request queued (R278, R296). -/
def appendToks (s : State) (slot : Nat) (ts : List W32) : State :=
  let r := getReq s slot
  let s := writeToks s (r.tokAddr + 4 * r.lk) ts
  let s := setReq s slot { r with lk := r.lk + ts.length }
  grnReq (resumeReq s slot) r (obsRecs slot r.lk ts)

def effAppend (s : State) (w : W256) : State := appendToks s (rcSlot w) (readToks s (rcAddr w) (rcN w))

def effCancel (s : State) (slot cause : Nat) : State :=
  let s := endReq s slot stDone cause
  grnReq s (getReq s slot) [endRec slot (getReq s slot)]

def effDraft (s : State) (w : W256) : State :=
  let r := getReq s (rcSlot w)
  let s := memWrite s (gOff r.draftAddr) (rdBytes s.mem (gOff (rcAddr w)) (4 * rcN w))
  setReq s (rcSlot w) { r with ndraft := rcN w }

def effSetprio (s : State) (w : W256) : State :=
  setReq s (rcSlot w) { getReq s (rcSlot w) with prio := rcN w % 8, deadline := rcArg w }

def effReward (s : State) (slot chan value : Nat) : State :=
  let r := getReq s slot
  grnReq s r [rewardRec slot r chan value]

/-- What an accepted command does. -/
def cmdEffect (s : State) (fn : Nat) (w : W256) : State :=
  let slot := rcSlot w
  match rcOp w with
  | 1 => effSubmit s fn w
  | 2 => effAppend s w
  | 3 => resumeReq s slot
  | 4 => setReqSt s slot stPaused
  | 5 => parkReq s slot
  | 6 => effCancel s slot 0x22
  | 7 => freeReq s slot
  | 8 => effDraft s w
  | 9 => effSetprio s w
  | 10 => effReward s slot (rcArg w / 2 ^ 32) (rcArg w % 2 ^ 32)
  | _ => s

/-- A command applied: rejected, deferred for the granary (none), or done (R279, R298). -/
def applyCmd (s : State) (fn : Nat) (w : W256) : Option State :=
  let c := cmdCause s fn w
  if c ≠ 0 then some (rejectReq s fn w c)
  else if noRoom s (cmdReq s w) (cmdRecords (rcOp w) (cmdReq s w).lk (rcN w)) then none
  else some (cmdEffect s ((cmdFn s fn w).getD 0) w)

/-! ### Environment messages (R295, R296) -/

def emSlot (h : W256) : Nat := recF h 0 2
def emFlags (h : W256) : Nat := recF h 2 2
def emN (h : W256) : Nat := recF h 8 4

/-- Every part of the message would be accepted (R296). -/
def envOk (s : State) (qp : Nat) (h : W256) (ts : List W32) : Bool :=
  let slot := emSlot h
  let r := getReq s slot
  let fl := emFlags h
  let toks := decide (fl % 2 = 1)
  let n := emN h
  decide (slot < 16384) && decide (fl < 8) && decide (recF h 0x14 12 = 0) && decide (r.st ≠ stFree) &&
  decide (r.envQp = 32768 + qp) && decide (ts.length = n) &&
  (if toks then
    decide (1 ≤ n) && decide (n ≤ 16384) && decide (recF h 4 4 = r.lk) && validIn 2 r && decide (r.lk + n < r.lmax) &&
      decide (poolOf s r.part ≠ some 2)
   else decide (n = 0)) &&
  (decide (fl / 4 % 2 = 0) || toks || validIn 6 r) &&
  !neverFits s r ((if toks then cmdRecords 2 0 n else 0) + fl / 2 % 2 + fl / 4 % 2)

/-- A message applied as APPEND, REWARD and CANCEL, discarded whole, or deferred (R296, R298). -/
def applyEnv (s : State) (qp : Nat) (h : W256) (ts : List W32) : Option State :=
  let slot := emSlot h
  let fl := emFlags h
  if !envOk s qp h ts then some (intBit (bump s (pOrc + Off.orcEnvDisc) 1) pOrc 1)
  else if noRoom s (getReq s slot) ((if fl % 2 = 1 then cmdRecords 2 0 (emN h) else 0) + fl / 2 % 2 + fl / 4 % 2) then none
  else
    let s := if fl % 2 = 1 then appendToks s slot ts else s
    let s := if fl / 2 % 2 = 1 then effReward s slot (recF h 0x10 4) (recF h 0x0C 4) else s
    some (if fl / 4 % 2 = 1 then effCancel s slot 0x23 else s)

/-! ### The hub's queue (R277) -/

/-- The slot that an item names. -/
def itemSlot : HubItem → Nat
  | .cmd _ w _ => rcSlot w
  | .msg _ h _ _ => emSlot h

/-- The partition at whose boundary an item is applied; none when it names no generator partition. -/
def itemPart (s : State) : HubItem → Option Nat
  | .cmd _ w _ =>
    let q := cmdReq s w
    if (rcOp w = 1 ∨ q.st ≠ stFree) ∧ q.part < 32 ∧ (poolOf s q.part).isSome = true then some q.part else none
  | .msg _ h _ _ =>
    let q := getReq s (emSlot h)
    if q.st ≠ stFree ∧ (poolOf s q.part).isSome = true then some q.part else none

def applyItem (s : State) : HubItem → Option State
  | .cmd fn w _ => applyCmd s fn w
  | .msg qp h ts _ => applyEnv s qp h ts

/-- An item reaches the hub and waits for the next boundary of its partition; one of no partition is applied at once. -/
def hubPut (s : State) (i : HubItem) : State :=
  match itemPart s i with
  | some _ => { s with hub := s.hub ++ [i] }
  | none => (applyItem s i).getD s

/-- An item applied by its own row: at once between the steps of its partition when nothing of the partition waits before
it, and otherwise from the hub's queue at the next boundary (log entry 20). -/
def hubRow (s : State) (i : HubItem) : State :=
  match itemPart s i with
  | none => (applyItem s i).getD s
  | some p =>
    if (getPart s p).inStep || s.hub.any (fun j => decide (itemPart s j = some p)) then { s with hub := s.hub ++ [i] }
    else match applyItem s i with
      | some s => s
      | none => { s with hub := s.hub ++ [i] }

/-- A function that may issue commands: the PF, or an enabled function without FLR pending. -/
def mayIssue (s : State) (fn : Nat) : Bool :=
  decide (fn = 0x200) || (fnOn s fn && !bit (reg s (fncPg fn + Off.fncStat)) 31)

/-- The row of one opcode. -/
def cmdRow (op : Nat) (o : Origin) (w : W256) (s : State) : State :=
  when (decide (rcOp w = op) && mayIssue s o.fn) (fun s => hrNotify s (hubRow s (.cmd o.fn w s.time))) s

def execSubmit (o : Origin) (cmd : W256) (s : State) : Res := checked (.submit o cmd) (cmdRow 1 o cmd s)
def execAppend (o : Origin) (cmd : W256) (s : State) : Res := checked (.append o cmd) (cmdRow 2 o cmd s)
def execResume (o : Origin) (cmd : W256) (s : State) : Res := checked (.resume o cmd) (cmdRow 3 o cmd s)
def execPause (o : Origin) (cmd : W256) (s : State) : Res := checked (.pause o cmd) (cmdRow 4 o cmd s)
def execPark (o : Origin) (cmd : W256) (s : State) : Res := checked (.park o cmd) (cmdRow 5 o cmd s)
def execCancel (o : Origin) (cmd : W256) (s : State) : Res := checked (.cancel o cmd) (cmdRow 6 o cmd s)
def execRelease (o : Origin) (cmd : W256) (s : State) : Res := checked (.release o cmd) (cmdRow 7 o cmd s)
def execDraft (o : Origin) (cmd : W256) (s : State) : Res := checked (.draft o cmd) (cmdRow 8 o cmd s)
def execSetprio (o : Origin) (cmd : W256) (s : State) : Res := checked (.setprio o cmd) (cmdRow 9 o cmd s)
def execReward (o : Origin) (cmd : W256) (s : State) : Res := checked (.reward o cmd) (cmdRow 10 o cmd s)

/-- An environment message (R295, R296). -/
def execEnvironmentMessage (qp : Nat) (hdr : W256) (toks : List W32) (s : State) : Res :=
  checked (.environmentMessage qp hdr toks) (hrNotify s (hubRow s (.msg qp hdr toks s.time)))

/-- A queue pair enters an error state: each partition that holds a request naming it acts at its next boundary (R296). -/
def execQpError (qp : Nat) (s : State) : Res :=
  checked (.qpError qp) ((List.range 32).foldl (fun s p =>
    if (slotsOf s p).any (fun i => decide ((getReq s i).envQp = 32768 + qp)) then
      setPart s p { getPart s p with qpErr := if (getPart s p).qpErr.contains qp then (getPart s p).qpErr else (getPart s p).qpErr ++ [qp] }
    else s) s)

/-! ### Budgets (R285, R286) -/

/-- The module offset of a budget entry. -/
def budAt (s : State) (i : Nat) : Nat := gOff (pair s (pOrc + Off.orcBudBaseLo)) + 16 * i

def budRate (s : State) (i : Nat) : Nat := rdNat s.mem (budAt s i) 4
def budBurst (s : State) (i : Nat) : Nat := rdNat s.mem (budAt s i + 4) 4
def budBal (s : State) (i : Nat) : Nat := rdNat s.mem (budAt s i + 8) 4
def setBal (s : State) (i v : Nat) : State := memWrite s (budAt s i + 8) (bytesOf 4 v)

/-- The balances of a function at BURST, as when it is enabled (R285). -/
def budFill (s : State) (n : Nat) : State := (List.range 4).foldl (fun s c => setBal s (4 * n + c) (budBurst s (4 * n + c))) s

/-- Module time moved on, never back. -/
def advance (s : State) (now : Nat) : State := { s with time := max s.time now }

/-- Whole seconds of module time crossed: every entry of an enabled function gets RATE for each, up to BURST (R286). -/
def budRefill (s : State) (now : Nat) : State :=
  let k := now / 1000000000 - s.time / 1000000000
  if k = 0 then s
  else
    ((List.range 512).filter (fnOn s)).foldl (fun s n =>
      (List.range 4).foldl (fun s c => let i := 4 * n + c; setBal s i (min (budBurst s i) (budBal s i + k * budRate s i))) s)
      (advance s now)

def execBudgetRefill (now : Nat) (s : State) : Res := checked (.budgetRefill now) (budRefill s now)

/-! ### Parking and expiry (R299, R300) -/

/-- A request PAUSED for ORC.PARK_AFTER ms parks. -/
def execParkAfterExpiry (slot now : Nat) (s : State) : Res :=
  checked (.parkAfterExpiry slot now) (
    let r := getReq s slot
    let k := (reg s (pOrc + Off.orcParkAfter)).toNat
    when (decide (r.st = stPaused) && decide (k ≠ 0xFFFFFFFF) && decide (r.pausedAt + k * 1000000 ≤ now))
      (fun s => hrNotify s (parkReq (advance s now) slot)) s)

/-- An APPEND or RESUME of the slot reached the hub before a time (R300). -/
def resumeWaits (s : State) (slot t : Nat) : Bool :=
  s.hub.any (fun i => match i with
    | .cmd _ w a => decide (rcSlot w = slot) && (decide (rcOp w = 2) || decide (rcOp w = 3)) && decide (a < t)
    | .msg _ h _ a => decide (emSlot h = slot) && decide (emFlags h % 2 = 1) && decide (a < t))

/-- A PARKED request reaches its EXPIRY (R300). -/
def execParkedExpiry (slot now : Nat) (s : State) : Res :=
  checked (.parkedExpiry slot now) (
    let r := getReq s slot
    when (decide (r.st = stParked) && decide (r.expiry ≠ 2 ^ 64 - 1) && decide (r.expiry ≤ now) && !resumeWaits s slot r.expiry)
      (fun s => hrNotify s (expireReq (advance s now) slot)) s)

/-! ### Shipping (R303 to R305) -/

def shipMod (r : Req) : Nat := r.ship % 65536
def shipPart (r : Req) : Nat := r.ship / 65536 % 32

/-- The source offers the entry to the target (R303). -/
def shipOffer (s : State) (slot : Nat) : State :=
  let r := getReq s slot
  { s with out := s.out ++ [.shipOffer (shipMod r) (shipPart r) slot] }

/-- A FREE slot of a function's range that no shipment has taken, the lowest (log entry 19). -/
def freeSlot (s : State) (n : Nat) : Option Nat :=
  let v := reg s (fncPg n + Off.fncSlots)
  (natsFrom (fld v 29 16) (fld v 14 0)).find? (fun i => decide ((getReq s i).st = stFree) && (getS s.shipIn i).isNone && decide (i < 16384))

/-- The target's side: accepted or refused (R303, R304). -/
def shipTarget (s : State) (e : W1024) (src srcSlot p : Nat) : State :=
  let fn := recF e 2 2
  let lc := recF e 8 4
  let no := { s with out := s.out ++ [.shipReply src srcSlot none] }
  if !(decide (fn < 512) && fnOn s fn && assigned s fn p && decide (poolOf s p = some 2)) then no
  else match freeSlot s fn with
    | none => no
    | some slot =>
      match kvAlloc s (poolIx 0 p) (ceilDiv lc 16) with
      | none => no
      | some (s, as_) =>
        let q := reqOfImage e
        let r := { q with func := fn, part := p, lc := lc, lt := lc, tokAddr := q.shipTok, ship := q.ship % 2 ^ 31,
                          pin := 0xFFFFFFFF, admitNo := s.admitSeq, fresh := false }
        let s := ((List.range as_.length).zip as_).foldl (fun s x => setReqDesc s r x.1 (newDesc x.2 false)) s
        let s := bump s (pReq + Off.reqShipped) 1
        { s with shipIn := putS s.shipIn slot ⟨src, srcSlot, r⟩, admitSeq := s.admitSeq + 1,
                 out := s.out ++ [.shipReply src srcSlot (some slot)] }

/-- Bytes put at an address of the target module: PUTs on VC5 whose ADDR is that address (R421, log entry 49). -/
def shipPut (s : State) (slot dst part a : Nat) (bs : List Byte) : State :=
  if dst = modId s then memWrite s (gOff a) bs
  else (packets (bs.length / 4096 + 1) a bs).foldl (fun s x => sendPkt s dst 5 4 0 part 0xFFFF x.1 x.2.length x.2 (.ship slot)) s

/-- A PUT on VC5 writes within the frames or the token buffer of a shipment that this module has accepted from its source
(R304, log entry 49). -/
def shipAdmits (s : State) (src a n : Nat) : Bool :=
  s.shipIn.any (fun e =>
    let r := e.2.req
    let within (b len : Nat) : Bool := decide (b ≤ a) && decide (a + n ≤ b + len)
    decide (e.2.src = src) && (within r.tokAddr (4 * r.lk) ||
      (List.range (ceilDiv r.lc 16)).any (fun g => within (descAddr (reqDesc s r g)) (kvBytes s (poolIx 0 r.part)))))

/-- The source's side: its carts copy the frames and the token buffer (R304). -/
def shipSource (s : State) (slot tgt : Nat) (frames : List Nat) : State :=
  let r := getReq s slot
  if r.st ≠ stShipped ∨ r.accepted ≠ none then s
  else
    let s := setReq s slot { r with accepted := some tgt, retryAt := none }
    let gs := List.range (ceilDiv r.lc 16)
    let s := (gs.zip frames).foldl (fun s x =>
      shipPut s slot (shipMod r) (shipPart r) x.2 (rdBytes s.mem (gOff (descAddr (reqDesc s r x.1))) (kvBytes s (poolIx 0 r.part)))) s
    shipPut s slot (shipMod r) (shipPart r) r.shipTok (rdBytes s.mem (gOff r.tokAddr) (4 * r.lk))

/-- An offer reaches its target, or its acceptance reaches the source (R303, R304). -/
def execShipAccept (side : ShipSide) (s : State) : Res :=
  checked (.shipAccept side) (match side with
    | .target e src k p => shipTarget s e src k p
    | .source k t fs => shipSource s k t fs)

/-- The target's side of a complete copy: the request is QUEUED, START with the continuation bit and STATUS written (R304). -/
def shipIn (s : State) (slot tgt : Nat) : State :=
  match getS s.shipIn tgt with
  | some x =>
    if x.srcSlot = slot then
      let s := setReq { s with shipIn := delS s.shipIn tgt } tgt x.req
      let s := setReqSt s tgt stQueued
      let s := grnReq s (getReq s tgt) [startRec tgt (getReq s tgt) true]
      hrStatus s x.req.func (statusRec tgt (getReq s tgt) 0)
    else s
  | none => s

/-- The copy is complete: the target queues the request, then the source frees its slot (R304). A module that ships to itself
is both. -/
def shipDone (s : State) (slot tgt : Nat) : State :=
  let r := getReq s slot
  if r.st = stShipped ∧ r.accepted = some tgt then
    if s.fab.unacked.any (fun u => decide (u.owner = .ship slot)) then s
    else freeReq (if shipMod r = modId s then shipIn s slot tgt else s) slot
  else shipIn s slot tgt

def execShipCopyComplete (slot tgtSlot : Nat) (s : State) : Res :=
  checked (.shipCopyComplete slot tgtSlot) (hrNotify s (shipDone s slot tgtSlot))

/-- A refusal: the source offers again 1 ms later (R305). -/
def execShipRefused (slot now : Nat) (s : State) : Res :=
  checked (.shipRefused slot now) (
    let r := getReq s slot
    when (decide (r.st = stShipped) && decide (r.accepted = none))
      (fun s => setReq (advance s now) slot { r with retryAt := some (max s.time now + 1000000) }) s)

/-- The offer again (R305). -/
def execShipRetry (slot now : Nat) (s : State) : Res :=
  checked (.shipRetry slot now) (
    let r := getReq s slot
    when (decide (r.st = stShipped) && (match r.retryAt with | some t => decide (t ≤ now) | none => false))
      (fun s => shipOffer (setReq (advance s now) slot { r with retryAt := none }) slot) s)

/-- Shipping fails: FAULTED with CAUSE 0x10; the request keeps its frames (R276, R305). -/
def shipFail (s : State) (slot : Nat) : State :=
  let r := getReq s slot
  if r.st ≠ stShipped then s
  else
    let s := endReq (setReq (intBit s pReq 3) slot { r with accepted := none, retryAt := none }) slot stFaulted 0x10
    grnReq s (getReq s slot) [endRec slot (getReq s slot)]

/-- DEADLINE has passed or the target has left the membership: FAULTED with CAUSE 0x10 (R305). -/
def execShipDeadline (slot now : Nat) (s : State) : Res :=
  checked (.shipDeadline slot now) (
    let r := getReq s slot
    when (decide (r.st = stShipped) && ((decide (r.accepted = none) && decide (r.deadline ≤ now)) || s.gone.contains (shipMod r)))
      (fun t => hrNotify t (shipFail (advance t now) slot)) s)

/-- Clearing REQ.LAST_REJ.VALID (R279). -/
def execReqLastRejClear (w : Writer) (v : W32) (s : State) : Res :=
  checked (.reqLastRejClear w v) (clearValid w (pReq + Off.reqLastRej) v [] s)

end Sys2Proof.Machine
end

