-- ==== Sys2Proof/Machine/Ckpt.lean ====
section
/-! DEFINITION. Checkpoints: shards (R588 to R590), mirrors at the buddy (R592 to R596), ordinals and manifests in the file store
(R597 to R602), loft checkpoints (R604), and restores (R605 to R612). -/

namespace Sys2Proof.Machine

/-! ### The checkpoint group (R592) -/

def ckGroup (s : State) : Nat := regF s (pCkp + Off.ckpJob) 5 0
def ckRank (s : State) : Nat := grpRank s (ckGroup s)
def ckN (s : State) : Nat := grpN s (ckGroup s)
/-- The module at a rank of the checkpoint group. -/
def ckMod (s : State) (r : Nat) : Nat := grpMember s (ckGroup s) r
/-- The buddy: the next rank. -/
def buddy (s : State) : Nat := ckMod s ((ckRank s + 1) % ckN s)

/-- A message of the group to a rank; none to this module, and none in QUARANTINE (R571). -/
def groupSend (s : State) (dst kind : Nat) (vals : List Nat) (data : List Byte) : State :=
  if s.quar || decide (dst = modId s) then s else { s with out := s.out ++ [.group dst kind vals data] }

/-! ### Shards (R588 to R590) -/

/-- Bytes of `k` unified pages from page `u` on; an unmapped page gives zeros. -/
def uniRead (s : State) (u : Nat) : Nat → List Byte
  | 0 => []
  | k + 1 =>
    let e := mapEntry s u
    (if bit e 63 then rdBytes s.mem (pageOff e 0) frameBytes else List.replicate frameBytes 0) ++ uniRead s (u + 1) k

/-- Bytes written to unified pages from page `u` on, as far as they are mapped. -/
def uniWrite (s : State) (u : Nat) : Nat → List Byte → State
  | 0, _ => s
  | k + 1, bs =>
    let e := mapEntry s u
    let s := if bit e 63 then memWrite s (pageOff e 0) (bs.take frameBytes) else s
    uniWrite s (u + 1) k (bs.drop frameBytes)

/-- The bank pairs of a partition's image: first page of C, first page of P, pages (R324, R657). -/
def bankPairs (s : State) (p : Nat) : List (Nat × Nat × Nat) :=
  match resSection s p 6 with
  | none => []
  | some c => (List.range (rdNat s.mem (c.at_ + 8) 4)).map (fun i =>
      let a := c.at_ + rdNat s.mem (c.at_ + 0x18) 8 + 32 * i
      (rdNat s.mem a 8 % 2 ^ 48 / frameBytes, rdNat s.mem (a + 8) 8 % 2 ^ 48 / frameBytes, rdNat s.mem (a + 16) 8 / frameBytes))

/-- STATE: the C view of every bank pair. -/
def stateBody (s : State) (p : Nat) : List Byte := (bankPairs s p).flatMap (fun x => uniRead s x.1 x.2.2)

/-- The functions assigned to a partition, ascending (R481). -/
def fnsOf (s : State) (p : Nat) : List Nat := (List.range 512).filter (fun n => bit (reg s (fncPg n + Off.fncPmask)) p)

/-- FNC.SEED of a function. -/
def seedOf (s : State) (n : Nat) : Nat := pair s (fncPg n + Off.fncSeedLo)

/-- KEYS (R590). -/
def keysBody (s : State) (p : Nat) : List Byte :=
  let x := getPart s p
  ([x.cstep, x.commits, pair s (pEpo + Off.epoPubOrdLo), s.lastEpoch.getD noEpoch, s.lastSw.getD 0, s.mepoch] ++
    (fnsOf s p).flatMap (fun n => [n, seedOf s n])).flatMap (bytesOf 8)

/-- GRANARY: HEAD, TAIL and the records between them (R588). -/
def grnBody (s : State) (p : Nat) : List Byte :=
  let g := (getPart s p).gen
  let h := grnHead s p
  bytesOf 8 h ++ bytesOf 8 g.tail ++
  (if grnSize g = 0 then [] else (natsFrom g.tail (h - g.tail)).flatMap (fun i => rdBytes s.mem (gOff (g.grnBase + 32 * (i % grnSize g))) 32))

/-- `n` bytes rounded up to a multiple of `m` with zeros. -/
def padTo (m : Nat) (bs : List Byte) : List Byte := bs ++ List.replicate (roundUp bs.length m - bs.length) 0

/-- REQTAB: entries with their token buffers, then the budget balances (R588). -/
def reqBody (s : State) (p : Nat) : List Byte :=
  (slotsOf s p).flatMap (fun i => let r := getReq s i; reqBytes r ++ padTo 128 (rdBytes s.mem (gOff r.tokAddr) (4 * r.lk))) ++
  (fnsOf s p).flatMap (fun n => (List.range 4).flatMap (fun c => bytesOf 4 (budBal s (4 * n + c))))

/-- The step at which a partition's shards are taken. -/
def ckStep (s : State) (p : Nat) : Nat := let x := getPart s p; if x.learner then x.cstep else x.step

/-- A shard with its header (R589). -/
def mkShard (s : State) (kind p : Nat) (body : List Byte) : CkShard :=
  { hdr := bytesOf 4 0x44534B43 ++ bytesOf 1 kind ++ bytesOf 1 p ++ bytesOf 2 0 ++ bytesOf 4 (ckRank s) ++ bytesOf 2 s.mepoch ++
      bytesOf 2 (modId s) ++ bytesOf 8 (ckStep s p) ++ bytesOf 8 body.length ++ bytesOf 4 (reg s (pMod + Off.modDcl)).toNat ++ bytesOf 4 0 ++
      sha384 body ++ List.replicate 168 0,
    body := body }

/-- The shards of a partition (R588). -/
def partShards (s : State) (p : Nat) : List CkShard :=
  if (getPart s p).learner then [mkShard s 1 p (stateBody s p), mkShard s 2 p (keysBody s p)]
  else [mkShard s 3 p (grnBody s p), mkShard s 4 p (reqBody s p)]

/-- A field of a shard header. -/
def shdF (x : CkShard) (o n : Nat) : Nat := ofBytes ((x.hdr.drop o).take n)
def shdKind (x : CkShard) : Nat := (shdF x 4 1)
def shdPart (x : CkShard) : Nat := (shdF x 5 1) % 32
def shdRank (x : CkShard) : Nat := (shdF x 8 4)
def shdMep (x : CkShard) : Nat := (shdF x 0xC 2)
def shdStep (x : CkShard) : Nat := (shdF x 0x10 8)
def shdDigest (x : CkShard) : List Byte := (x.hdr.drop 0x28).take 48
/-- The body holds the header's DIGEST and LENGTH. -/
def shdGood (x : CkShard) : Bool := decide ((shdF x 0x18 8) = x.body.length) && decide (sha384 x.body = (shdDigest x))

/-! ### Mirrors (R593 to R596) -/

def buddyOn (s : State) : Bool := bit (reg s (pCkp + Off.ckpCfg)) 31
/-- Bytes of a generation at the buddy. -/
def genBytes (s : State) : Nat := regF s (pCkp + Off.ckpBuddy) 15 0 * frameBytes

/-- PUTs to the buddy's region on VC2 (R593). -/
def mirPut (s : State) (p off : Nat) (bs : List Byte) : State :=
  (packets (bs.length / 4096 + 1) off bs).foldl (fun s x =>
    sendPkt s (buddy s) 2 4 0 p 0xFFFF (regF s (pCkp + Off.ckpBuddy) 25 16 * 2 ^ 48 + x.1) x.2.length x.2 (.mirror p)) s

/-- The bodies of a generation after its 4 KiB header, each from a multiple of 128 bytes on (log entry 28). -/
def genBodies (xs : List CkShard) : List Byte := xs.flatMap (fun x => padTo 128 x.body)

/-- A mirror of a partition begins: COMPLETE 0, then STEP, the shard headers and the bodies. An earlier one of the partition
that is not complete gives way to it. -/
def mirStart (s : State) (p : Nat) : State :=
  if !buddyOn s || decide (ckN s ≤ 1) || decide (genBytes s = 0) then s
  else
    let xs := partShards s p
    let n := ckStep s p
    let base := n % 2 * genBytes s
    let s := mirPut s p (base + 8) (bytesOf 4 0)
    let s := mirPut s p base (bytesOf 8 n)
    let s := mirPut s p (base + 0x100) (xs.flatMap (·.hdr))
    let s := mirPut s p (base + 0x1000) (genBodies xs)
    { s with mirrors := s.mirrors.filter (fun m => decide (m.part ≠ p)) ++ [⟨p, n, n % 2, (getPart s p).learner, false⟩] }

/-- No PUT of a partition's mirror waits for its acknowledgement. -/
def mirQuiet (s : State) (p : Nat) : Bool := s.fab.unacked.all (fun u => decide (u.owner ≠ .mirror p))

/-- The acknowledgement of COMPLETE ends a mirror: h of R605 is its step (R593, R594). -/
def mirAcked (s : State) : State :=
  let fin := s.mirrors.filter (fun m => m.closed && mirQuiet s m.part)
  if fin.isEmpty then s
  else
    let s := fin.foldl (fun s m => if m.learner then setPair s (pCkp + Off.ckpMirrorLo) m.step else s) s
    { s with mirrors := s.mirrors.filter (fun m => !fin.contains m) }

/-- Every other byte of a generation is acknowledged: COMPLETE is written as 1 (R593). -/
def mirComplete (s : State) : State :=
  match s.mirrors.find? (fun m => !m.closed && mirQuiet s m.part) with
  | none => s
  | some m =>
    let s := mirPut s m.part (m.gen * genBytes s + 8) (bytesOf 4 1)
    { s with mirrors := s.mirrors.map (fun y => if y = m then { y with closed := true } else y) }

def execMirrorComplete (s : State) : Res := checked .mirrorComplete (mirComplete s)

/-- A generator's boundary: every GEN_EVERY-th is mirrored (R595). -/
def genMirror (s : State) (p : Nat) : State :=
  if !buddyOn s then s
  else
    let x := getPart s p
    let k := x.sinceMir + 1
    if max 1 (regF s (pCkp + Off.ckpCfg) 23 16) ≤ k then mirStart (setPart s p { x with sinceMir := 0 }) p
    else setPart s p { x with sinceMir := k }

/-- Region RH of a partition at this module, which holds the generations kept for another rank: its module offset. -/
def keptAt (s : State) (p : Nat) : Option Nat :=
  let x := getPart s p
  let rh := regF s (pCkp + Off.ckpBuddy) 25 16
  if rh < x.regCnt then
    let a := gOff (x.regBase + 16 * rh)
    let e : W64 := BitVec.ofNat 64 (rdNat s.mem (a + 8) 8)
    if bit e 63 then some (gOff (rdNat s.mem a 8)) else none
  else none

/-- The shards of a generation as it stands in memory: headers from 0x100 up to the first without MAGIC, bodies from 0x1000
on (log entry 28). -/
def genShards (m : Memory) (base : Nat) : Nat → Nat → Nat → List CkShard
  | 0, _, _ => []
  | k + 1, i, o =>
    let a := base + 0x100 + 256 * i
    if rdNat m a 4 ≠ 0x44534B43 then []
    else
      let n := rdNat m (a + 0x18) 8
      { hdr := rdBytes m a 256, body := rdBytes m (base + o) n } :: genShards m base k (i + 1) (o + roundUp n 128)

/-- One generation kept for another rank is checked; a shard that fails clears COMPLETE, is counted and recorded, and its owner
is told (R596). -/
def genCheck (s : State) (base : Nat) : State :=
  if rdNat s.mem (base + 8) 4 ≠ 1 then s
  else match (genShards s.mem base 15 0 0x1000).find? (fun x => !(shdGood x)) with
    | none => s
    | some x =>
      let s := memWrite s (base + 8) (bytesOf 4 0)
      let s := intBit (bump s (pCkp + Off.ckpRchkFail) 1) pCkp 3
      let s := bbr s { cat := 3, code := 4, cause := 1, loc := pCkp, arg0 := base, arg1 := (base - farBase) / frameBytes }
      groupSend s (shdF x 0xE 2) 3 [shdKind x, shdPart x, shdStep x] []

/-- A recheck pass (R596); the time of the next one is kept beside the mirrors. -/
def ckRecheck (s : State) (now : Nat) : State :=
  let k := regF s (pCkp + Off.ckpRecheck) 15 0
  if k = 0 ∨ now < s.ckCheckAt then s
  else
    let s := { s with time := max s.time now, ckCheckAt := now + k * 1000000000 }
    (List.range 32).foldl (fun s p => match keptAt s p with
      | some b => (List.range 2).foldl (fun s g => genCheck s (b + g * genBytes s)) s
      | none => s) s

def execCkpRecheck (now : Nat) (s : State) : Res := checked (.ckpRecheck now) (ckRecheck s now)

/-! ### The file store (R597 to R602) -/

/-- The reservation key (R598). -/
def leaseKey (s : State) (mepoch m : Nat) : Nat := regF s (pCkp + Off.ckpJob) 31 16 * 2 ^ 48 + mepoch * 2 ^ 32 + m

/-- A write to the file store, after the key of this membership epoch is registered (R598). -/
def fsWrite (s : State) (lba : Nat) (bs : List Byte) : State :=
  if s.quar then s
  else
    let s := if s.leaseAt = some s.mepoch then s
      else { s with leaseAt := some s.mepoch, out := s.out ++ [.lease 0 (leaseKey s s.mepoch (modId s))] }
    { s with out := s.out ++ [.fsWrite lba bs] }

/-- A manifest entry of a shard (R601). -/
def manEntry (x : CkShard) (lba : Nat) : List Byte :=
  bytesOf 4 (shdRank x) ++ bytesOf 1 (shdKind x) ++ bytesOf 1 (shdPart x) ++ bytesOf 2 (shdMep x) ++ bytesOf 2 ((shdF x 0xE 2)) ++ bytesOf 6 0 ++ bytesOf 8 (shdStep x) ++
  bytesOf 8 lba ++ bytesOf 8 (256 + x.body.length) ++ (shdDigest x) ++ bytesOf 8 0

/-- A partition's shards written one after another in the rank's area, each in whole blocks (R599). -/
def ordWrite (s : State) (p : Nat) : State :=
  (partShards s p).foldl (fun s x =>
    match s.ck with
    | none => s
    | some o =>
      let lba := pair s (pCkp + Off.ckpAreaLbaLo) + (2 * ckRank s + o.k % 2) * (reg s (pCkp + Off.ckpAreaLen)).toNat + o.used
      let bs := padTo 4096 (x.hdr ++ x.body)
      fsWrite { s with ck := some { o with used := o.used + bs.length / 4096, mine := o.mine ++ [manEntry x lba] } } lba bs) s

/-- CKP.STAT.WRITING follows the ordinal. -/
def ckWriting (s : State) : State := setRegF s (pCkp + Off.ckpStat) 31 31 (if s.ck.isSome then 1 else 0)

/-- Commit `k × EVERY` of a learner: ordinal `k` is taken from its C views; the generators write at their next boundary
(R599). -/
def ordTake (s : State) (p : Nat) : State :=
  let e := regF s (pCkp + Off.ckpCfg) 15 0
  let x := getPart s p
  if e = 0 ∨ x.commits % e ≠ 0 then s
  else
    let gens := (List.range 32).filter (fun q => let y := getPart s q; decide (y.st = .running) && !y.learner)
    let o := match s.ck with
      | some o => if o.k = x.commits / e ∧ o.mepoch = s.mepoch then o else ⟨x.commits / e, x.cstep, s.mepoch, 0, [], gens, false, []⟩
      | none => ⟨x.commits / e, x.cstep, s.mepoch, 0, [], gens, false, []⟩
    ckWriting (ordWrite { s with ck := some o } p)

/-- A generator's boundary while an ordinal waits for its shards (R599). -/
def ordGen (s : State) (p : Nat) : State :=
  match s.ck with
  | some o => if o.gens.contains p then ordWrite { s with ck := some { o with gens := o.gens.filter (· ≠ p) } } p else s
  | none => s

/-- A rank's Flush is complete: its manifest entries reach rank 0 (R600). `conflicts` counts the reservation conflicts that
this module received (R598). -/
def flushDone (s : State) (rank : Nat) (entries : List Byte) (conflicts : Nat) : State :=
  let s := if conflicts = 0 then s else bump s (pCkp + Off.ckpConflict) conflicts
  match s.ck with
  | none => s
  | some o =>
    if rank = ckRank s then
      if !o.gens.isEmpty || o.flushed then s
      else if rank = 0 then { s with ck := some { o with flushed := true, ranks := putS o.ranks 0 o.mine.flatten } }
      else groupSend { s with ck := some { o with flushed := true } } (ckMod s 0) 0 [o.k, rank] o.mine.flatten
    else if ckRank s = 0 ∧ rank < ckN s then
      if (List.range (entries.length / 96)).all (fun i => decide (ofBytes ((entries.drop (96 * i + 6)).take 2) = o.mepoch)) then
        { s with ck := some { o with ranks := putS o.ranks rank entries } }
      else s
    else s

def execShardFlushComplete (rank : Nat) (entries : List Byte) (conflicts : Nat) (s : State) : Res :=
  checked (.shardFlushComplete rank entries conflicts) (flushDone s rank entries conflicts)

/-- The manifest of an ordinal (R601). -/
def manifest (s : State) (o : Ordinal) : List Byte :=
  let es := o.ranks.flatMap (·.2)
  let head := bytesOf 4 0x4E414D43 ++ bytesOf 2 1 ++ bytesOf 2 (regF s (pCkp + Off.ckpJob) 31 16) ++ bytesOf 8 o.k ++ bytesOf 8 o.step ++
    bytesOf 2 o.mepoch ++ bytesOf 2 (modId s) ++ bytesOf 4 (reg s (pMod + Off.modDcl)).toNat ++ bytesOf 4 (ckN s) ++
    bytesOf 4 (es.length / 96) ++ bytesOf 8 0 ++ sha384 (Config.certChain (attKey s))
  head ++ Config.ecdsaSign (attKey s) (head ++ es) ++ List.replicate 64 0 ++ es

/-- DIGESTs of the entries of a manifest. -/
def manDigests (es : List Byte) : List (List Byte) := (List.range (es.length / 96)).map (fun i => (es.drop (96 * i + 0x28)).take 48)

/-- An ordinal is durable at this rank. -/
def ordDurable (s : State) (o : Ordinal) (ds : List (List Byte)) : State :=
  intBit (ckWriting { setPair s (pCkp + Off.ckpDurableLo) o.step with ck := none, durable := putS s.durable (o.k % 2) ds }) pCkp 0

/-- Rank 0 holds every rank's entries and writes the manifest, where it fits in MAN_LEN blocks (R600); at another rank the
ordinal that it has flushed becomes durable. -/
def manWrite (s : State) : State :=
  match s.ck with
  | none => s
  | some o =>
    if !o.flushed then s
    else if ckRank s ≠ 0 then ordDurable s o (manDigests o.mine.flatten)
    else if !((List.range (ckN s)).all (fun r => (getS o.ranks r).isSome)) then s
    else
      let m := manifest s o
      let len := max 1 (reg s (pCkp + Off.ckpManLen)).toNat
      if len < ceilDiv m.length 4096 then intBit (ckWriting { s with ck := none }) pCkp 4
      else
        let s := fsWrite s (pair s (pCkp + Off.ckpManLbaLo) + o.k % 2 * len) (padTo 4096 m)
        ordDurable s o (manDigests (m.drop 256))

def execManifestWrite (s : State) : Res := checked .manifestWrite (manWrite s)

/-! ### The loft checkpoint of a HALT (R604) -/

/-- The lowest object ID that the directory does not hold. -/
def freshObj (s : State) : Nat := ((List.range (s.loft.length + 1)).map (· + 1)).find? (fun i => (getObj s i).isNone) |>.getD 1

/-- One shard as an object of TYPE 0x05 (R604; header and body, log entry 28). -/
def loftShard (s : State) (x : CkShard) : State :=
  let bs := x.hdr ++ x.body
  if loftState s = 3 ∨ loftCap (loftLive s) < loftUsed s + bs.length then s
  else loftCounts (setObj s (freshObj s) { typ := 5, st := 0, fetchable := s.durable.any (fun e => e.2.contains (shdDigest x)), len := bs.length,
                                           created := s.time, digest := sha384 bs, data := wrBytes [] 0 bs })

/-- Every shard of the module's committed state written to the loft. -/
def loftCkpt (s : State) : State :=
  ((List.range 32).filter (fun p => decide ((getPart s p).st = .running))).foldl (fun s p => (partShards s p).foldl loftShard s) s

/-! ### Restores (R605 to R612) -/

/-- After a DEAD each rank sends rank 0 the step of its C views and h (R605). -/
def ckReport (s : State) (subject : Nat) : State :=
  if ckN s = 0 then s
  else
    let h := pair s (pCkp + Off.ckpMirrorLo)
    let c := ((List.range 32).map (fun p => let x := getPart s p; if x.learner ∧ x.st = .running then x.cstep else 0)).foldl max 0
    let s := groupSend s (ckMod s 0) 1 [ckRank s, c, h] []
    if buddy s = subject ∨ ckMod s ((ckRank s + ckN s - 1) % ckN s) ≠ subject then s
    else
      let kept := ((List.range 32).filterMap (keptAt s)).flatMap (fun b => (List.range 2).filterMap (fun g =>
        if rdNat s.mem (b + g * genBytes s + 8) 4 = 1 then some (rdNat s.mem (b + g * genBytes s) 8) else none))
      groupSend s (ckMod s 0) 1 [(ckRank s + ckN s - 1) % ckN s, 0, kept.foldl max 0] []

/-- Rank 0 holds every rank's report: the restore step is the least h, sent to every rank (R605). -/
def stepDecide (s : State) (reports : List Nat) : State :=
  match reports with
  | [] => s
  | h :: r =>
    if ckRank s ≠ 0 ∨ reports.length ≠ ckN s then s
    else
      let c := r.foldl min h
      let s := setRegF s (pCkp + Off.ckpStat) 29 29 1
      (List.range (ckN s)).foldl (fun s k => groupSend s (ckMod s k) 2 [c] []) { s with restoreAt := some c }

def execRestoreStepDecide (reports : List Nat) (s : State) : Res := checked (.restoreStepDecide reports) (stepDecide s reports)

/-- A restore ends with a RESULT (CKP.STAT). -/
def restoreEnd (s : State) (res c : Nat) : State :=
  let a := pCkp + Off.ckpStat
  let s := setRegF (setRegF { s with restoreAt := none } a 29 29 0) a 7 0 res
  let s := { s with restoreDue := s.restoreDue && decide (res ≠ 0) }
  if res = 0 then intBit (setPair s (pCkp + Off.ckpRestoredLo) c) pCkp 1 else intBit s pCkp 2

/-- KEYS written back (R590). -/
def keysLoad (s : State) (p : Nat) (bs : List Byte) : State :=
  let v (i : Nat) : Nat := ofBytes ((bs.drop (8 * i)).take 8)
  let x := getPart s p
  let s := setPart s p { x with commits := v 1, cstep := v 0 }
  let s := setPair s (pEpo + Off.epoPubOrdLo) (v 2)
  let s := { s with lastEpoch := if v 3 = noEpoch then none else some (v 3), lastSw := if v 3 = noEpoch then none else some (v 4) }
  (List.range ((bs.length / 8 - 6) / 2)).foldl (fun s i => setPair s (fncPg (v (6 + 2 * i) % 512) + Off.fncSeedLo) (v (7 + 2 * i))) s

/-- STATE written to the C views. -/
def stateLoad (s : State) (p : Nat) (bs : List Byte) : State :=
  ((bankPairs s p).foldl (fun (a : State × List Byte) x => (uniWrite a.1 x.1 x.2.2 a.2, a.2.drop (x.2.2 * frameBytes))) (s, bs)).1

/-- GRANARY restored: the records between TAIL and HEAD. -/
def grnLoad (s : State) (p : Nat) (bs : List Byte) : State :=
  let x := getPart s p
  let h := ofBytes (bs.take 8)
  let t := ofBytes ((bs.drop 8).take 8)
  let s := setPairAt (setPart s p { x with gen := { x.gen with tail := t }, grnWait := [] }) (pOrc + Off.orcPGrnHeadLo) p h
  let s := setPairAt s (pOrc + Off.orcPGrnTailLo) p t
  if grnSize x.gen = 0 then s
  else ((List.range (h - t)).foldl (fun s i =>
    memWrite s (gOff (x.gen.grnBase + 32 * ((t + i) % grnSize x.gen))) ((bs.drop (16 + 32 * i)).take 32)) s)

/-- A restored request in the state that R608 gives it; `bs` starts with its entry, its token buffer follows. -/
def reqRestored (s : State) (bs : List Byte) : Req :=
  let f (o n : Nat) : Nat := ofBytes ((bs.drop o).take n)
  let q := reqOfImage (BitVec.ofNat 1024 (ofBytes (bs.take 128)))
  let st := f 0 1 % 16
  let back := st = stDone ∨ st = stFaulted ∨ st = stExpired
  { q with st := if back then st else if st = stPaused ∨ st = stParked then stPaused else stQueued,
           func := f 2 2, lc := if back then f 8 4 else 0, lt := if back then f 8 4 else 0, lk := f 0x10 4, admitNo := f 0x30 8, pin := f 0x38 4,
           ndraft := f 0x4E 1, cause := f 0x4F 1, expiry := f 0x58 8, pausedAt := if st = stPaused ∨ st = stParked then s.time else f 0x78 8, fresh := false }

/-- The requests of a REQTAB body put back one after the other, each in the lowest FREE slot of its function (log entry 28),
and the bytes that follow them. -/
def reqsLoad (p : Nat) : Nat → State → List Byte → State × List Byte
  | 0, s, bs => (s, bs)
  | k + 1, s, bs =>
    let st := ofBytes (bs.take 1) % 16
    if bs.length < 128 ∨ st = 0 then (s, bs)
    else
      let r := reqRestored s bs
      let n := roundUp (4 * r.lk) 128
      let s' := match freeSlot s (r.func % 512) with
        | some i => if r.part = p then
            { memWrite (setReq s i r) (gOff r.tokAddr) ((bs.drop 128).take (4 * r.lk)) with admitSeq := max s.admitSeq (r.admitNo + 1) }
          else s
        | none => s
      reqsLoad p k s' (bs.drop (128 + n))

/-- REQTAB restored with the budget balances that follow it (R608). A page list of a restored request lists no frame. -/
def reqLoad (s : State) (p : Nat) (bs : List Byte) : State :=
  let tail := 16 * (fnsOf s p).length
  let x := reqsLoad p 16384 s (bs.take (bs.length - tail))
  let bal := bs.drop (bs.length - tail)
  let back := (slotsOf x.1 p).filter (fun i => decide ((getReq s i).st = stFree))
  let s := back.foldl (fun s i => let r := getReq s i; (granulesOf r).foldl (fun s g => setReqDesc s r g 0) s) x.1
  ((fnsOf s p).zip (List.range (fnsOf s p).length)).foldl (fun s y =>
    (List.range 4).foldl (fun s c => setBal s (4 * y.1 + c) (ofBytes ((bal.drop (16 * y.2 + 4 * c)).take 4))) s) s

/-- A shard loaded (R606, R608, R612). -/
def shardLoad (s : State) (x : CkShard) : State :=
  match (shdKind x) with
  | 1 => stateLoad s (shdPart x) x.body
  | 2 => keysLoad s (shdPart x) x.body
  | 3 => grnLoad s (shdPart x) x.body
  | 4 => reqLoad s (shdPart x) x.body
  | _ => s

/-- The learner partitions that run, or have an image to run. -/
def learners (s : State) : List Nat := (List.range 32).filter (fun p => let x := getPart s p; x.learner && decide (x.st ≠ .free))

/-- The step counter of every learner partition set to `c`: its first release is `c` + 1 (R606). -/
def stepTo (s : State) (c : Nat) : State :=
  (learners s).foldl (fun s p => setPart s p { getPart s p with step := c, cstep := c, again := false, relPar := [] }) s

/-- A rank keeps its C views where they hold step `c`, or loads the shards of generation `c` that it has read from its buddy;
a generation that is not COMPLETE ends the restore with RESULT 6, a replacement that lacks a partition or its image with
RESULT 7, a digest that fails with RESULT 3 (R606, R607, R608, R610). -/
def restoreLoad (s : State) (c : Nat) (xs : List CkShard) (complete : Bool) : State :=
  if !complete then restoreEnd s 6 c
  else if (learners s).all (fun p => decide ((getPart s p).cstep = c)) && xs.isEmpty then restoreEnd (stepTo s c) 0 c
  else if xs.any (fun x => let y := getPart s (shdPart x); decide (y.st = .free) || ((shdKind x) ≤ 2 && !y.learner) || (!((shdKind x) ≤ 2) && y.learner) || y.images.isEmpty) then
    restoreEnd s 7 c
  else if xs.any (fun x => !(shdGood x)) then restoreEnd s 3 c
  else if xs.isEmpty then restoreEnd s 5 c
  else restoreEnd (stepTo (xs.foldl shardLoad s) c) 0 c

def execRestoreLoad (step : Nat) (shards : List CkShard) (complete : Bool) (s : State) : Res :=
  checked (.restoreLoad step shards complete) (restoreLoad s step shards complete)

/-- A field of a manifest header. -/
def manF (m : List Byte) (o n : Nat) : Nat := ofBytes ((m.drop o).take n)
def manEntries (m : List Byte) : List (List Byte) := (List.range (manF m 0x24 4)).map (fun i => (m.drop (256 + 96 * i)).take 96)

/-- The shard that a manifest entry names: among those read from the file store, or the loft's TYPE 0x05 objects. -/
def entryShard (s : State) (loft : Bool) (xs : List CkShard) (e : List Byte) : Option CkShard :=
  let d := (e.drop 0x28).take 48
  let all := if loft then
      (s.loft.filter (fun o => decide (o.2.typ = 5) && decide (o.2.st = 0))).map (fun o => { hdr := (objBytes o.2).take 256, body := (objBytes o.2).drop 256 })
    else xs
  all.find? (fun x => decide ((shdDigest x) = d) && decide ((shdKind x) = ofBytes ((e.drop 4).take 1)) && decide (shdPart x = ofBytes ((e.drop 5).take 1)))

/-- A restore from the file store or the loft: manifest, DCL and NRANK, shards and their digests, in that order; with no manifest
that can be read it ends as an unreadable one (R602, R612). -/
def restoreFrom (s : State) (loft : Bool) (m : List Byte) (xs : List CkShard) : State :=
  let es := manEntries m
  let c := manF m 0x10 8
  let mine := es.filter (fun e => decide (ofBytes (e.take 4) = ckRank s))
  if m.length < 256 + 96 * manF m 0x24 4 ∨ m.length < 256 ∨ manF m 0 4 ≠ 0x4E414D43 then restoreEnd s 5 c
  else if !Config.ecdsaVerify ((m.drop 0x30).take 48) (m.take 0x60 ++ es.flatten) ((m.drop 0x60).take 96) then restoreEnd s 1 c
  else if manF m 0x1C 4 ≠ (reg s (pMod + Off.modDcl)).toNat ∨ manF m 0x20 4 ≠ ckN s then restoreEnd s 2 c
  else if es.any (fun e => decide (ofBytes ((e.drop 6).take 2) ≠ manF m 0x18 2)) then restoreEnd s 4 c
  else
    let got := mine.map (entryShard s loft xs)
    if mine.isEmpty || got.any (·.isNone) then restoreEnd s 5 c
    else
      let ys := got.filterMap id
      if ys.any (fun x => !(shdGood x)) then restoreEnd s 3 c
      else restoreEnd (stepTo (ys.foldl shardLoad s) c) 0 c

/-- A write of CKP.RESTORE: SOURCE 2 and 3 are refused, and GO is ignored while a restore is in progress (its field table,
R612). -/
def ckpRestoreWrite (w : Writer) (v : W32) (m : List Byte) (xs : List CkShard) (s : State) : State :=
  let x := writeCore w (pCkp + Off.ckpRestore) v false (fun _ n => if 2 ≤ fld n 2 1 then none else some n) s
  if !x.ok || !bit x.wo 31 then x.st
  else if bit (reg s (pCkp + Off.ckpStat)) 29 then errInc x.st pCkp
  else restoreFrom x.st (fld x.new 2 1 = 1) m xs

def execCkpRestore (w : Writer) (v : W32) (man : List Byte) (shards : List CkShard) (s : State) : Res :=
  checked (.ckpRestore w v man shards) (ckpRestoreWrite w v man shards s)

end Sys2Proof.Machine
end

