-- ==== Sys2Proof/Machine/Pages.lean ====
section
/-! DEFINITION. The commands on the common header of a page (R60, R64 to R69), the seal of the ledger (R80), and the tile
page's own writes and reads (R140, R142 to R144). -/

namespace Sys2Proof.Machine

/-! ### The common header -/

/-- A write of PAGE_CTL that sets ERR_CLR (R64). -/
def execErrClr (w : Writer) (page : Nat) (v : W32) (s : State) : Res := checked (.errClr w page v) (pageCtlWrite w page v s)

/-- A write of PAGE_CTL that sets FENCE (R60). -/
def execPageFence (w : Writer) (page : Nat) (v : W32) (s : State) : Res := checked (.pageFence w page v) (pageCtlWrite w page v s)

/-- Every earlier write to the page has taken effect: FENCE_PEND reads 0 again (R60). -/
def execFenceComplete (page : Nat) (s : State) : Res :=
  checked (.fenceComplete page) (when (pageLive s page) (fun s => setRegF s (page + Off.pageStat) 5 5 0) s)

/-- A write of PAGE_CTL that sets QUIESCE_REQ (R64). -/
def execQuiesceReq (w : Writer) (page : Nat) (v : W32) (s : State) : Res := checked (.quiesceReq w page v) (pageCtlWrite w page v s)

/-- A write of PAGE_CTL that clears QUIESCE_REQ (R65). -/
def execQuiesceResume (w : Writer) (page : Nat) (v : W32) (s : State) : Res :=
  checked (.quiesceResume w page v) (pageCtlWrite w page v s)

/-- A write of PAGE_CTL that sets ENABLE (R64). -/
def execPageEnable (w : Writer) (page : Nat) (v : W32) (s : State) : Res := checked (.pageEnable w page v) (pageCtlWrite w page v s)

/-- A write of PAGE_CTL that clears ENABLE (R64). -/
def execPageDisable (w : Writer) (page : Nat) (v : W32) (s : State) : Res := checked (.pageDisable w page v) (pageCtlWrite w page v s)

/-- A W1C write of INT_STAT; `same` holds the bits that the unit sets in the same cycle (R67). -/
def execIntStatClear (w : Writer) (page : Nat) (v same : W32) (s : State) : Res :=
  checked (.intStatClear w page v same) (intStatWrite w page v same s)

/-- A debug write of INT_FORCE (R68). -/
def execIntForce (w : Writer) (page : Nat) (v : W32) (s : State) : Res := checked (.intForce w page v) (intForceWrite w page v s)

/-- A write of OWNER (R69). -/
def execOwnerWrite (w : Writer) (page : Nat) (v : W32) (s : State) : Res := checked (.ownerWrite w page v) (ownerWrite w page v s)

def execLedgerSeal (s : State) : Res := checked .ledgerSeal (sealDue s)

/-! ### The tile page -/

/-- A write of TIL.NF_A or NF_B (R144): clearing FLAG returns LAYER and OPERATOR to reset; a command that sets the flag in
the same cycle is recorded, and the flag stays 1. -/
def nfWrite (w : Writer) (p : Nat) (second : Bool) (v : W32) (same : Option W32) (s : State) : State :=
  let a := p + if second then Off.tilNfB else Off.tilNfA
  let s := clearValid w a v [] s
  match same with
  | none => s
  | some c => if bit (reg s a) 31 then s else intBit (setReg s a (setBit (c &&& 0x0FFFFFFF) 31 true)) p 0

def execNfFlagClear (w : Writer) (page : Nat) (second : Bool) (v : W32) (same : Option W32) (s : State) : Res :=
  checked (.nfFlagClear w page second v same) (nfWrite w page second v same s)

/-- A write of TIL.BND_LO or BND_HI is staged for the entry that BND_IDX names (R142). -/
def bndStage (w : Writer) (p : Nat) (hi : Bool) (v : W32) (s : State) : State :=
  let a := p + if hi then Off.tilBndHi else Off.tilBndLo
  let x := writeCore w a v false (fun old _ => some old) s
  if x.ok then { x.st with bndStaged := putS x.st.bndStaged (regKey s a) v } else x.st

def execBndBoundWrite (w : Writer) (page : Nat) (hi : Bool) (v : W32) (s : State) : Res :=
  checked (.bndBoundWrite w page hi v) (bndStage w page hi v s)

/-- A staged bound takes effect, with a record of its own where it changes the register (R142, R72). -/
def bndTake (w : Writer) (a : Nat) (s : State) : State :=
  match getS s.bndStaged (regKey s a) with
  | none => s
  | some v =>
    let old := reg s a
    let k := regKey s a
    let s := setReg s a v
    ledgerIf { s with bndStaged := delS s.bndStaged k } w false a old v 0

/-- A write of TIL.BND_KEY: the staged bounds take effect with it, and LO above HI turns the entry OFF (R142, R143). -/
def bndKey (w : Writer) (p : Nat) (v : W32) (s : State) : State :=
  let bound (o : Nat) : W32 := getD s.bndStaged (regKey s (p + o)) (reg s (p + o))
  let crossed := flt (bound Off.tilBndHi) (bound Off.tilBndLo)
  let x := writeCore w (p + Off.tilBndKey) v false (fun _ n => some (if crossed then setFld n 31 30 0 else n)) s
  if !x.ok then x.st
  else
    let s := bndTake w (p + Off.tilBndHi) (bndTake w (p + Off.tilBndLo) x.st)
    if crossed then errInc s p else s

def execBndKeyWrite (w : Writer) (page : Nat) (v : W32) (s : State) : Res := checked (.bndKeyWrite w page v) (bndKey w page v s)

/-- A read of TIL.RNG_CNT, which returns the count and clears it (R19, R140). -/
def rngRead (p : Nat) (s : State) : State :=
  if !pageLive s p then { s with resp := bytesOf 4 0 }
  else
    let a := p + Off.tilRngCnt
    { setReg s a 0 with resp := bytesOf 4 (reg s a).toNat }

def execRngCntRead (page : Nat) (s : State) : Res := checked (.rngCntRead page) (rngRead page s)

end Sys2Proof.Machine
end

