-- ==== Sys2Proof/Machine/Update.lean ====
section
/-! DEFINITION. The update streamer (R324 to R333): update programs, the norms table (R334) and the local vote word (R337). -/

namespace Sys2Proof.Machine

/-! ### Programs and tensor sets (R325, R657) -/

/-- A UPD command's arguments: program, tensor set, hyper-parameter block. -/
def updProg (w : W128) : Nat := fld w 15 0
def updSet (w : W128) : Nat := fld w 31 16
def updHpIx (w : W128) : Nat := fld w 47 32

/-- The module offset of a program's count, where the image has it. -/
def progAt (s : State) (p i : Nat) : Option Nat :=
  match resSection s p 6 with
  | none => none
  | some c => if i < u32At s c.at_ then some (c.at_ + rdNat s.mem (c.at_ + 0x20 + 8 * i) 8) else none
where u32At (s : State) (a : Nat) : Nat := rdNat s.mem a 4

/-- The module offset of a tensor set, where the image has it. -/
def setAt (s : State) (p i : Nat) : Option Nat :=
  match resSection s p 6 with
  | none => none
  | some c => if i < rdNat s.mem (c.at_ + 4) 4 then some (c.at_ + rdNat s.mem (c.at_ + 0x10) 8 + 128 * i) else none

def tsLayer (s : State) (a : Nat) : Nat := rdNat s.mem a 2
def tsNorm (s : State) (a : Nat) : Nat := rdNat s.mem (a + 2) 2
def tsNelem (s : State) (a : Nat) : Nat := rdNat s.mem (a + 4) 4
def tsWorkers (s : State) (a : Nat) : Nat := rdNat s.mem (a + 8) 2
def tsWfmt (s : State) (a k : Nat) : Nat := rdNat s.mem (a + 0xA + k) 1
def tsNstate (s : State) (a : Nat) : Nat := rdNat s.mem (a + 0xC) 1
/-- The C and the P address of state tensor `i`. -/
def tsC (s : State) (a i : Nat) : Nat := rdNat s.mem (a + 0x10 + 16 * i) 8
def tsP (s : State) (a i : Nat) : Nat := rdNat s.mem (a + 0x18 + 16 * i) 8
def tsGrad (s : State) (a : Nat) : Nat := rdNat s.mem (a + 0x50) 8
/-- The P address of working copy `k`. -/
def tsWork (s : State) (a k : Nat) : Nat := rdNat s.mem (a + 0x60 + 16 * k) 8

/-- A field of a tensor set is outside R325, or NORM_IDX is not below NORM_CNT (cause 4 of R333). -/
def setBad (s : State) (h a : Nat) : Bool :=
  let fmtBad (f : Nat) : Bool := decide (6 < f % 16) || decide (f / 16 % 8 ≠ 0)
  decide (tsNelem s a = 0) || fmtBad (tsWfmt s a 0) || fmtBad (tsWfmt s a 1) || decide (tsNstate s a = 0) ||
  decide (4 < tsNstate s a) || decide (rdNat s.mem (a + 0xD) 3 ≠ 0) || decide (rdNat s.mem (a + 0x78) 8 ≠ 0) ||
  decide ((getHam s h).updCnt ≤ tsNorm s a)

/-! ### Faults and flags -/

/-- A program fault: recorded, the streamer refuses programs until the next release, the issuing stream and the step are
faulted (R333). -/
def updFault (s : State) (h : Nat) (j : Job) (cause uop addr : Nat) : State :=
  let p := updPg h
  let a := p + Off.updFault
  let s := if bit (reg s a) 31 then s else setReg s a (w32 (2 ^ 31 + cause * 2 ^ 24 + uop * 2 ^ 16 + updProg j.word))
  let s := intBit s p 0
  let x := getHam s h
  let s := setHam s h { x with upd := none, updQ := [], updOff := true, borrow := [] }
  match x.part with
  | some pt =>
    let s := faultStep s pt { code := 4, loc := p, arg0 := (reg s a).toNat, arg1 := addr, layer := cwLayer j.word, op := cwOper j.word }
    tileFault s h j.tile 4 0 0 (cwLayer j.word) (cwOper j.word)
  | none => s

/-- update-NF of the hamlet set (R332). -/
def setUpdNf (s : State) (h : Nat) : State :=
  let x := getHam s h
  if x.updNf then s else intBit (setHam s h { x with updNf := true }) (updPg h) 3

/-- The address that an uncorrectable read names, as a module offset. -/
def uncAt (s : State) (p h a : Nat) : State :=
  match resolve s p h a false with | .mem off _ => eccUnc s off | _ => s

/-- A read of a span by the streamer: why it faults, as cause and address (R333). -/
def updReadBad (s : State) (p h a n : Nat) (unc : Bool) : Option (Nat × Nat) :=
  match spanLocal s p h a n false with
  | some b => some (5, b)
  | none => if unc ∨ (spanPoison s p h a n).isSome = true then some (6, a) else none

/-! ### Start (R326, R330, R331) -/

/-- The physical tiles that lend their vector units. -/
def workerTiles (s : State) (h mask : Nat) : List Nat := ((bitsSet (BitVec.ofNat 16 mask) 16).map (physOf s h)).eraseDups

/-- A vector unit is in use by a stream of its tile. -/
def vuBusy (s : State) (h mask : Nat) : Bool := (bitsSet (BitVec.ofNat 16 mask) 16).any (fun t => !unitFree s h t .vec)

/-- The status word of a gradient (R322). -/
def gradStatus (s : State) (a : Nat) : Nat := tsGrad s a + roundUp (4 * tsNelem s a) 128

/-- The waiting program starts: checked, its hyper-parameter block and gradient status read (R326, R330 to R333). -/
def updBegin (s : State) (h p : Nat) (j : Job) (unc : Bool) : State :=
  match progAt s p (updProg j.word), setAt s p (updSet j.word) with
  | some pa, some sa =>
    let n := rdNat s.mem pa 8
    let hp := (getHam s h).updHp + 256 * updHpIx j.word
    let gs := gradStatus s sa
    if n = 0 ∨ 256 < n then updFault s h j 1 0 0
    else if setBad s h sa then updFault s h j 4 0 0
    else match updReadBad s p h hp 256 unc, updReadBad s p h gs 4 false with
      | some c, _ => updFault (if c.1 = 6 then uncAt s p h c.2 else s) h j c.1 0 c.2
      | none, some c => updFault s h j c.1 0 c.2
      | none, none =>
        let g := (spanRead s p h gs 4).headD 0 |>.getLsbD 0
        let s := if g then setUpdNf s h else s
        let x := getHam s h
        let r : UpdRun := { job := j, uopsAt := pa + 8, count := n, setAt := sa, hp := f32s s p h hp 64, chunk := 0, uop := 0,
                            slots := [], free := s.freeCtr, acc := [], gradNf := g, nf := g }
        { setHam s h { x with upd := some r, gradNf := x.gradNf || g, borrow := workerTiles s h (tsWorkers s sa) } with
            freeCtr := s.freeCtr + 2048 }
  | _, _ => updFault s h j 1 0 0

/-- The next program of the queue, unless it is VOTE or a worker's vector unit is in use (R163, R326). -/
def updStart (s : State) (h : Nat) (unc : Bool) : State :=
  let x := getHam s h
  match x.upd, x.updQ, x.part with
  | none, j :: q, some p =>
    if x.updOff || !partGoes s p || decide (updProg j.word = 0xFFFF) then s
    else if (match setAt s p (updSet j.word) with | some a => vuBusy s h (tsWorkers s a) | none => false) then s
    else updBegin (setRegF (setHam s h { x with updQ := q }) (updPg h + Off.updStat) 15 0 (updProg j.word)) h p j unc
  | _, _, _ => s

def execUpdateProgramStart (hamlet : Nat) (unc : Bool) (s : State) : Res :=
  checked (.updateProgramStart hamlet unc) (updStart s hamlet unc)

/-! ### Micro-ops (R327 to R329) -/

def uoOp (u : W64) : Nat := fld u 63 56
def uoD (u : W64) : Nat := fld u 55 52
def uoA (u : W64) : Nat := fld u 51 48
def uoB (u : W64) : Nat := fld u 47 44
def uoC (u : W64) : Nat := fld u 43 40
def uoIdx (u : W64) : Nat := fld u 39 34

/-- The micro-op that the program is at; after the last one it ends the chunk (log entry 21). -/
def curUop (s : State) (r : UpdRun) : W64 :=
  if r.uop < r.count then BitVec.ofNat 64 (rdNat s.mem (r.uopsAt + 8 * r.uop) 8) else BitVec.ofNat 64 (0x3F * 2 ^ 56)

/-- Opcodes that R327 assigns. -/
def uopAssigned (o : Nat) : Bool :=
  (decide (1 ≤ o) && decide (o ≤ 3)) || (decide (0x10 ≤ o) && decide (o ≤ 0x15)) || decide (o = 0x20) || decide (o = 0x21) ||
  decide (o = 0x30) || decide (o = 0x38) || decide (o = 0x39) || decide (o = 0x3F)

/-- The cause of R333 that a micro-op's own fields give, 0 for none. -/
def uopCause (s : State) (r : UpdRun) (u : W64) : Nat :=
  let i := uoIdx u
  if !uopAssigned (uoOp u) || decide (fld u 33 0 ≠ 0) then 2
  else if uoOp u = 1 ∧ 4 < i then 2
  else if uoOp u = 2 ∧ 4 < i then 2
  else if uoOp u = 2 ∧ tsNstate s r.setAt ≤ i then 3
  else if uoOp u = 0x30 ∧ ¬(i = 5 ∨ i = 6) then 3
  else if uoOp u = 0x38 ∧ 2 < i then 2
  else 0

/-- Elements of the chunk that the set has (R326). -/
def chunkLen (s : State) (r : UpdRun) : Nat := min 128 (tsNelem s r.setAt - 128 * r.chunk)

/-- A slot's lanes; a slot that the chunk has not written holds free words (log entry 8). -/
def slotGet (r : UpdRun) (i : Nat) : List W32 :=
  (List.range 128).map (fun l => (getS r.slots (i * 128 + l)).getD (Config.freeWord (r.free + i * 128 + l)))

def slotPut (r : UpdRun) (i : Nat) (vs : List W32) : UpdRun :=
  { r with slots := ((List.range 128).zip vs).foldl (fun m x => putS m (i * 128 + x.1) x.2) r.slots }

/-- The run goes on at its next micro-op. -/
def uopNext (s : State) (h : Nat) (r : UpdRun) : State := setHam s h { getHam s h with upd := some { r with uop := r.uop + 1 } }

/-- The running program's micro-op is taken by the row of its opcode; one that breaks R327 faults (R333). -/
def uopRow (op : Nat) (f : State → Nat → Nat → UpdRun → W64 → State) (h : Nat) (s : State) : State :=
  match (getHam s h).upd, (getHam s h).part with
  | some r, some p =>
    let u := curUop s r
    if !partGoes s p then s
    else if uopAssigned (uoOp u) && decide (uoOp u ≠ op) then s
    else
      let c := uopCause s r u
      if c ≠ 0 then updFault s h r.job c r.uop 0 else f s p h r u
  | _, _ => s

/-- LDT: the chunk of a state tensor from its C view, or of GRAD; lanes beyond NELEM load +0. -/
def effLdt (unc : Bool) (s : State) (p h : Nat) (r : UpdRun) (u : W64) : State :=
  let a := (if uoIdx u = 4 then tsGrad s r.setAt else tsC s r.setAt (uoIdx u)) + 512 * r.chunk
  let n := chunkLen s r
  match updReadBad s p h a (4 * n) unc with
  | some c => updFault (if unc then uncAt s p h a else s) h r.job c.1 (if c.1 = 5 then 0 else r.uop) c.2
  | none =>
    let vs := f32s s p h a n ++ List.replicate (128 - n) 0
    uopNext (spanTouch s p h a (4 * n)) h (slotPut r (uoD u) vs)

/-- STT: the chunk of a state tensor in its P view. -/
def effStt (s : State) (p h : Nat) (r : UpdRun) (u : W64) : State :=
  let a := tsP s r.setAt (uoIdx u) + 512 * r.chunk
  let vs := (slotGet r (uoA u)).take (chunkLen s r)
  match spanLocal s p h a (4 * vs.length) true with
  | some b => updFault s h r.job 5 0 b
  | none =>
    let bad := vs.any nonFinite
    let s := spanWrite s p h a (vs.flatMap (fun v => bytesOf 4 v.toNat))
    uopNext (if bad then setUpdNf s h else s) h { r with nf := r.nf || bad }

/-- LDH: a hyper-parameter word in every lane. -/
def effLdh (s : State) (_ h : Nat) (r : UpdRun) (u : W64) : State :=
  uopNext s h (slotPut r (uoD u) (List.replicate 128 (r.hp.getD (uoIdx u) 0)))

/-- An operation on slots A, B and C, lane by lane. -/
def effArith (f : W32 → W32 → W32 → W32) (s : State) (_ h : Nat) (r : UpdRun) (u : W64) : State :=
  let b := slotGet r (uoB u)
  let c := slotGet r (uoC u)
  uopNext s h (slotPut r (uoD u) (((slotGet r (uoA u)).zip (b.zip c)).map (fun x => f x.1 x.2.1 x.2.2)))

/-- The stream and the base position of a working copy's stochastic rounding (R245, R265, R328). -/
def cvtwStream (step layer : Nat) : W32 := w32 (2 ^ 31 + step % 2 ^ 14 * 2 ^ 16 + layer)
def cvtwBase (step : Nat) : Nat := step / 2 ^ 14 % 2 ^ 16 * 2 ^ 48

/-- The stochastic words of elements `e0` on, for the WFMT's rounding. -/
def cvtwWords (k0 k1 : W32) (step layer fmt e0 n : Nat) : List (Option Nat) :=
  (List.range n).map (fun i =>
    if 128 ≤ fmt then some (srBits (srWord k0 k1 (cvtwStream step layer) (cvtwBase step) (e0 + i))) else none)

/-- The element bytes and the scale bytes of `vs` in a format, in blocks of 32 (R86, R152, R153). -/
def cvtwBytes (f : Nat) (vs : List W32) (sr : List (Option Nat)) : List Byte × List Byte :=
  if f = 6 then ((vs.zip sr).flatMap (fun x => bytesOf 2 (toBf16 x.2 x.1)), [])
  else
    let bs := (List.range (ceilDiv vs.length 32)).map (fun i => encBlock f ((vs.drop (32 * i)).take 32) ((sr.drop (32 * i)).take 32))
    (bytesOf (ceilDiv (vs.length * elWidth f) 8) (packBits (elWidth f) (bs.flatMap (·.2))), bs.map (fun b => BitVec.ofNat 8 b.1))

/-- Bits of an element of a format. -/
def fmtBits (f : Nat) : Nat := if f = 6 then 16 else elWidth f

/-- CVTW: the chunk of a working copy in its P view (R103 to R106, R328). -/
def effCvtw (s : State) (p h : Nat) (r : UpdRun) (u : W64) : State :=
  let k := uoIdx u - 5
  let wf := tsWfmt s r.setAt k
  let f := wf % 16
  let n := tsNelem s r.setAt
  let vs := (slotGet r (uoA u)).take (chunkLen s r)
  let y := getStr s h r.job.tile
  let step := (getPart s p).step
  let e := cvtwBytes f vs (cvtwWords y.key0 y.key1 step (tsLayer s r.setAt) wf (128 * r.chunk) vs.length)
  let a := tsWork s r.setAt k
  let ea := a + 16 * fmtBits f * r.chunk
  let sa := a + roundUp (ceilDiv (n * fmtBits f) 8) 128 + 4 * r.chunk
  match spanLocal s p h ea e.1.length true, spanLocal s p h sa e.2.length true with
  | some b, _ => updFault s h r.job 5 0 b
  | none, some b => updFault s h r.job 5 0 b
  | none, none =>
    let bad := vs.any nonFinite
    let s := spanWrite (spanWrite s p h ea e.1) p h sa e.2
    uopNext (if bad then setUpdNf s h else s) h { r with nf := r.nf || bad }

/-- An accumulator taken over the elements of the chunk (R329). -/
def effAcc (k : UpdRun → W64 → Nat) (f : W32 → W32 → W32) (s : State) (_ h : Nat) (r : UpdRun) (u : W64) : State :=
  let vs := (slotGet r (uoA u)).take (chunkLen s r)
  let i := k r u
  uopNext s h { r with
    acc := ((List.range vs.length).zip vs).foldl (fun m x => putDef m (i * 128 + x.1) (f (getD m (i * 128 + x.1) 0) x.2) 0) r.acc }

/-- An accumulator reduced over the lanes (R136, R329). -/
def accOut (r : UpdRun) (i : Nat) (f : W32 → W32 → W32) : W32 := laneTree f ((List.range 128).map (fun l => getD r.acc (i * 128 + l) 0))

/-- The norms entry of a program (R334). -/
def normsEntry (s : State) (r : UpdRun) (step : Nat) : List Byte :=
  bytesOf 2 (tsLayer s r.setAt) ++ bytesOf 1 0 ++ bytesOf 1 ((if r.gradNf then 1 else 0) + (if r.nf then 2 else 0)) ++
  bytesOf 4 (tsNelem s r.setAt) ++ bytesOf 8 step ++ bytesOf 4 (accOut r 0 fadd).toNat ++ bytesOf 4 (accOut r 1 fadd).toNat ++
  bytesOf 4 (accOut r 2 fadd).toNat ++ bytesOf 4 (accOut r 3 fmax).toNat

/-- The vector units go back; registers 48 to 63 of the workers hold free words (R326, log entry 8). -/
def updRelease (s : State) (h : Nat) : State :=
  let ts := (getHam s h).borrow
  let s := ts.foldl (fun s q =>
    let t := getTile s (h * 64 + q)
    { setTile s (h * 64 + q) { t with vregs := clearRange t.vregs (48 * 128) 2048, vfree := some s.freeCtr } with
        freeCtr := s.freeCtr + 2048 }) s
  setHam s h { getHam s h with borrow := [], upd := none }

/-- END: the next chunk, or after the last one the norms entry and the completion of the command (R327, R329). -/
def effEnd (s : State) (p h : Nat) (r : UpdRun) (_ : W64) : State :=
  let x := getHam s h
  if 128 * (r.chunk + 1) < tsNelem s r.setAt then
    { setHam s h { x with upd := some { r with chunk := r.chunk + 1, uop := 0, slots := [], free := s.freeCtr } } with
        freeCtr := s.freeCtr + 2048 }
  else
    let step := (getPart s p).step
    let a := x.updNorm + 32 * (tsNorm s r.setAt + x.updCnt * (step % 2))
    match spanLocal s p h a 32 true with
    | some b => updFault s h r.job 5 0 b
    | none =>
      let s := spanWrite s p h a (normsEntry s r step)
      let s := setHam s h { getHam s h with norms := (getHam s h).norms ++ [a] }
      jobDone (updRelease s h) h r.job.tile .upd

def execUopLdt (hamlet : Nat) (unc : Bool) (s : State) : Res := checked (.uopLdt hamlet unc) (uopRow 0x01 (effLdt unc) hamlet s)
def execUopStt (hamlet : Nat) (s : State) : Res := checked (.uopStt hamlet) (uopRow 0x02 effStt hamlet s)
def execUopLdh (hamlet : Nat) (s : State) : Res := checked (.uopLdh hamlet) (uopRow 0x03 effLdh hamlet s)
def execUopAdd (hamlet : Nat) (s : State) : Res := checked (.uopAdd hamlet) (uopRow 0x10 (effArith (fun a b _ => fadd a b)) hamlet s)
def execUopSub (hamlet : Nat) (s : State) : Res := checked (.uopSub hamlet) (uopRow 0x11 (effArith (fun a b _ => fsub a b)) hamlet s)
def execUopMul (hamlet : Nat) (s : State) : Res := checked (.uopMul hamlet) (uopRow 0x12 (effArith (fun a b _ => fmul a b)) hamlet s)
def execUopFma (hamlet : Nat) (s : State) : Res := checked (.uopFma hamlet) (uopRow 0x13 (effArith ffma) hamlet s)
def execUopMin (hamlet : Nat) (s : State) : Res := checked (.uopMin hamlet) (uopRow 0x14 (effArith (fun a b _ => fmin a b)) hamlet s)
def execUopMax (hamlet : Nat) (s : State) : Res := checked (.uopMax hamlet) (uopRow 0x15 (effArith (fun a b _ => fmax a b)) hamlet s)
def execUopRsqrt (hamlet : Nat) (s : State) : Res := checked (.uopRsqrt hamlet) (uopRow 0x20 (effArith (fun a _ _ => frsqrt a)) hamlet s)
def execUopRcp (hamlet : Nat) (s : State) : Res := checked (.uopRcp hamlet) (uopRow 0x21 (effArith (fun a _ _ => frcp a)) hamlet s)
def execUopCvtw (hamlet : Nat) (s : State) : Res := checked (.uopCvtw hamlet) (uopRow 0x30 effCvtw hamlet s)
def execUopNorm (hamlet : Nat) (s : State) : Res :=
  checked (.uopNorm hamlet) (uopRow 0x38 (effAcc (fun _ u => uoIdx u) (fun acc a => ffma a a acc)) hamlet s)
def execUopAmax (hamlet : Nat) (s : State) : Res :=
  checked (.uopAmax hamlet) (uopRow 0x39 (effAcc (fun _ _ => 3) (fun acc a => fmax acc (fabs a))) hamlet s)
def execUopEnd (hamlet : Nat) (s : State) : Res := checked (.uopEnd hamlet) (uopRow 0x3F effEnd hamlet s)

/-- Clearing UPD.FAULT.VALID (R333). -/
def execUpdFaultClear (w : Writer) (page : Nat) (v : W32) (s : State) : Res :=
  checked (.updFaultClear w page v) (clearValid w (page + Off.updFault) v [] s)

/-! ### The vote (R337) -/

/-- Any TIL.NF flag of the hamlet is 1. -/
def anyNf (s : State) (h : Nat) : Bool :=
  (List.range 17).any (fun q => bit (reg s (tilPg h q + Off.tilNfA)) 31 || bit (reg s (tilPg h q + Off.tilNfB)) 31)

/-- Bits [3:0] of the hamlet's local vote word. -/
def localVote (s : State) (h : Nat) : Nat :=
  let x := getHam s h
  let b (c : Bool) (k : Nat) : Nat := if c then 2 ^ k else 0
  b (anyNf s h || x.gradNf || x.updNf) 0 + b (anyNf s h) 1 + b x.gradNf 2 + b x.updNf 3

/-- The mirror of the partition's last commit is not yet acknowledged as COMPLETE: its next VOTE waits (R594). -/
def mirPending (s : State) (p : Nat) : Bool := s.mirrors.any (fun m => decide (m.part = p) && m.learner)

/-- The VOTE program at the head of the queue writes the local vote word (R337); a hold for the mirror of the last commit is
counted once (R594). -/
def doVote (s : State) (h : Nat) : State :=
  let x := getHam s h
  match x.upd, x.updQ, x.part with
  | none, j :: q, some p =>
    if x.updOff || !partGoes s p || decide (updProg j.word ≠ 0xFFFF) then s
    else if mirPending s p then
      if (getPart s p).mirHeld then s
      else bump (setPart s p { getPart s p with mirHeld := true }) (pCkp + Off.ckpMirHold) 1
    else
      let s := setRegF (setHam s h { x with updQ := q }) (updPg h + Off.updStat) 15 0 0xFFFF
      match spanLocal s p h x.updVote 4 true with
      | some b => updFault s h j 5 0 b
      | none =>
        let v := localVote s h
        let s := spanWrite s p h x.updVote (bytesOf 4 v)
        jobDone (setHam s h { getHam s h with vote := v }) h j.tile .upd
  | _, _, _ => s

def execVote (hamlet : Nat) (s : State) : Res := checked (.vote hamlet) (doVote s hamlet)

end Sys2Proof.Machine
end

