-- ==== Sys2Proof/Machine/Release.lean ====
section
/-! DEFINITION. The release of a step (R175, R176, R241, R249, R336, R361, R363, R656) and what takes effect with it. -/

namespace Sys2Proof.Machine

/-! ### When a step may be released -/

/-- Nothing holds the partition: it runs, or its one image has been loaded (R183); the module is not fenced, without power or
halted (R522, R571, R578), and no hamlet is retired or moves an image (R308, R556). -/
def partReady (s : State) (p : Nat) : Bool :=
  let x := getPart s p
  x.resident.isSome && !x.placing && !x.inStep && x.cause.isNone && decide (x.cmd ≠ 2) &&
  (decide (x.st = .running) || (decide (x.st = .created) && decide (x.cmd = 3))) &&
  !s.quar && !s.dark && !bit (reg s (pHlt + Off.hltStat)) 31 && x.switchTo.isNone &&
  x.hams.all (fun h => !(getHam s h).retired && decide ((getHam s h).spill = 0))

/-- A step of the partition may be released: a learner's after its commit or skip and after the restore that follows a DEAD, a generator's with a formed batch and no
granary hold (R282, R298; log entry 29). -/
def mayRelease (s : State) (p : Nat) : Bool :=
  let x := getPart s p
  partReady s p && (if x.learner then !x.commitWait && !s.restoreDue else !x.batch.isEmpty && !x.grnHeld)

/-! ### The step parameters (R176, R656) -/

/-- The quantity that a SOURCE code of the parameter map names, over the entries of a length table (R656). -/
def mapQuantity (src : Nat) (es : List LEnt) : Nat :=
  let nq (l : List LEnt) : Nat := (l.map (·.nq)).foldl (· + ·) 0
  match src with
  | 2 => es.length
  | 3 => nq es
  | 4 => (es.filter (fun e => !e.chunk)).length
  | 5 => nq (es.filter (·.chunk))
  | _ => (es.map (·.nq)).foldl max 0

/-- What a map entry leaves in its parameter, which holds `old`. -/
def mapValue (learner : Bool) (es : List LEnt) (old e : W32) : W32 :=
  match fld e 31 24 with
  | 0 => old
  | 1 => w32 (fld e 23 0)
  | k => if learner then 0 else w32 (mapQuantity k es)

/-- The parameters of a stream from those it holds: the step number, the map in ascending order, then the slot parameter. -/
def stepParams (n : Nat) (learner : Bool) (es : List LEnt) (slot : Option (Nat × W32)) (maps old : Store W32) : Store W32 :=
  let m := putDef (putDef old 0 (w32 n) 0) 1 (w32 (n >>> 32)) 0
  let m := (natsFrom 2 14).foldl (fun m i => putDef m i (mapValue learner es (getD m i 0) (getD maps i 0)) 0) m
  match slot with
  | some (i, v) => putDef m i v 0
  | none => m

/-- The slot parameter of a sub-batch: which parameter, and its value (R361). -/
def slotParam (s : State) (p e : Nat) : Option (Nat × W32) :=
  if (getPart s p).learner then none else (slotPar s e).map (fun v => (slotParIx (getPart s p).epCfg, v))

/-- Hamlet and logical tile of every stream of a partition. -/
def partStreams (s : State) (p : Nat) : List (Nat × Nat) :=
  (getPart s p).hams.flatMap (fun h => (List.range 16).map (fun t => (h, t)))

/-- The key pair of a step: the seed of the function that its first entry serves; in a learner partition of the lowest enabled
function assigned to it (R241; log entry 30). -/
def stepSeed (s : State) (p : Nat) : Nat :=
  let x := getPart s p
  match x.batch with
  | e :: _ => e.seed
  | [] => match (fnsOf s p).find? (fnOn s) with | some n => seedOf s n | none => 0

/-- The entries of the step that run under an epoch (R363). -/
def subEntries (x : Part) (e : Nat) : List LEnt := x.batch.filter (fun l => decide (l.epoch = e))

/-- The body of a stream starts with new parameters and keys; `restart` says that the step starts. -/
def startBody (s : State) (p e : Nat) (es : List LEnt) (restart : Bool) (ht : Nat × Nat) : State :=
  let x := getPart s p
  let y := getStr s ht.1 ht.2
  let key := (getHam s ht.1).lham * 16 + ht.2
  let old := if restart && x.again then getD x.relPar key y.params else y.params
  let seed := stepSeed s p
  setStr s ht.1 ht.2 { y with
    phase := .body, pos := 0, gmv := if restart then 0 else y.gmv, key0 := w32 seed, key1 := w32 (seed / 2 ^ 32),
    params := stepParams x.step x.learner es (slotParam s p e) y.maps old }

/-- The 32 bytes of a length-table entry (R206, R207). -/
def ltBytes (s : State) (e : LEnt) (qrow : Nat) : List Byte :=
  bytesOf 2 e.slot ++ bytesOf 2 e.nq ++ bytesOf 4 e.lc ++ bytesOf 4 0 ++ bytesOf 4 qrow ++ bytesOf 8 (getReq s e.slot).pageList ++ bytesOf 8 0

/-- A length table: QROW is the sum of NQ of the entries before. -/
def ltTable (s : State) : Nat → List LEnt → List Byte
  | _, [] => []
  | q, e :: r => ltBytes s e q ++ ltTable s (q + e.nq) r

/-- The places of the length table: those that the image's attention jobs name, in the hamlet store of each hamlet where the
address is one of space 0x2. -/
def ltPlaces (s : State) (p : Nat) : List (Nat × Nat) :=
  let n := match resSection s p 5 with | some c => c.count | none => 0
  let lts := ((List.range n).filterMap (fun i => (atsJobAt s p i).map (fun w => (atsJob w).lt))).eraseDups
  let hams := (getPart s p).hams
  lts.flatMap (fun a => if a / 2 ^ 60 % 16 = 2 then hams.map (fun h => (h, a)) else (hams.take 1).map (fun h => (h, a)))

/-- A sub-batch starts: its length table, and every stream at the start of its body (R176, R363). -/
def subStart (s : State) (p e : Nat) (restart : Bool) : State :=
  let es := subEntries (getPart s p) e
  let s := (ltPlaces s p).foldl (fun s x => if (getPart s p).learner then s else spanWrite s p x.1 x.2 (ltTable s 0 es)) s
  let s := (partStreams s p).foldl (fun s ht => startBody s p e es restart ht) s
  (getPart s p).hams.foldl (fun s h => setHam s h { getHam s h with bound := false }) s

/-! ### The batch at release (R249, R362, R363, R367) -/

/-- Under pin-per-request the entries' requests without a pin take the current epoch (R362). -/
def pinBatch (s : State) (p : Nat) : State :=
  let x := getPart s p
  let cur := curEpoch s p
  if !pinOn x.epCfg || decide (cur = noEpoch) then s
  else { s with reqs := s.reqs.map (fun e =>
    if x.batch.any (fun l => decide (l.slot = e.1)) ∧ e.2.pin = noEpoch then (e.1, { e.2 with pin := cur }) else e) }

/-- The profile at an index, where the table holds it (R249). -/
def profileAt (s : State) (i : Nat) : Option (List Byte) :=
  if i < min 4096 (regF s (pSmp + Off.smpProfCnt) 12 0) then
    some (rdBytes s.mem (gOff (pair s (pSmp + Off.smpProfBaseLo) + 32 * i)) 32)
  else none

/-- Bytes of an allowed-set bitmap: one bit for each of 2^20 vocabulary entries. -/
def allowBytes : Nat := 131072

/-- An entry with what its draws use: profile, bitmap, seed and epoch. -/
def entryCopy (s : State) (p : Nat) (l : LEnt) : LEnt :=
  let r := getReq s l.slot
  let prof := profileAt s r.profile
  let f := Profile.ofBytes (prof.getD [])
  let cur := curEpoch s p
  { l with
    prof := prof, allow := if f.allow then rdBytes s.mem (gOff f.allowAt) allowBytes else [], seed := seedOf s r.func,
    epoch := if pinOn (getPart s p).epCfg && decide (r.pin ≠ noEpoch) then r.pin else cur, draws := [], proposed := 0 }

/-- The entries ordered by sub-batch (R363), and the adaptor entry of each function in the step (R367). -/
def batchRelease (s : State) (p : Nat) : State :=
  let s := pinBatch s p
  let x := getPart s p
  let es := x.batch.map (entryCopy s p)
  let s := setPart s p { x with batch := es }
  let subs := subEpochs s p
  let fns := (es.map (fun e => (getReq s e.slot).func)).foldl insN []
  setPart s p { x with
    batch := subs.flatMap (fun e => es.filter (fun l => decide (l.epoch = e))), subs := subs,
    adp := fns.map (fun n => (n, rdBytes s.mem (gOff (pair s (pEpo + Off.epoAdpBaseLo)) + 32 * n) 32)) }

/-! ### The hamlets at release -/

/-- The flags that class F clears in every tile of a learner's hamlet (R336). -/
def nfClearAll (s : State) (h : Nat) : State :=
  let w : Writer := { cls := .f, path := 3, fn := 0, source := h, mepoch := 0, onM := false }
  (List.range 17).foldl (fun s q =>
    [false, true].foldl (fun s b =>
      let a := tilPg h q + if b then Off.tilNfB else Off.tilNfA
      if bit (reg s a) 31 then nfWrite w (tilPg h q) b 0x80000000 none s else s) s) s

/-- HST.MODE takes effect: a way that becomes scratch holds undefined bytes (R399; log entry 8). -/
def modeTake (s : State) (h : Nat) : State :=
  let new := reg s (hstPg h + Off.hstMode)
  let turned := (bitsSet (reg s (hstPg h + Off.hstWays) &&& (getHam s h).modeNow &&& ~~~new &&& ~~~(reg s (hstPg h + Off.hstFoldw))) 32)
  let s := turned.foldl (fun s w =>
    let bs := (List.range 262144).map (fun i => BitVec.ofNat 8 (Config.freeWord (s.freeCtr + i)).toNat)
    { setHam s h { getHam s h with store := wrBytes (getHam s h).store (262144 * w) bs } with freeCtr := s.freeCtr + 262144 }) s
  setHam s h { getHam s h with modeNow := new }

/-- What a release does in a hamlet: refusals of lists, jobs and programs end, the update registers and HST.MODE are taken,
HAM.STEP and its interrupt (R192, R236, R333, R330, R399). -/
def hamRelease (s : State) (p n h : Nat) : State :=
  let x := getHam s h
  let learner := (getPart s p).learner
  let s := setHam s h { x with
    cartOff := false, atsOff := false, updOff := false, updHp := pair s (updPg h + Off.updHpBaseLo),
    updNorm := pair s (updPg h + Off.updNormBaseLo), updCnt := regF s (updPg h + Off.updNormCnt) 15 0,
    updVote := pair s (updPg h + Off.updVoteBaseLo), norms := [], gradNf := false, vote := 0,
    updNf := if learner then false else x.updNf }
  let s := if learner then nfClearAll s h else s
  let s := countH (modeTake s h) h 0x107 1 none
  intBit (setPair s (hamPgOf h + Off.hamStepLo) n) (hamPgOf h) 2

/-! ### The release -/

/-- RAS.CHECK.FRACTION as the divisor of R557; 0 off. -/
def shadowDiv (f : Nat) : Nat := match f with | 0 => 0 | 1 => 64 | 2 => 32 | 3 => 16 | _ => 8

/-- The partition's registers that take effect at a release (R370, R396, R397, R500, R557, R628, PEN.P_REG). -/
def partTake (s : State) (p : Nat) : State :=
  let x := getPart s p
  let cfg := regAt s (pMcn + Off.mcnPTrCfg) p
  let base := pairAt s (pMcn + Off.mcnPTrBaseLo) p % 2 ^ 50
  let s := if x.trNew && decide (6 ≤ fld cfg 28 24) && decide (fld cfg 28 24 ≤ 20) then { s with mem := wrNat s.mem (base + 32 * 2 ^ fld cfg 28 24) 8 0 } else s
  setPart s p { x with
    limit := max 1 (regF s (prtPg p + Off.prtStepLimit) 23 0), peerBase := pair s (prtPg p + Off.prtPeerBaseLo),
    peerCnt := reg s (prtPg p + Off.prtPeerCnt), shadow := shadowDiv (regF s (pRas + Off.rasCheck) 2 0),
    regBase := pairAt s (pPen + Off.penPRegBaseLo) p, regCnt := min 1021 (regAt s (pPen + Off.penPRegCnt) p).toNat,
    pfBase := pairAt s (pFtm0 + Off.ftmPfBaseLo) p, pfCnt := min 4096 (fld (regAt s (pFtm0 + Off.ftmPfCnt) p) 12 0), pfNext := 0,
    pctr0 := x.pctr, trCfg := if x.trNew then cfg else x.trCfg, trBase := if x.trNew then base else x.trBase, trNew := false }

/-- The first release of a single image ends its LOAD_IMAGE (R497, R658). -/
def loadEnds (s : State) (p : Nat) : State :=
  let x := getPart s p
  if x.cmd = 3 then
    intBit (setReg (setPart s p { x with cmd := 0, st := .running }) (prtPg p + Off.prtCmdStat) 0) (prtPg p) 0
  else s

/-- The number of the step that comes next (R176). -/
def nextStep (x : Part) : Nat := if x.again then x.step else x.step + 1

/-- A STEP fence for this step came before its release: it faults (R569). -/
def fenceTake (s : State) (p : Nat) : State :=
  let x := getPart s p
  match x.fenceNext with
  | none => s
  | some (n, g, o) =>
    let s := setPart s p { x with fenceNext := none }
    if n = x.step then faultStep s p ⟨7, prtPg p, g, o, 0xFFFF, 0⟩ else s

/-- The release itself, once the epoch of the step is settled. -/
def releaseGo (s : State) (p : Nat) : State :=
  let n := nextStep (getPart s p)
  let s := partTake (chainRestart s p) p
  let s := setPart s p { getPart s p with step := n, inStep := true, cause := none }
  let s := if (getPart s p).learner then setPart s p { getPart s p with subs := [curEpoch s p] } else batchRelease s p
  let s := (getPart s p).hams.foldl (fun s h => hamRelease s p n h) s
  let s := subStart s p ((getPart s p).subs.headD 0) true
  let x := getPart s p
  let s := setPart s p { x with
    again := false, mirHeld := false,
    relPar := (partStreams s p).map (fun ht => ((getHam s ht.1).lham * 16 + ht.2, (getStr s ht.1 ht.2).params)) }
  fenceTake (loadEnds s p) p

/-- The reeve releases the next step of a partition, where nothing holds it; a generator's release waits for its epoch
(R359, R360). -/
def stepRelease (s : State) (p : Nat) : State :=
  if !mayRelease s p then s
  else if (getPart s p).learner then releaseGo s p
  else
    let (s, go) := epochRelease s p (nextStep (getPart s p))
    if go then releaseGo s p else s

def execStepRelease (part : Nat) (s : State) : Res := checked (.stepRelease part) (stepRelease s part)

end Sys2Proof.Machine
end

