-- ==== Sys2Proof/Machine/Sampler.lean ====
section
/-! DEFINITION. Token draws (R248 to R261) and the known-answer test of the KCM (R269, R270). -/

namespace Sys2Proof.Machine

/-! ### Draws -/

/-- The entry of the formed step that serves a slot. -/
def entryOf (s : State) (p slot : Nat) : Option LEnt := (getPart s p).batch.find? (fun e => decide (e.slot = slot))

/-- The positions at which an entry draws (R284): every position of a SPEC entry, the last one of any other entry that
reaches LK, and none of a chunk that does not. -/
def drawPositions (r : Req) (e : LEnt) : List Nat :=
  if r.st = stSpec then natsFrom (e.lc + 1) e.nq
  else if e.lc + e.nq = r.lk then [r.lk] else []

/-- A bitmap's bit for an entry (R248). -/
def allowBit (b : List Byte) (v : Nat) : Bool := bit (b.getD (v / 8) 0) (v % 8)

/-- The cause of R256 that a draw meets, 0 when it meets none. -/
def drawCause (e : LEnt) (logits : List W32) : Nat :=
  match e.prof with
  | none => 3
  | some b =>
    let p := Profile.ofBytes b
    if !p.ok then 3
    else
      let x := scoresX p logits
      if x.any (fun y => (!p.allow || allowBit e.allow y.1) && (isNan y.2 || decide (y.2 = inf32 false))) then 2
      else if (candC0 p (allowBit e.allow) x).isEmpty then 1
      else 0

/-- The policy log-probability, and whether it is the canonical NaN of R260. -/
def policyLp (logits : List W32) (tok : Nat) : W32 × Bool :=
  let z := logProb logits.length (numbered logits) tok
  if nonFinite z.1 || nonFinite z.2 then (nan32, true) else (z.1, false)

/-- The draw at a position (R250 to R260). -/
def drawAt (e : LEnt) (r : Req) (t : Nat) (logits : List W32) : Draw :=
  let c := drawCause e logits
  let p := Profile.ofBytes (e.prof.getD [])
  let x := scoresX p logits
  let cs := candSet p (allowBit e.allow) x
  match decide (c = 0), drawFrom p (w32 e.seed) (w32 (e.seed / 2 ^ 32)) (w32 (r.seed % 2 ^ 31)) t cs with
  | true, some tok =>
    let pol := policyLp logits tok
    { pos := t, tok := tok, fault := 0, samp := if p.greedy then 0 else (logProb logits.length cs tok).1, pol := pol.1, nan := pol.2 }
  | _, _ => { pos := t, tok := 0, fault := c, samp := 0, pol := 0, nan := false }

/-- A faulted draw counted, the first recorded (R256). -/
def drawFault (s : State) (slot cause : Nat) : State :=
  let s := bump s (pSmp + Off.smpFaults) 1
  let a := pSmp + Off.smpLastFault
  let s := if bit (reg s a) 31 then s else setReg s a (w32 (2 ^ 31 + cause * 2 ^ 24 + slot))
  intBit s pSmp 0

/-- A draft stage of the image proposes a token for the next step: drawn in lane 1, written behind the proposals before it, and counted
in NDRAFT. A request without a draft buffer takes none, nor one whose buffer is full, and a draw that faults proposes nothing (R245;
log entry 15). -/
def draftDraw (s : State) (slot pos : Nat) (e : LEnt) (logits : List W32) : State :=
  let r := getReq s slot
  let x := getPart s r.part
  let d := drawAt e r pos logits
  if !(x.inStep && inFlightReq r) || decide (r.draftAddr = 0) || decide (15 ≤ e.proposed) || decide (d.fault ≠ 0) then s
  else
    let upd (y : LEnt) : LEnt := if y.slot = slot then { y with proposed := e.proposed + 1 } else y
    let s := setPart s r.part { x with batch := x.batch.map upd }
    let s := setReq s slot { r with ndraft := e.proposed + 1 }
    bumpPair (writeToks s (r.draftAddr + 4 * e.proposed) [w32 d.tok]) (pSmp + Off.smpDrawsLo) 1

/-- The draw of one position of a request in the step in flight: lane 0, or lane 1 for a proposal (R244, R245). A SPEC entry's fault counts only at the commit, where the
token would be committed (R261). -/
def tokenDraw (s : State) (slot pos : Nat) (logits : List W32) : State :=
  let r := getReq s slot
  match entryOf s r.part slot with
  | none => s
  | some e =>
    let x := getPart s r.part
    if !(drawPositions r e).contains pos then (if pos / 2 ^ 48 = 1 then draftDraw s slot pos e logits else s)
    else if !(x.inStep && inFlightReq r && e.draws.all (fun d => decide (d.pos ≠ pos))) then s
    else
      let d := drawAt e r pos logits
      let upd (y : LEnt) : LEnt := if y.slot = slot then { y with draws := y.draws ++ [d] } else y
      let s := setPart s r.part { x with batch := x.batch.map upd }
      let s := bumpPair s (pSmp + Off.smpDrawsLo) 1
      if d.fault = 0 ∨ r.st = stSpec then s else drawFault s slot d.fault

/-- The sampler draws the token of a position from its logits (R253). -/
def execTokenDraw (slot pos : Nat) (logits : List W32) (s : State) : Res :=
  checked (.tokenDraw slot pos logits) (tokenDraw s slot pos logits)

/-- Clearing SMP.LAST_FAULT.VALID (R256). -/
def execSmpLastFaultClear (w : Writer) (v : W32) (s : State) : Res :=
  checked (.smpLastFaultClear w v) (clearValid w (pSmp + Off.smpLastFault) v [] s)

/-! ### The known-answer test (R269, R270) -/

/-- The tiles that the test runs on: those of the enabled hamlets. -/
def kcmTiles (s : State) : List Nat := (hamletsOn s).flatMap (fun h => (List.range 17).map (tileNo h))

/-- A write of SMP.KCM_TEST (R269). -/
def kcmStart (w : Writer) (v : W32) (s : State) : State :=
  let x := writePlain w (pSmp + Off.smpKcmTest) v s
  if !x.ok || !bit x.wo 0 then x.st
  else if !x.st.kcmLeft.isEmpty then errInc x.st pSmp
  else { setReg x.st (pSmp + Off.smpKcmStat) 0 with kcmLeft := kcmTiles x.st }

def execKcmTestStart (w : Writer) (v : W32) (s : State) : Res := checked (.kcmTestStart w v) (kcmStart w v s)

/-- One tile's run of the test at its hamlet's step boundary, and its outcome (R270). -/
def kcmRun (s : State) (h t : Nat) (good : Bool) : State :=
  let n := tileNo h t
  if !s.kcmLeft.contains n || !(getHam s h).bound then s
  else
    let a := pSmp + Off.smpKcmStat
    let s := { s with kcmLeft := s.kcmLeft.filter (· ≠ n) }
    let s := if good then s
      else
        let s := if bit (reg s a) 30 then s else setReg s a (w32 (2 ^ 30 + n))
        tileBad (intBit s pSmp 1) h t
    if s.kcmLeft.isEmpty then intBit (setReg s a (setBit (reg s a) 31 true)) pSmp 2 else s

def execKcmTestRun (hamlet tile : Nat) (good : Bool) (s : State) : Res :=
  checked (.kcmTestRun hamlet tile good) (kcmRun s hamlet tile good)

end Sys2Proof.Machine
end

