-- ==== Sys2Proof/Machine/Commit.lean ====
section
/-! DEFINITION. The commit of a generator's step (R231, R232, R261, R287 to R294) and the batch of the next one (R281 to
R286). -/

namespace Sys2Proof.Machine

/-! ### The tokens of an entry (R261, R287) -/

/-- A token that an entry commits, and whether it is an accepted draft. -/
structure NewTok where
  draw : Draw
  draft : Bool
deriving DecidableEq, Repr

/-- The draws of an entry in position order, each with the draft token that stood at the next position. -/
def drawsOf (r : Req) (e : LEnt) : List (Draw × Option Nat) :=
  let ps := drawPositions r e
  ((List.range ps.length).zip ps).filterMap (fun x =>
    (e.draws.find? (fun d => decide (d.pos = x.2))).map (fun d => (d, if r.st = stSpec then e.drafts[x.1]? else none)))

/-- The tokens committed, up to `room` of them, and the cause of the draw fault that ends the request, 0 for none: a draft is
accepted while it equals the drawn token; the first token that is EOS or EOT ends the tokens. -/
def newToks (r : Req) : Nat → List (Draw × Option Nat) → List NewTok × Nat
  | 0, _ => ([], 0)
  | _, [] => ([], 0)
  | k + 1, (d, f) :: rest =>
    if d.fault ≠ 0 then ([], d.fault)
    else
      let hit := decide (f = some d.tok)
      let t : NewTok := ⟨d, hit⟩
      if d.tok = r.eos ∨ d.tok = r.eot ∨ !hit then ([t], 0)
      else let x := newToks r k rest; (t :: x.1, x.2)

/-- The Flags field of a token record (R290). -/
def tokFlags (r : Req) (e : LEnt) (first : Bool) (t : NewTok) : Nat :=
  let b (c : Bool) (i : Nat) : Nat := if c then 2 ^ i else 0
  b t.draw.nan 6 + b t.draft 5 + b (decide (t.draw.pos + 1 = r.lmax)) 4 + b (decide (t.draw.tok = r.eos)) 3 +
  b (decide (t.draw.tok = r.eot)) 2 + b (Profile.ofBytes (e.prof.getD [])).greedy 1 + b first 0

/-- A token record (R291). -/
def tokRec (r : Req) (e : LEnt) (first : Bool) (t : NewTok) : List Byte :=
  rec32 e.slot (tokFlags r e first t) (bytesOf 4 t.draw.tok ++ bytesOf 4 t.draw.pos ++ bytesOf 4 e.epoch ++
    bytesOf 4 t.draw.samp.toNat ++ bytesOf 4 t.draw.pol.toNat)

/-- The token records of an entry, in position order; the first may carry bit 0. -/
def tokRecs (r : Req) (e : LEnt) : Bool → List NewTok → List (List Byte)
  | _, [] => []
  | first, t :: rest => tokRec r e first t :: tokRecs r e false rest

/-- The state after the commit and its CAUSE: the first rule that applies (R293). -/
def stopRule (s : State) (r : Req) (new : List NewTok) : Nat × Nat :=
  match new.getLast? with
  | none => (stQueued, r.cause)
  | some t =>
    if t.draw.tok = r.eos then (stDone, 0x20)
    else if r.lk = r.lmax then (stDone, 0x21)
    else if t.draw.tok = r.eot then (stPaused, r.cause)
    else if poolOf s r.part = some 1 then (stShipped, r.cause)
    else (stQueued, r.cause)

/-- An entry's records to its granary, its function's host ring and its queue pair (R294, R297); none for a function under FLR
(R501). -/
def sendRecs (s : State) (r : Req) (toks : List (List Byte)) (ends : List (List Byte)) : State :=
  let s := grnReq s r (toks ++ ends)
  if r.mute then s
  else
    let s := if r.host then toks.foldl (fun s x => hrToken s r.func x) s else s
    if toks.isEmpty ∨ r.envQp / 2 ^ 15 % 2 = 0 then s else { s with out := s.out ++ [.send (r.envQp % 2 ^ 14) toks.flatten] }

/-- A token record whose policy log-probability is NaN sets a flag (R260; log entry 32). -/
def nanFlag (s : State) (p : Nat) (new : List NewTok) : State :=
  if new.any (fun t => t.draw.nan) then
    match lhamTo s p 0 with
    | some h => setNf s h 0 0xFFFF 0
    | none => s
  else s

/-- One entry committed: lengths, tokens, frames and records (R231, R232, R287, R288), and the request's state and CAUSE that the
second pass sets. -/
def commitEntry (s : State) (p : Nat) (e : LEnt) : State × (Nat × Nat × Nat) :=
  let r := getReq s e.slot
  let x := newToks r (r.lmax - r.lk) (drawsOf r e)
  if x.2 ≠ 0 then
    let s := if r.st = stSpec then drawFault s e.slot x.2 else s
    let r' := { r with lt := e.lc, lc := e.lc, cause := x.2 }
    let s := setReq (commitFrames s r e.lc) e.slot r'
    (sendRecs s r' [] [endRec e.slot r'], (e.slot, stFaulted, x.2))
  else
    let new := x.1
    let lc' := if new.isEmpty then e.lc + e.nq else r.lk + new.length - 1
    let s := writeToks s (r.tokAddr + 4 * r.lk) (new.map (fun t => w32 t.draw.tok))
    let s := commitFrames s r lc'
    let r' := { r with lc := lc', lt := lc', lk := r.lk + new.length, ndraft := if 0 < e.proposed then e.proposed else if r.st = stSpec then 0 else r.ndraft,
                       fresh := r.fresh && new.isEmpty }
    let (st, c) := stopRule s r' new
    let r' := { r' with cause := c }
    let s := nanFlag (bumpPair (setReq s e.slot r') (pReq + Off.reqTokensLo) new.length) p new
    (sendRecs s r' (tokRecs r e r.fresh new) (if st = stDone then [endRec e.slot r'] else []), (e.slot, st, c))

/-- Entries committed in table order. -/
def commitAll (p : Nat) : List LEnt → State → State × List (Nat × Nat × Nat)
  | [], s => (s, [])
  | e :: r, s =>
    let x := commitEntry s p e
    let y := commitAll p r x.1
    (y.1, x.2 :: y.2)

/-- The state of a request after its commit, with the STATUS record and the offer of a SHIPPED request (R293, R294, R303). -/
def commitState (s : State) (x : Nat × Nat × Nat) : State :=
  let s := endReq s x.1 x.2.1 x.2.2
  if x.2.1 = stShipped ∧ (getReq s x.1).mute = false then shipOffer s x.1 else s

/-- An entry of a faulted step: lengths as before, no record, NDRAFT kept, QUEUED (R288). -/
def faultEntry (s : State) (e : LEnt) : State :=
  let r := getReq s e.slot
  setReqSt (setReq (commitFrames s r e.lc) e.slot { r with lt := e.lc, lc := e.lc }) e.slot stQueued

/-- The charges of a step given back (R286). -/
def refund (s : State) (p : Nat) : State :=
  (getPart s p).charges.foldl (fun s c => setBal s c.1 (min (budBurst s c.1) (budBal s c.1 + c.2))) s

/-- The step is over: its entries and charges are gone. -/
def stepOver (s : State) (p : Nat) : State :=
  setPart s p { getPart s p with batch := [], charges := [], subs := [], inStep := false }

/-- The commit of a generator's step in length-table order (R287, R294). -/
def genCommit (s : State) (p : Nat) : State :=
  let x := commitAll p (getPart s p).batch s
  stepOver (x.2.foldl commitState x.1) p

/-- The entries of a step, or of a batch that has not been released, are given back (R286, R288). -/
def genFault (s : State) (p : Nat) : State :=
  stepOver (refund ((getPart s p).batch.foldl faultEntry s) p) p

/-! ### Batch formation (R281 to R286) -/

/-- The image index of a function (R498). -/
def imgOf (s : State) (n : Nat) : Nat := regF s (fncPg n + Off.fncCfg) 10 8

/-- An image is registered at an index (R498). -/
def imgUsable (s : State) (p i : Nat) : Bool := (getS (getPart s p).images i).isSome

/-- A request ranks before another (R282). -/
def ranks (a b : Req) : Bool :=
  decide (b.prio < a.prio) || (decide (a.prio = b.prio) && (decide (a.deadline < b.deadline) ||
    (decide (a.deadline = b.deadline) && decide (a.admitNo < b.admitNo))))

/-- A slot put into a ranked list. -/
def rankIns (s : State) (i : Nat) : List Nat → List Nat
  | [] => [i]
  | j :: r => if ranks (getReq s i) (getReq s j) then i :: j :: r else j :: rankIns s i r

/-- The eligible requests of a partition but for image group and ring room, ranked (R281, R282). -/
def ranked (s : State) (p : Nat) : List Nat :=
  ((slotsOf s p).filter (fun i =>
    let r := getReq s i
    decide (r.st = stQueued) && fnOn s r.func && assigned s r.func p && imgUsable s p (imgOf s r.func))).foldl (fun l i => rankIns s i l) []

/-- What the formation has taken so far. -/
structure Form where
  st : State
  tok : Nat
  pre : Nat
  /-- Entries taken, the newest first. -/
  taken : List LEnt
  /-- Functions of the HOST requests taken, one entry each. -/
  hosts : List Nat
deriving DecidableEq, Repr

/-- The budget entry of a request. -/
def budIx (r : Req) : Nat := 4 * r.func + r.bclass

/-- Room in the host ring of a request's function for 17 records and 17 for each HOST request of it taken (R281). -/
def ringRoom (f : Form) (r : Req) : Bool :=
  !r.host || decide (hrLog f.st r.func = 0) ||
    decide (17 * (1 + (f.hosts.filter (· = r.func)).length) ≤ hrRoom f.st r.func - (getD f.st.hrWait r.func []).length)

/-- The PAUSED request with the earliest PAUSED_AT parks, of equal ones that with the lowest ADMIT_SEQ (R283). -/
def pressurePark (s : State) (p : Nat) : State :=
  let ps := (slotsOf s p).filter (fun i => decide ((getReq s i).st = stPaused))
  let best := ps.foldl (fun (b : Option Nat) i =>
    match b with
    | none => some i
    | some j =>
      let x := getReq s i
      let y := getReq s j
      if x.pausedAt < y.pausedAt ∨ (x.pausedAt = y.pausedAt ∧ x.admitNo < y.admitNo) then some i else some j) none
  match best with
  | some i => parkReq s i
  | none => s

/-- The entry of a request taken: its input tokens, for SPEC the draft tokens behind the token at LC (R284). -/
def takeEntry (s : State) (r : Req) (slot nq : Nat) (chunk : Bool) : LEnt :=
  let dr := if chunk then [] else readToks s r.draftAddr (nq - 1)
  { slot := slot, nq := nq, lc := r.lc, chunk := chunk, inputs := readToks s (r.tokAddr + 4 * r.lc) (nq - dr.length) ++ dr,
    drafts := dr.map (·.toNat), prof := none, allow := [], seed := 0, epoch := noEpoch, draws := [],
    proposed := 0 }

/-- A request is taken with `nq` tokens, where ring and frames allow it (R281, R283, R286). -/
def takeReq (p : Nat) (f : Form) (slot nq : Nat) (chunk : Bool) : Form :=
  let r := getReq f.st slot
  if !ringRoom f r then { f with st := bump f.st (pReq + Off.reqRingSkip) 1 }
  else match framesFor f.st r nq with
    | none => { f with st := pressurePark (bump f.st (pReq + Off.reqKvSkip) 1) p }
    | some s =>
      let s := setReq s slot { r with lt := r.lc + nq, st := if chunk then stPrefill else if 1 < nq then stSpec else stDecode }
      let s := setBal s (budIx r) (budBal s (budIx r) - nq)
      let s := setPart s p { getPart s p with charges := (getPart s p).charges ++ [(budIx r, nq)] }
      { st := s, tok := f.tok + nq, pre := f.pre + (if chunk then nq else 0),
        taken := takeEntry s r slot nq chunk :: f.taken,
        hosts := if r.host then r.func :: f.hosts else f.hosts }

/-- One request considered in the decode pass. -/
def formDecode (p : Nat) (f : Form) (slot : Nat) : Form :=
  let g := (getPart f.st p).gen
  let r := getReq f.st slot
  if f.taken.length = g.seqmax ∨ r.lk - r.lc ≠ 1 ∨ poolOf f.st p = some 1 then f
  else
    let b := budBal f.st (budIx r)
    let nq := 1 + r.ndraft
    if nq ≤ b ∧ f.tok + nq ≤ g.tokmax then takeReq p f slot nq false
    else
      let f := { f with st := setReq f.st slot { r with ndraft := 0 } }
      if b < 1 then { f with st := bump f.st (pReq + Off.reqBudgetSkip) 1 }
      else if g.tokmax < f.tok + 1 then f
      else takeReq p f slot 1 false

/-- One request considered in the chunk pass. -/
def formChunk (p : Nat) (f : Form) (slot : Nat) : Form :=
  let g := (getPart f.st p).gen
  let r := getReq f.st slot
  if f.taken.length = g.seqmax ∨ f.taken.any (fun e => decide (e.slot = slot)) ∨
      ¬(1 < r.lk - r.lc ∨ (poolOf f.st p = some 1 ∧ 0 < r.lk - r.lc)) then f
  else
    let b := budBal f.st (budIx r)
    let nq := min (r.lk - r.lc) (min (g.chunk - f.pre) (min (g.tokmax - f.tok) (min b 16384)))
    if nq = 0 then (if b < 1 then { f with st := bump f.st (pReq + Off.reqBudgetSkip) 1 } else f)
    else takeReq p f slot nq true

/-- The next step of a partition formed from the requests of its resident image (R282). -/
def formBatch (s : State) (p : Nat) : State :=
  let res := (getPart s p).resident
  let rs := (ranked s p).filter (fun i => decide (some (imgOf s (getReq s i).func) = res))
  let f := rs.foldl (formDecode p) ⟨s, 0, 0, [], []⟩
  let f := rs.foldl (formChunk p) f
  setPart f.st p { getPart f.st p with batch := f.taken.reverse }

end Sys2Proof.Machine
end

