-- ==== Sys2Proof/Machine/Place.lean ====
section
/-! DEFINITION. The check of a schedule image at load (R171, R178 to R180, R444, R656, R657) and its placement onto hamlets
and tiles (R181 to R185, R656). -/

namespace Sys2Proof.Machine

/-! ### The check (R180) -/

/-- The two-byte, four-byte and eight-byte numbers at a module offset. -/
def u16 (s : State) (a : Nat) : Nat := rdNat s.mem a 2
def u32 (s : State) (a : Nat) : Nat := rdNat s.mem a 4
def u64 (s : State) (a : Nat) : Nat := rdNat s.mem a 8

/-- `n` bytes from `a` on are zero. -/
def zeros (s : State) (a n : Nat) : Bool := decide (rdNat s.mem a n = 0)

/-- The command words of `n` words from `a` on: the first word of each command, in order. -/
def firstWords (m : Memory) : Nat → Nat → Nat → List W128
  | 0, _, _ => []
  | k + 1, a, n =>
    if n = 0 then []
    else
      let w : W128 := BitVec.ofNat 128 (rdNat m a 16)
      let c := cmdWords (cwClass w) (cwOp w)
      w :: firstWords m k (a + 16 * c) (n - c)

def isStepEnd (w : W128) : Bool := decide (cwClass w = 0) && decide (cwOp w = 5)

/-- The STREAMS entry of stream `i`: prologue offset and words, body offset and words; offsets count from the start of the
section (log entry 18). -/
def streamEntry (s : State) (c : Section) (i : Nat) : Nat × Nat × Nat × Nat :=
  let a := c.at_ + 16 * i
  (u32 s a, u32 s (a + 4), u32 s (a + 8), u32 s (a + 12))

/-- A stream's prologue and body lie in the section and keep to R180. -/
def streamOk (s : State) (c : Section) (i : Nat) : Bool :=
  let (po, pw, bo, bw) := streamEntry s c i
  let inside (o n : Nat) : Bool := decide (o + 16 * n ≤ c.len)
  let body := firstWords s.mem bw (c.at_ + bo) bw
  inside po pw && inside bo bw && !(firstWords s.mem pw (c.at_ + po) pw).any isStepEnd &&
  (match body.getLast? with | some w => isStepEnd w | none => false)

/-- A signal-table entry names a logical hamlet of the image, or one of the 256 port-engine counters (R170, R171, R444). -/
def sigOk (nham : Nat) (e : W32) : Bool :=
  if bit e 31 then decide (fld e 15 0 ≤ 255) else decide (fld e 30 24 < nham)

/-- A PARAM item keeps to R656. -/
def paramOk (s : State) (a : Nat) : Bool :=
  zeros s a 8 && zeros s (a + 0x40) 8 &&
  (List.range 14).all (fun i =>
    let e := rd32 s.mem (a + 0x48 + 4 * i)
    decide (fld e 31 24 ≤ 6) && (decide (fld e 31 24 = 1) || decide (fld e 23 0 = 0)))

/-- No two of a list of spans overlap, and all end inside `len`. -/
def apart (len : Nat) : List (Nat × Nat) → Bool
  | [] => true
  | (a, n) :: r =>
    decide (a + n ≤ len) && (decide (n = 0) || r.all (fun x => decide (x.2 = 0) || decide (a + n ≤ x.1) || decide (x.1 + x.2 ≤ a))) &&
    apart len r

/-- The count of a program, with a count outside 1 to 256 standing for none (its UPD command faults, R333). -/
def progCount (s : State) (a : Nat) : Nat := let n := u64 s a; if 1 ≤ n ∧ n ≤ 256 then n else 0

/-- A UPDM section keeps to R657. -/
def updmOk (s : State) (c : Section) : Bool :=
  let a := c.at_
  let np := u32 s a
  let ns := u32 s (a + 4)
  let npair := u32 s (a + 8)
  let so := u64 s (a + 0x10)
  let po := u64 s (a + 0x18)
  let offs := (List.range np).map (fun i => u64 s (a + 0x20 + 8 * i))
  decide (32 ≤ c.len) && decide (1 ≤ np) && decide (np ≤ 65535) && decide (ns ≤ 65535) && decide (c.count = np) &&
  zeros s (a + 12) 4 && decide (so % 128 = 0) && decide (po % 32 = 0) && offs.all (fun o => decide (o % 8 = 0)) &&
  apart c.len ((0, 32 + 8 * np) :: (so, 128 * ns) :: (po, 32 * npair) :: offs.map (fun o => (o, 8 + 8 * progCount s (a + o)))) &&
  (List.range npair).all (fun i =>
    let q := a + po + 32 * i
    zeros s (q + 24) 8 && (List.range 3).all (fun j => decide (u64 s (q + 8 * j) % frameBytes = 0)) && decide (frameBytes ≤ u64 s (q + 16)))

/-- The counters that a chain names lie below 256, and its header keeps to R444. -/
def chainOk (s : State) (a : Nat) : Bool :=
  let nd := u16 s (a + 2)
  decide (u16 s a ≤ 255) && decide (1 ≤ nd) && decide (nd ≤ 64) &&
  (List.range nd).all (fun j =>
    let d := a + 16 + 64 * j
    (decide (u16 s (d + 2) = 0xFFFF) || decide (u16 s (d + 2) ≤ 255)) &&
    (decide (rdNat s.mem (d + 1) 1 / 8 % 2 = 0) || !bit (rd32 s.mem (d + 8)) 31 || decide (u16 s (d + 8) ≤ 255)) &&
    (decide (rdNat s.mem d 1 ≠ 1) || decide (u16 s (d + 0x36) = 0xFFFF) || decide (u16 s (d + 0x36) ≤ 255)))

/-- Types of the section table that the module knows (R179). -/
def knownSection (t : Nat) : Bool := decide (1 ≤ t) && decide (t ≤ 10)

/-- The section table keeps to R180. -/
def sectionsOk (s : State) (base : Nat) : Bool :=
  let n := imgNsect s base
  let size := u64 s (base + 0x18)
  let tys := (List.range n).map (fun i => u16 s (sectAt base i))
  decide (0x100 + 32 * n ≤ size) && decide (tys.Nodup) &&
  (List.range n).all (fun i =>
    let e := sectAt base i
    let off := u64 s (e + 8)
    decide (0x100 + 32 * n ≤ off) && decide (off + u64 s (e + 16) ≤ size) &&
    (knownSection (u16 s e) || decide (u16 s (e + 2) % 2 = 0)))

/-- An optional section of one item a stream has the right count. -/
def perStream (s : State) (base ty n : Nat) : Bool :=
  match section_ s base ty with | some c => decide (c.count = n) | none => true

/-- ROLE, POOL, FLAGS and NHAMLET fit the partition (R180). -/
def imgFits (s : State) (p base : Nat) : Bool :=
  let x := getPart s p
  let role := rdNat s.mem (base + 0xE) 1
  let pool := rdNat s.mem (base + 0xF) 1
  decide (role = if x.learner then 1 else 0) && decide (pool = if x.learner then 0xFF else x.pool) &&
  (decide (u32 s (base + 0x14) % 2 = 0) || x.exclusive) && decide (u16 s (base + 0xC) = x.hams.length)

/-- The module accepts the image at a module offset for a partition (R180). -/
def imageOk (s : State) (p base : Nat) : Bool :=
  let size := u64 s (base + 0x18)
  let nham := u16 s (base + 0xC)
  let n := nham * 16
  decide (u32 s base = 0x47494D53) && decide (u16 s (base + 4) = 1) &&
  decide (u32 s (base + 8) = (reg s (pMod + Off.modDcl)).toNat) &&
  imgFits s p base && sectionsOk s base &&
  decide (sha384 (rdBytes s.mem (base + 0x100) (size - 0x100)) = rdBytes s.mem (base + 0x20) 48) &&
  (match section_ s base 1, section_ s base 2 with
   | some c, some g =>
     decide (c.count = n) && decide (16 * n ≤ c.len) && (List.range n).all (streamOk s c) &&
     decide (g.count = n) && decide (256 * n ≤ g.len) &&
     (List.range (64 * n)).all (fun i => sigOk nham (rd32 s.mem (g.at_ + 4 * i)))
   | _, _ => false) &&
  perStream s base 8 n && perStream s base 9 n &&
  (match section_ s base 9 with
   | some c => decide (128 * n ≤ c.len) && (List.range n).all (fun i => paramOk s (c.at_ + 128 * i))
   | none => true) &&
  (match section_ s base 6 with | some c => updmOk s c | none => true) &&
  (match section_ s base 4 with
   | some c => decide (c.count ≤ 4096) && (List.range c.count).all (fun i => chainOk s (chainFrom s.mem c.at_ i))
   | none => true)

/-- The image lies wholly in near-tier memory whose pseudo-channels the partition owns (R497). -/
def imgInside (s : State) (p base : Nat) : Bool :=
  let size := u64 s (base + 0x18)
  decide (base + size ≤ nearEnd) && decide (0 < size) &&
  (List.range (((base + size - 1) / pcBytes + 1) - base / pcBytes)).all (fun i => decide (pcOwner s (base / pcBytes + i) = some p))

/-! ### Resident data (R181, log entry 18) -/

/-- An item of the RES section, 32 bytes: tensor ID (4), logical hamlet (1), logical tile (1), zero (2), scratchpad address
(8), source address (8), length (8). -/
structure ResItem where
  tensor : Nat
  lham : Nat
  tile : Nat
  spad : Nat
  src : Nat
  len : Nat
deriving DecidableEq, Repr

def resItems (s : State) (base : Nat) : List ResItem :=
  match section_ s base 10 with
  | none => []
  | some c => (List.range c.count).map (fun i =>
      let a := c.at_ + 32 * i
      ⟨u32 s a, rdNat s.mem (a + 4) 1, rdNat s.mem (a + 5) 1, u64 s (a + 8), u64 s (a + 16), u64 s (a + 24)⟩)

/-- RES bytes of logical hamlet `l` that a hamlet holds already, on any tile. -/
def hamScore (s : State) (items : List ResItem) (l h : Nat) : Nat :=
  ((items.filter (fun i => decide (i.lham = l) && (getHam s h).resid.any (fun r => decide (r.2.1 = i.tensor)))).map (·.len)).foldl (· + ·) 0

/-- RES bytes of logical tile `t` of logical hamlet `l` that a physical tile holds already. -/
def tileScore (s : State) (items : List ResItem) (l h t q : Nat) : Nat :=
  ((items.filter (fun i => decide (i.lham = l) && decide (i.tile = t) &&
    (getHam s h).resid.any (fun r => decide (r.1 = q) && decide (r.2.1 = i.tensor)))).map (·.len)).foldl (· + ·) 0

/-- The assignment of the things `ls`, in order, to distinct places of `ps` that has the highest total score; among equal
ones the first thing on the earliest place, then the second, and so on. -/
def bestAssign (score : Nat → Nat → Nat) : List Nat → List Nat → Nat × List Nat
  | [], _ => (0, [])
  | l :: ls, ps =>
    (ps.map (fun p => let r := bestAssign score ls (ps.filter (· ≠ p)); (score l p + r.1, p :: r.2))).foldl
      (fun b c => if b.2.isEmpty || b.1 < c.1 then c else b) (0, [])

/-- As `bestAssign`; with nothing resident the first places are taken in order. -/
def assign (score : Nat → Nat → Nat) (ls ps : List Nat) : List Nat :=
  if ls.all (fun l => ps.all (fun p => decide (score l p = 0))) then ps.take ls.length else (bestAssign score ls ps).2

/-! ### Placement (R181 to R183) -/

/-- A physical tile can run a stream: not RETIRED and not in FAULT. -/
def tileWorks (s : State) (h q : Nat) : Bool :=
  decide (tileSt s h q ≠ 2) && decide (fld (reg s (tilPg h q + Off.pageStat)) 2 0 ≠ 4)

/-- The working tiles that placement may use, the spare apart. -/
def placeTiles (s : State) (h : Nat) : List Nat :=
  (List.range 17).filter (fun q => decide (q ≠ regF s (hamPgOf h + Off.hamFold) 12 8) && tileWorks s h q)

/-- TIL.MAP of every physical tile follows the tile map (R144, its field table). -/
def refreshMaps (s : State) (h : Nat) : State :=
  (List.range 17).foldl (fun s q =>
    let on := (List.range 16).filter (fun l => bit (tmap s h l) 31 && decide (physOf s h l = q))
    let first := on.filter (fun l => !isSecond s h l)
    let second := on.filter (isSecond s h)
    let v := match first, second with
      | a :: _, b :: _ => 2 ^ 31 + 2 ^ 30 + a * 2 ^ 26 + b * 2 ^ 22
      | a :: _, [] => 2 ^ 31 + a * 2 ^ 26
      | [], b :: _ => 2 ^ 31 + b * 2 ^ 26
      | [], [] => 0
    setReg s (tilPg h q + Off.tilMap) (w32 v)) s

/-- A way of the partition's set that no fold uses yet, the highest (R185, log entry 18). -/
def foldWay (s : State) (h : Nat) : Option Nat :=
  (((List.range 32).filter (fun w => bit (reg s (hstPg h + Off.hstWays)) w && !bit (reg s (hstPg h + Off.hstFoldw)) w)).getLast?)

/-- One fold more of a hamlet (R185, R584). -/
def addFold (s : State) (h : Nat) (tile : Bool) : State :=
  let a := hamPgOf h + Off.hamFold
  let s := setRegF s a 3 0 (regF s a 3 0 + 1)
  let s := if tile then setRegF s a 7 4 (regF s a 7 4 + 1) else s
  intBit s (hamPgOf h) 1

/-- A logical tile folded onto a physical tile that runs another, behind a way of the hamlet store (R185). -/
def foldTile (s : State) (h l q : Nat) : State :=
  match foldWay s h with
  | none => s
  | some w =>
    let s := (List.range 16).foldl (fun s m =>
      if bit (tmap s h m) 31 ∧ physOf s h m = q ∧ m ≠ l then setReg s (hamPgOf h + Off.hamTmap + 4 * m) (setBit (tmap s h m) 30 true) else s) s
    let s := setReg s (hamPgOf h + Off.hamTmap + 4 * l) (w32 (2 ^ 31 + 2 ^ 30 + 2 ^ 29 + w * 2 ^ 8 + q))
    let s := setReg s (hstPg h + Off.hstFoldw) (setBit (reg s (hstPg h + Off.hstFoldw)) w true)
    addFold s h true

/-- The tile that a fold uses: the lowest working one that runs one logical tile (log entry 18). -/
def foldOnto (s : State) (h : Nat) : Option Nat :=
  (List.range 17).find? (fun q => tileWorks s h q &&
    decide (((List.range 16).filter (fun l => bit (tmap s h l) 31 && decide (physOf s h l = q))).length = 1))

/-- The record of a tile-map change: a remap, or a fold of the logical tile (R186, R584). -/
def mapRecord (s : State) (h t : Nat) (fold : Bool) : State :=
  bbr s { cat := 3, code := 2, cause := if fold then 1 else 0, loc := hamPgOf h, arg0 := t, arg1 := tileNo h (physOf s h t) }

/-- No logical tile of a hamlet is mapped any more: its tile folds end, and a spare that ran one and works is free again
(R182, R185). -/
def unplaceHamlet (s : State) (h : Nat) : State :=
  let fold := hamPgOf h + Off.hamFold
  let sp := regF s fold 12 8
  let ran := (List.range 16).any (fun t => bit (tmap s h t) 31 && decide (physOf s h t = sp))
  let s := (List.range 16).foldl (fun s t => setReg s (hamPgOf h + Off.hamTmap + 4 * t) 0) s
  let s := setReg s (hstPg h + Off.hstFoldw) 0
  let s := setRegF (setRegF s fold 3 0 (regF s fold 3 0 - regF s fold 7 4)) fold 7 4 0
  let s := if ran && tileWorks s h sp then setRegF s fold 31 31 1 else s
  setHam s h { getHam s h with testBack := [] }

/-- The logical tiles of logical hamlet `l` onto the tiles of a hamlet (R182, R185); every logical tile whose map changes is
recorded. -/
def placeHamlet (s : State) (items : List ResItem) (l h : Nat) : State :=
  let fold := hamPgOf h + Off.hamFold
  let was := (List.range 16).map (tmap s h)
  let s := unplaceHamlet s h
  let own := placeTiles s h
  let sp := regF s fold 12 8
  let spare := if bit (reg s fold) 31 && tileWorks s h sp && decide (own.length < 16) then [sp] else []
  let tiles := own ++ spare
  let s := if spare.isEmpty then s else setRegF s fold 31 31 0
  let picks := assign (fun t q => tileScore s items l h t q) (List.range (min 16 tiles.length)) tiles
  let s := ((List.range 16).zip picks).foldl (fun s x => setReg s (hamPgOf h + Off.hamTmap + 4 * x.1) (w32 (2 ^ 31 + x.2))) s
  let s := ((List.range 16).filter (fun t => picks.length ≤ t)).foldl
    (fun s t => match foldOnto s h with | some q => foldTile s h t q | none => s) s
  let s := ((List.range 16).zip was).foldl (fun s x => if tmap s h x.1 = x.2 then s else mapRecord s h x.1 (isSecond s h x.1)) s
  let s := setReg s (hamPgOf h + Off.hamPlace) (w32 (2 ^ 31 + l))
  let s := setHam s h { getHam s h with lham := l }
  intBit (refreshMaps s h) (hamPgOf h) 0

/-- The bounds table of a tile page loaded from the image for a logical tile: 64 entries of 12 bytes, KEY, LO and HI
(R145, R180; log entry 18). -/
def loadBounds (s : State) (base l h t : Nat) : State :=
  let p := tilPg h (physOf s h t)
  let at_ := (section_ s base 8).map (fun c => c.at_ + 768 * (l * 16 + t))
  (List.range 64).foldl (fun s i =>
    match at_ with
    | none =>
      setRegAt (setRegAt (setRegAt s (p + Off.tilBndKey) i (resetOf (p + Off.tilBndKey))) (p + Off.tilBndLo) i
        (resetOf (p + Off.tilBndLo))) (p + Off.tilBndHi) i (resetOf (p + Off.tilBndHi))
    | some a =>
      setRegAt (setRegAt (setRegAt s (p + Off.tilBndKey) i (rd32 s.mem (a + 12 * i))) (p + Off.tilBndLo) i
        (rd32 s.mem (a + 12 * i + 4))) (p + Off.tilBndHi) i (rd32 s.mem (a + 12 * i + 8))) s

/-- The RES data of a logical tile copied into its scratchpad (R181, R184). -/
def loadRes (s : State) (p base l h t : Nat) : State :=
  ((resItems s base).filter (fun i => decide (i.lham = l) && decide (i.tile = t))).foldl (fun s i =>
    let k := ctxKey s h t
    let x := getTile s k
    let s := setTile s k { x with spad := wrBytes x.spad (i.spad % 2 ^ 18) (spanRead s p h i.src i.len) }
    let y := getHam s h
    setHam s h { y with resid := y.resid.filter (fun r => !(decide (r.1 = physOf s h t) && decide (r.2.1 = i.tensor))) ++
      [(physOf s h t, i.tensor, i.len)] }) s

/-- The stream of a logical tile as its image gives it: counters 0, parameters at INIT, the signal table, the prologue next
(R166, R170, R183, R656). -/
def loadStream (s : State) (base l h t : Nat) : State :=
  match section_ s base 1, section_ s base 2 with
  | some c, some g =>
    let i := l * 16 + t
    let (po, pw, bo, bw) := streamEntry s c i
    let par (o : Nat) : Store W32 := match section_ s base 9 with
      | some q => (List.range 14).foldl (fun m k => putDef m (k + 2) (rd32 s.mem (q.at_ + 128 * i + o + 4 * k)) 0) []
      | none => []
    setStr s h t { Stream.init with
      phase := if pw = 0 then .ended else .prologue, proAt := c.at_ + po, proLen := pw, bodyAt := c.at_ + bo, bodyLen := bw,
      params := par 0x08, maps := par 0x48,
      sigtab := (List.range 64).foldl (fun m k => putDef m k (rd32 s.mem (g.at_ + 256 * i + 4 * k)) 0) [] }
  | _, _ => s

/-- The image at an index placed onto the partition's hamlets; its prologues run next (R181 to R183). -/
def placeImage (s : State) (p idx : Nat) : State :=
  match getS (getPart s p).images idx with
  | none => s
  | some im =>
    let items := resItems s im.base
    let hams := (getPart s p).hams
    let ls := List.range hams.length
    let picks := assign (hamScore s items) ls hams
    let s := (ls.zip picks).foldl (fun s x => placeHamlet s items x.1 x.2) s
    let s := (ls.zip picks).foldl (fun s x => (List.range 16).foldl (fun s t =>
      let s := loadStream s im.base x.1 x.2 t
      let s := if isSecond s x.2 t then s else loadBounds s im.base x.1 x.2 t
      loadRes s p im.base x.1 x.2 t) s) s
    let s := hams.foldl (fun s h => setHam s h { getHam s h with bound := false }) s
    let x := getPart s p
    setPart s p { x with
      resident := some idx, placing := true, step := 0, again := false, cause := none, pctr := [], pctr0 := [], firings := [],
      fired := [], chainOff := [], arrived := [] }

end Sys2Proof.Machine
end

