-- ==== Sys2Proof/Machine/Ladder.lean ====
section
/-! DEFINITION. The failure-cost ladder: remaps, folds, half units, reeve partnering and retirement (R184, R185, R526, R555,
R556). -/

namespace Sys2Proof.Machine

/-! ### Retirement (R556) -/

/-- RAS.STAT.SWAP set. -/
def swapSet (s : State) : State :=
  if bit (reg s (pRas + Off.rasStat)) 31 then s else intBit (setRegF s (pRas + Off.rasStat) 31 31 1) pRas 3

/-- A hamlet retires: its streams stop, SWAP is set, and no step is released any more in the partition that owns it. `cls` is
the class of the unit that failed. -/
def hamRetire (s : State) (h cls : Nat) : State :=
  if (getHam s h).retired then s
  else
    let s := (List.range 16).foldl (fun s t => setStr s h t { getStr s h t with phase := .stopped }) s
    let s := setHam s h { getHam s h with retired := true }
    let s := intBit s (diePg (h / 32) 0) 0
    swapSet (bbr s { cat := 3, code := 3, cause := 3, loc := hamPgOf h, arg0 := cls, arg1 := 0 })

/-- A step of the ladder that costs a fold: a fifth one retires the hamlet (R185, R555). -/
def foldOr (s : State) (h cls : Nat) (f : State → State) : State :=
  if 4 ≤ regF s (hamPgOf h + Off.hamFold) 3 0 then hamRetire s h cls else f s

/-! ### Tiles (R184, R185) -/

/-- A logical tile's bounds and resident data loaded where it now runs (R184). -/
def reloadTile (s : State) (h t : Nat) : State :=
  match (getHam s h).part with
  | none => s
  | some p =>
    match resBase s p with
    | none => s
    | some b =>
      let l := (getHam s h).lham
      let s := if isSecond s h t then s else loadBounds s b l h t
      loadRes s p b l h t

/-- A logical tile moved to another physical tile, its place in a folded pair kept. -/
def moveTile (s : State) (h t q : Nat) : State :=
  let s := setReg s (hamPgOf h + Off.hamTmap + 4 * t) (setFld (tmap s h t) 4 0 q)
  mapRecord (reloadTile s h t) h t false

/-- The spare of a hamlet, where it is free and works. -/
def freeSpare (s : State) (h : Nat) : Option Nat :=
  let f := reg s (hamPgOf h + Off.hamFold)
  if bit f 31 && tileWorks s h (fld f 12 8) then some (fld f 12 8) else none

/-- One logical tile of a failed tile folded onto a working one; the second of a pair keeps the way that backs it. With no
working tile or no way left for the fold the hamlet retires (R185, log entry 18). -/
def foldAway (h t : Nat) (s : State) : State :=
  match foldOnto s h with
  | none => hamRetire s h 0x40
  | some q =>
    if isSecond s h t then
      let s := (List.range 16).foldl (fun s m =>
        if bit (tmap s h m) 31 ∧ physOf s h m = q then setReg s (hamPgOf h + Off.hamTmap + 4 * m) (setBit (tmap s h m) 30 true) else s) s
      moveTile s h t q
    else if (foldWay s h).isNone then hamRetire s h 0x40
    else foldOr s h 0x40 (fun s => mapRecord (reloadTile (foldTile s h t q) h t) h t true)

/-- The logical tiles of a failed physical tile move: to the hamlet's spare, or without one by folds (R184, R185). -/
def remapOff (s : State) (h q : Nat) : State :=
  let ls := (List.range 16).filter (fun l => bit (tmap s h l) 31 && decide (physOf s h l = q))
  if ls.isEmpty || (getHam s h).retired then s
  else
    let s := match freeSpare s h with
      | some sp => ls.foldl (fun s t => moveTile s h t sp) (setRegF s (hamPgOf h + Off.hamFold) 31 31 0)
      | none => ls.foldl (fun s t => foldAway h t s) s
    intBit (refreshMaps s h) (hamPgOf h) 0

/-- At a step boundary of a hamlet: every logical tile leaves a physical tile that is in FAULT or RETIRED (R184). -/
def hamRemaps (s : State) (h : Nat) : State :=
  ((List.range 17).filter (fun q => !tileWorks s h q)).foldl (fun s q => remapOff s h q) s

/-- At a later boundary the logical tiles of a tile that was freed for its test come back, where it still works (R561). -/
def testUndo (s : State) (h : Nat) : State :=
  let back := (getHam s h).testBack
  if back.isEmpty then s
  else
    let s := setHam s h { getHam s h with testBack := [] }
    let sp := regF s (hamPgOf h + Off.hamFold) 12 8
    let go := back.filter (fun x => tileWorks s h x.2 && bit (tmap s h x.1) 31 && decide (physOf s h x.1 = sp))
    if go.isEmpty then s
    else
      let s := go.foldl (fun s x => moveTile s h x.1 x.2) (setRegF s (hamPgOf h + Off.hamFold) 31 31 1)
      intBit (refreshMaps s h) (hamPgOf h) 0

/-! ### Units (R555) -/

/-- A unit in two halves loses one: it runs on the other, at the cost of a fold; with neither the hamlet retires. -/
def halfFail (s : State) (h : Nat) (u : SharedUnit) : State :=
  let x := getHam s h
  let k := u.code
  if x.halves.contains k then hamRetire s h u.cls
  else foldOr s h u.cls (fun s =>
    let s := addFold (setHam s h { getHam s h with halves := (getHam s h).halves ++ [k] }) h false
    bbr s { cat := 3, code := 3, cause := 1, loc := hamPgOf h, arg0 := u.cls, arg1 := 0 })

/-- A reeve fails: the partner hamlet's reeve runs both, at the cost of a fold. -/
def reeveFail (s : State) (h : Nat) : State :=
  let b := if h % 2 = 0 then h + 1 else h - 1
  if (getHam s h).reeveOut || (getHam s b).reeveOut || (getHam s b).retired || !hamletOn s b then hamRetire s h 0x41
  else foldOr s h 0x41 (fun s =>
    let s := intBit (addFold (setHam s h { getHam s h with reeveOut := true }) h false) (hamPgOf h) 3
    bbr s { cat := 3, code := 3, cause := 2, loc := hamPgOf h, arg0 := 0x41, arg1 := b })

/-- A failed unit contained. -/
def contain (s : State) (f : FailedUnit) : State :=
  match f.u with
  | .reeve => reeveFail s f.hamlet
  | u => halfFail s f.hamlet u

end Sys2Proof.Machine
end

