-- ==== Sys2Proof/Machine/Switch.lean ====
section
/-! DEFINITION. Image switches of a shared generator (R306 to R309, R498), spill slots, and the reload of a partition's
hamlets (R503, R552, R658). -/

namespace Sys2Proof.Machine

/-! ### Hamlets emptied (R503, R658) -/

/-- The streams of a partition stop. -/
def stopStreams (s : State) (p : Nat) : State :=
  (partStreams s p).foldl (fun s ht => setStr s ht.1 ht.2 { getStr s ht.1 ht.2 with phase := .stopped, inflight := [] }) s

/-- The units of a hamlet are idle and their queues empty. -/
def unitsClear (s : State) (h : Nat) : State :=
  let s := setHam s h { getHam s h with
    cartQ := [], cart := none, atsQ := [], ats := none, updQ := [], upd := none, borrow := [], cartOff := false, atsOff := false,
    updOff := false, spill := 0 }
  let s := setReg (setReg s (crtPg h + Off.crtStat) (resetOf (crtPg h + Off.crtStat))) (crtPg h + Off.crtCurList) (resetOf (crtPg h + Off.crtCurList))
  let s := setReg (setReg s (atsPg h + Off.atsJobStat) (resetOf (atsPg h + Off.atsJobStat))) (atsPg h + Off.atsCurJob) (resetOf (atsPg h + Off.atsCurJob))
  setReg s (updPg h + Off.updStat) (resetOf (updPg h + Off.updStat))

/-- The ways of a hamlet that its partition uses are zero: scratch ways and those that back a folded tile; a cache way holds
no line (R398). -/
def waysClear (s : State) (h : Nat) : State :=
  let x := getHam s h
  let store := (bitsSet (reg s (hstPg h + Off.hstWays)) 32).foldl (fun m w => clearRange m (262144 * w) 262144) x.store
  setHam s h { x with store := store, resid := [] }

/-- The scratchpads of a hamlet's tiles are zero, those of folded tiles too. -/
def spadsClear (s : State) (h : Nat) : State :=
  (List.range 64).foldl (fun s k => setTile s (h * 64 + k) { getTile s (h * 64 + k) with spad := [] }) s

/-- The sync counters of a hamlet's streams are 0. -/
def syncClear (s : State) (h : Nat) : State :=
  (List.range 16).foldl (fun s t => setStr s h t { getStr s h t with sync := [], srcs := [] }) s

/-- The answers that the carts of a partition's hamlets wait for are dropped. -/
def cartsForget (s : State) (p : Nat) : State :=
  let own (o : Owner) : Bool := match o with | .cart h => (getPart s p).hams.contains h | _ => false
  { s with fab := { s.fab with wants := s.fab.wants.filter (fun w => !own w.owner), unacked := s.fab.unacked.filter (fun u => !own u.owner) } }

/-- Scratchpads, ways, sync counters and port-engine counters are zero and the queues empty (R503). -/
def partClear (s : State) (p : Nat) : State :=
  let s := cartsForget (stopStreams s p) p
  let s := (getPart s p).hams.foldl (fun s h => syncClear (spadsClear (waysClear (unitsClear s h) h) h) h) s
  penClear s p

/-! ### Spills (R308, R309) -/

/-- A live state as a spill slot holds it. -/
def spillOf (s : State) (p img : Nat) : Spill :=
  let x := getPart s p
  let ways (h : Nat) : Memory :=
    let ws := scratchWays s h
    (getHam s h).store.filter (fun e => ws.any (fun w => decide (262144 * w ≤ e.1) && decide (e.1 < 262144 * (w + 1))))
  let lt := x.hams.flatMap (fun h => (List.range 16).map (fun t => (h, t, (getHam s h).lham * 16 + t)))
  { img := img, step := x.step, lhams := x.hams.map (fun h => (h, (getHam s h).lham)),
    streams := lt.map (fun y => (y.2.2, getStr s y.1 y.2.1)), spads := lt.map (fun y => (y.2.2, (getTile s (ctxKey s y.1 y.2.1)).spad)),
    stores := x.hams.map (fun h => ((getHam s h).lham, ways h)), pctr := x.pctr, firings := x.firings, fired := x.fired,
    chainOff := x.chainOff, arrived := x.arrived }

/-- The lowest free spill slot. -/
def freeSpill (x : Part) : Option Nat := (List.range x.spillSlots).find? (fun i => (getS x.spills i).isNone)

/-- The spill slot of an image. -/
def spillSlotOf (x : Part) (img : Nat) : Option (Nat × Spill) := x.spills.find? (fun e => decide (e.2.img = img))

/-- The carts of a partition's hamlets start to spill (1) or restore (2). -/
def spillStart (s : State) (p k : Nat) : State := (getPart s p).hams.foldl (fun s h => setHam s h { getHam s h with spill := k }) s

/-- The incoming image: its restore begins when it holds a spill slot, else it is placed and its prologues run (R309). -/
def switchIn (s : State) (p : Nat) : State :=
  let x := getPart s p
  match x.switchTo with
  | none => s
  | some n =>
    if (spillSlotOf x n).isSome then spillStart s p 2
    else placeImage (setPart (stopStreams s p) p { x with switchTo := none }) p n

/-- The module switches to another image: the outgoing one spills where a slot is free, else it is dropped (R306, R308). -/
def switchTo (s : State) (p n : Nat) : State :=
  let x := getPart s p
  let s := setPart s p { x with switchTo := some n }
  match x.resident with
  | none => switchIn s p
  | some _ =>
    let s := intBit (bumpAt s (pOrc + Off.orcPSwitch) p 1) pOrc 2
    if (freeSpill x).isSome then spillStart s p 1 else switchIn s p

/-- Every hamlet of the partition spills or restores. -/
def allSpill (s : State) (p k : Nat) : Bool :=
  let x := getPart s p
  !x.hams.isEmpty && x.hams.all (fun h => decide ((getHam s h).spill = k))

/-- A cart has moved its hamlet's live state: the scratchpads and the scratch ways, and an open number of bytes for the streams
(R308; log entry 31). CRT.BYTES and CRT.SPILLS count it, and bit `k` of the interrupt is set. -/
def spillMoved (s : State) (h k : Nat) : State :=
  let n := 262144 * (((List.range 16).filter (fun t => bit (tmap s h t) 31)).length + (scratchWays s h).length) +
    (Config.freeWord s.freeCtr).toNat % 262144
  let s := cartBytes { setHam s h { getHam s h with spill := 0 } with freeCtr := s.freeCtr + 1 } h n
  intBit (bump s (crtPg h + Off.crtSpills) 1) (crtPg h) k

/-- Every cart has written its hamlet's live state: the slot is taken, and the incoming image follows (R308). -/
def spillDone (s : State) (p : Nat) : State :=
  let x := getPart s p
  match freeSpill x, x.resident with
  | some i, some img =>
    if !allSpill s p 1 || x.switchTo.isNone then s
    else
      let s := setPart s p { x with spills := putS x.spills i (spillOf s p img) }
      let s := x.hams.foldl (spillMoved · · 1) s
      switchIn s p
  | _, _ => s

def execSpillComplete (part : Nat) (s : State) : Res := checked (.spillComplete part) (hrNotify s (spillDone s part))

/-- The bounds of a hamlet's tiles loaded from an image (R145). -/
def boundsAgain (s : State) (base l h : Nat) : State :=
  (List.range 16).foldl (fun s t => if isSecond s h t then s else loadBounds s base l h t) s

/-- One hamlet's live state back in its place: the tile map is made anew for the tiles that work now, and every logical tile
gets its stream and scratchpad (R309; log entry 31). -/
def restoreHam (s : State) (base : Nat) (y : Spill) (hl : Nat × Nat) : State :=
  let h := hl.1
  let l := hl.2
  let s := boundsAgain (placeHamlet s (resItems s base) l h) base l h
  let s := (List.range 16).foldl (fun s t =>
    let k := ctxKey s h t
    let s := if bit (tmap s h t) 31 then setTile s k { getTile s k with spad := getD y.spads (l * 16 + t) [] } else s
    setStr s h t (getD y.streams (l * 16 + t) Stream.init)) s
  let ws := scratchWays s h
  let store := ws.foldl (fun m w => clearRange m (262144 * w) 262144) (getHam s h).store
  let back := (getD y.stores l []).foldl (fun m e => wrB m e.1 e.2) store
  setHam s h { getHam s h with
    store := back, spill := 0, bound := true,
    resid := ((resItems s base).filter (fun i => decide (i.lham = l))).map (fun i => (physOf s h i.tile, i.tensor, i.len)) }

/-- Step number and chains of an image as it left them. -/
def chainsBack (x : Part) (y : Spill) : Part :=
  let x := { x with step := y.step, relPar := [], again := false }
  { x with pctr := y.pctr, firings := y.firings, fired := y.fired, chainOff := y.chainOff, arrived := y.arrived }

/-- Every cart has read its hamlet's live state back: the slot is free, and the image goes on with its next step (R309). -/
def restoreDone (s : State) (p : Nat) : State :=
  let x := getPart s p
  match x.switchTo with
  | none => s
  | some n =>
    match spillSlotOf x n, getS x.images n with
    | some (i, y), some im =>
      if !allSpill s p 2 then s
      else
        let s := y.lhams.foldl (restoreHam · im.base y) s
        let s := x.hams.foldl (spillMoved · · 2) s
        setPart s p (chainsBack { getPart s p with switchTo := none, resident := some n, spills := delS x.spills i } y)
    | _, _ => s

/-- A hamlet's SHARED partition switches images at a boundary by R306; with none resident the first image chosen is placed. -/
def imageDecide (s : State) (p : Nat) : State :=
  let x := getPart s p
  if x.learner || x.exclusive || x.placing || x.inStep || decide (x.st ≠ .running) || x.switchTo.isSome || decide (x.cmd = 2) then s
  else
    let prios := (ranked s p).map (fun i => let r := getReq s i; (imgOf s r.func, r.prio))
    match prios with
    | [] => s
    | (n, q) :: _ =>
      match x.resident with
      | none => switchTo s p n
      | some i =>
        if n ≠ i ∧ prios.all (fun y => decide (y.1 ≠ i) || decide (y.2 < q)) = true then switchTo s p n else s

/-! ### Placement ends and reloads -/

/-- The resident image unregistered. -/
def noImage (x : Part) : Part :=
  { x with
    images := (match x.resident with | some i => delS x.images i | none => x.images), resident := none, placing := false,
    cause := none, relPar := [] }

/-- A partition's placement ends (R658): its hamlets stop and are zeroed, the image is unregistered, and the LOAD_IMAGE of a single
image completes with RESULT 9, as does a RESET (log entry 33). -/
def placementEnd (s : State) (p : Nat) : State :=
  let x := getPart s p
  let c := x.cause.getD ⟨8, 0, 0, 0, 0xFFFF, 0⟩
  let s := partClear s p
  let s := x.hams.foldl (fun s h => setReg s (hamPgOf h + Off.hamPlace) 0) s
  let s := bbr s { cat := 3, code := 1, cause := c.code, loc := c.loc, step := 0, part := p, layer := c.layer, op := c.op, arg0 := c.arg0, arg1 := c.arg1 }
  let s := setPart s p (noImage (getPart s p))
  let s := x.hams.foldl (fun s h => setHam s h { getHam s h with bound := true }) s
  let multi := !x.learner && !x.exclusive
  let st := if multi then PState.running else PState.created
  let s := setPart s p { getPart s p with st := st, cmd := if x.cmd = 3 ∨ x.cmd = 4 then 0 else x.cmd }
  let s := if x.cmd = 3 ∨ x.cmd = 4 then intBit (setReg s (prtPg p + Off.prtCmdStat) 9) (prtPg p) 0 else s
  if x.cmd = 3 then s else intBit s (prtPg p) 2

/-- The state of a partition reloaded as R503 lays down: hamlets zeroed, spill slots freed, the resident image placed again. The
step number and what the next release needs are kept (R552). -/
def reload (s : State) (p : Nat) : State :=
  let x := getPart s p
  let s := setPart (partClear s p) p { getPart (partClear s p) p with spills := [], switchTo := none, cause := none }
  match x.resident with
  | none => s
  | some i => placeImage s p i

end Sys2Proof.Machine
end

