-- ==== Sys2Proof/Machine/Boundary.lean ====
section
/-! DEFINITION. Step boundaries: of a hamlet (R175), of a generator partition (R277, R281 to R298, R306), of a learner partition
(R336 to R342, R349 to R352, R593, R599), the end of a placement (R183) and of a faulted step (R549 to R552). -/

namespace Sys2Proof.Machine

/-! ### The passes of a generator's boundary -/

/-- Requests that name a queue pair in error become FAULTED (R296). -/
def qpErrPass (s : State) (p : Nat) : State :=
  let qs := (getPart s p).qpErr
  let s := setPart s p { getPart s p with qpErr := [] }
  ((slotsOf s p).filter (fun i =>
    let r := getReq s i
    qs.any (fun q => decide (r.envQp = 32768 + q)) &&
    (decide (r.st = stQueued) || decide (r.st = stPaused) || decide (r.st = stParked) || decide (r.st = stExpired)))).foldl (fun s i =>
      let s := endReq s i stFaulted 0x11
      grnReq s (getReq s i) [endRec i (getReq s i)]) s

/-- Requests of a function under FLR are freed (R502). -/
def flrPass (s : State) (p : Nat) : State :=
  ((slotsOf s p).filter (fun i =>
    let r := getReq s i
    r.mute && !inFlightReq r && !(decide (r.st = stShipped) && r.accepted.isSome))).foldl freeReq s

/-- The waiting commands and messages of the partition applied in order, until one must be deferred for the granary (R277,
R298); those of no partition are applied with them. `kept` holds those that stay, the newest first. -/
def hubGo (p : Nat) : List HubItem → State → List HubItem → Bool → State × Bool
  | [], s, kept, d => ({ s with hub := kept.reverse }, d)
  | i :: r, s, kept, d =>
    match itemPart s i with
    | none => hubGo p r ((applyItem s i).getD s) kept d
    | some q =>
      if q ≠ p then hubGo p r s (i :: kept) d
      else if d || grnShort s p then hubGo p r s (i :: kept) true
      else match applyItem s i with
        | some s => hubGo p r s kept d
        | none => hubGo p r s (i :: kept) true

/-- The hub's pass at a boundary; the second part says that something was deferred. -/
def hubPass (s : State) (p : Nat) : State × Bool := hubGo p s.hub s [] false

/-- Requests that were PAUSED before this boundary and have been so for ORC.PARK_AFTER ms park (R299). -/
def parkPass (s : State) (p : Nat) (paused : List Nat) : State :=
  let k := (reg s (pOrc + Off.orcParkAfter)).toNat
  if k = 0xFFFFFFFF then s
  else (paused.filter (fun i =>
    let r := getReq s i
    decide (r.st = stPaused) && decide (r.part = p) && decide (r.pausedAt + k * 1000000 ≤ s.time))).foldl parkReq s

/-- The granary hold of the boundary, counted once with any deferral (R298). -/
def holdPass (s : State) (p : Nat) (deferred : Bool) : State :=
  let x := getPart s p
  let held := grnShort s p
  let s := if held || deferred then bumpAt s (pOrc + Off.orcPHold) p 1 else s
  let s := setPart s p { x with grnHeld := held }
  if held && !x.grnHeld then intBit s pOrc 0 else s

/-- A live switch reaches the hamlets of the partition: they change to the new reeve firmware, or back (R544, R545). -/
def livePass (s : State) (p : Nat) : State :=
  match s.live with
  | none => s
  | some l =>
    let hams := (getPart s p).hams
    if l.back then
      let c := l.changed.filter (fun h => !hams.contains h)
      if c.isEmpty then setRegF { s with live := none } (pBoot + Off.bootStat) 21 21 0 else { s with live := some { l with changed := c } }
    else { s with live := some { l with changed := hams.foldl insN l.changed } }

/-- The request-table window shows the partition's entries as of this boundary (R275). -/
def winPass (s : State) (p : Nat) : State :=
  let old := s.reqWin.filter (fun e => decide (e.2.part ≠ p))
  { s with reqWin := (slotsOf s p).foldl (fun m i => putDef m i (getReq s i) Req.free) old }

/-- The image and the batch of the next step (R282, R306); none while the granary holds the release (R298). -/
def formNext (s : State) (p : Nat) : State :=
  let s := imageDecide s p
  let x := getPart s p
  if x.learner || x.grnHeld || x.placing || x.inStep || x.resident.isNone || x.switchTo.isSome || decide (x.st = .resetting) || decide (x.cmd = 2)
  then s else formBatch s p

/-! ### The learner (R336 to R342, R349 to R352) -/

/-- Bits [3:0] of the group word of a hamlet, where it can be read (R338, R339). -/
def groupWord (s : State) (p h : Nat) : Option Nat :=
  let a := (getHam s h).updVote + 4
  if (spanLocal s p h a 4 false).isSome then none else some (ofBytes (spanRead s p h a 4) % 16)

/-- How a learner step ends at each of its hamlets: STATUS of the step's norms entries, UPD.OUTCOME and OUT_STEP, and the
interrupt. RESULT is 0 committed, 1 skipped, 2 faulted or hung, 3 discarded. -/
def outcome (s : State) (p res : Nat) : State :=
  let x := getPart s p
  x.hams.foldl (fun s h =>
    let y := getHam s h
    let status := if res = 0 then 1 else if res = 1 then 2 else 3
    let s := y.norms.foldl (fun s a => spanWrite s p h (a + 2) (bytesOf 1 status)) s
    let g := (groupWord s p h).getD 0
    let s := setReg s (updPg h + Off.updOutcome) (w32 (2 ^ 31 + res * 2 ^ 28 + (if 2 ≤ res then 0 else g) * 2 ^ 16 + y.vote * 2 ^ 12))
    let s := setPair s (updPg h + Off.updOutStepLo) x.step
    if res = 0 then intBit (bump s (updPg h + Off.updCommits) 1) (updPg h) 2
    else if res = 1 then intBit (bump s (updPg h + Off.updSkips) 1) (updPg h) 1
    else s) s

/-- Two map entries with their backings exchanged: TIER, FRAME and MIG (R339, R340). -/
def swapEntries (a b : W64) : W64 × W64 :=
  let m : W64 := BitVec.ofNat 64 (2 ^ 62 + 2 ^ 58 + (2 ^ 20 - 1))
  ((a &&& ~~~m) ||| (b &&& m), (b &&& ~~~m) ||| (a &&& m))

/-- The backings of two unified pages exchanged; a migration goes on with its backing. -/
def swapPages (s : State) (u v : Nat) : State :=
  let x := swapEntries (mapEntry s u) (mapEntry s v)
  let s := setMapEntry (setMapEntry s u x.1) v x.2
  { s with migs := s.migs.map (fun m => if m.1 = u then (v, m.2) else if m.1 = v then (u, m.2) else m) }

/-- Every bank pair of the partition's image exchanged (R339). -/
def swapBanks (s : State) (p : Nat) : State :=
  (bankPairs s p).foldl (fun s x => (List.range x.2.2).foldl (fun s i => swapPages s (x.1 + i) (x.2.1 + i)) s) s

/-- The chains of a partition that publish, and the subscribers that each names (R349, R352). -/
def pubChains (s : State) (p : Nat) : List (Nat × List Nat) :=
  (List.range (chainCount s p)).filterMap (fun i => match chainHdr s p i with
    | some c => if publishes s c then
        some (i, ((List.range c.ndesc).flatMap (fun j =>
          let d := chainDesc s c j
          if pdOp d = 5 then grpMembers s (pdPeer d % 64) else [])).eraseDups)
      else none
    | none => none)

/-- A publishing commit: PUB_ORD counts it, and a firing of every publishing chain begins (R349, R350, R352). -/
def publish (s : State) (p : Nat) : State :=
  let x := getPart s p
  let cfg := reg s (pEpo + Off.epoPubCfg)
  if !bit cfg 31 || decide (x.commits % max 1 (fld cfg 7 0) ≠ 0) then s
  else
    let s := bumpPair s (pEpo + Off.epoPubOrdLo) 1
    let k := pair s (pEpo + Off.epoPubOrdLo)
    let sw := (pair s (pEpo + Off.epoPubSwbLo) + k * max 1 (reg s (pEpo + Off.epoPubStride)).toNat) % 2 ^ 64
    (pubChains s p).foldl (fun s c =>
      { firPush s p c.1 x.step sw with pubs := s.pubs ++ (if c.2.isEmpty then [] else [(p, c.1, x.step % 2 ^ 32, c.2)]) }) s

/-- The commit exchange waits for a publication's acknowledgements, or for the shard reads of an ordinal (R352, R599). -/
def pubWait (s : State) (p : Nat) : Bool := s.pubs.any (fun u => decide (u.1 = p))
def ckWait (s : State) : Bool := match s.ck with | some o => !o.gens.isEmpty | none => false

/-- The commit: the exchange, its outcome, and what follows it (R339, R349, R593, R599). -/
def learnerCommit (s : State) (p : Nat) : State :=
  let s := swapBanks (outcome s p 0) p
  let x := getPart s p
  let s := setPart s p { x with commits := x.commits + 1, cstep := x.step, commitWait := false }
  publish (ordTake (mirStart s p) p) p

/-- The learner partitions whose exchange waited and can now be made. -/
def resumeCommits (s : State) : State :=
  ((List.range 32).filter (fun p => (getPart s p).commitWait)).foldl (fun s p => if pubWait s p || ckWait s then s else learnerCommit s p) s

/-- The boundary of a learner's step: commit when every hamlet's group word has bit 0 clear, else skip (R339); the exchange may be
held, each hold counted (R352, R599). -/
def learnerBoundary (s : State) (p : Nat) : State :=
  let x := getPart s p
  let good := x.hams.all (fun h => match groupWord s p h with | some g => decide (g % 2 = 0) | none => false)
  let s := livePass (stepOver s p) p
  if !good then outcome s p 1
  else
    let a := pubWait s p
    let b := ckWait s
    let s := if a then bump s (pEpo + Off.epoPubHold) 1 else s
    let s := if b then bump s (pCkp + Off.ckpCkHold) 1 else s
    if a || b then setPart s p { getPart s p with commitWait := true } else learnerCommit s p

/-! ### The boundary of a generator -/

/-- How a boundary treats the step: it commits, it ends as faulted, or there is none (R277, R288). -/
inductive BKind where
  | commit | fault | idle
deriving DecidableEq, Repr

/-- A generator's boundary (R277, R281 to R298): the commit, then the passes in their order, then the next batch. A batch that the
release has not taken up is given back first. -/
def genBoundary (s0 : State) (p : Nat) (k : BKind) : State :=
  let paused := (slotsOf s0 p).filter (fun i => decide ((getReq s0 i).st = stPaused))
  let s := grnFlush (orcApply s0 p) p
  let s := match k with
    | .commit => pinStep (genMirror (genCommit s p) p) p
    | _ => genFault s p
  let s := slotSweep s
  let s := if k = .idle then s else setPart s p { getPart s p with pfNext := (getPart s p).pfCnt }
  let s := flrPass (qpErrPass (ordGen s p) p) p
  let (s, deferred) := hubPass s p
  let s := retireMoves (holdPass (parkPass s p paused) p deferred) p
  let s := resumeCommits (livePass s p)
  let s := if k = .fault then s else formNext s p
  hrNotify s0 (winPass s p)

/-- The tick of a generator that runs no step (R277). -/
def idleTick (s : State) (p now : Nat) : State :=
  let x := getPart s p
  if x.learner || decide (x.st = .free) || x.inStep then s else genBoundary (advance s now) p .idle

def execIdleBoundaryTick (part now : Nat) (s : State) : Res := checked (.idleBoundaryTick part now) (idleTick s part now)

/-! ### Hamlets and partitions reach their boundary (R175, R183) -/

/-- Every stream of a hamlet has ended and every unit is idle (R175). -/
def hamIdle (s : State) (h : Nat) : Bool :=
  let x := getHam s h
  x.cartQ.isEmpty && x.cart.isNone && x.atsQ.isEmpty && x.ats.isNone && x.updQ.isEmpty && x.upd.isNone &&
  (List.range 16).all (fun t => let y := getStr s h t; decide (y.phase = .ended) && y.inflight.isEmpty)

/-- Every token that the running sub-batch draws has been drawn (R253, R284). -/
def allDrawn (s : State) (p : Nat) : Bool :=
  let x := getPart s p
  (subEntries x (x.subs.headD 0)).all (fun e =>
    (drawPositions (getReq s e.slot) e).all (fun t => e.draws.any (fun d => decide (d.pos = t))))

/-- A partition at its boundary: the next sub-batch (R363), or the end of the step. -/
def partBoundary (s : State) (p : Nat) : State :=
  let x := getPart s p
  match x.subs with
  | _ :: e :: r => subStart (setPart s p { x with subs := e :: r }) p e false
  | _ => if x.learner then learnerBoundary s p else genBoundary s p .commit

/-- A hamlet reaches its step boundary, and with the last one its partition does (R175, R184). -/
def hamBoundary (s : State) (h : Nat) : State :=
  match (getHam s h).part with
  | none => s
  | some p =>
    let x := getPart s p
    if !x.inStep || x.cause.isSome || (getHam s h).bound || !hamIdle s h || !(x.learner || allDrawn s p) || s.quar || s.dark then s
    else
      let s := hamRemaps (testUndo (setHam s h { getHam s h with bound := true }) h) h
      if (getPart s p).hams.all (fun g => (getHam s g).bound) then partBoundary s p else s

def execHamletStepBoundary (hamlet : Nat) (s : State) : Res := checked (.hamletStepBoundary hamlet) (hamBoundary s hamlet)

/-- A RESET is complete (R503). -/
def resetDone (s : State) (p : Nat) : State :=
  intBit (intBit (setReg (setPart s p { getPart s p with st := .running, cmd := 0 }) (prtPg p + Off.prtCmdStat) 0) (prtPg p) 0) (prtPg p) 1

/-- The batch after a placement or a restore, with the request-table window and host-ring messages. -/
def formFirst (s : State) (p : Nat) : State :=
  if (getPart s p).learner then s else hrNotify s (winPass (formNext s p) p)

/-- Every prologue of the partition has run: steps may be released (R183). -/
def prologueDone (s : State) (p : Nat) : State :=
  let x := getPart s p
  if !x.placing || x.cause.isSome || s.quar || s.dark || !(x.hams.all (hamIdle s)) then s
  else
    let s := x.hams.foldl (fun s h => setHam s h { getHam s h with bound := true }) s
    let s := setPart s p { getPart s p with placing := false }
    let s := if x.st = .resetting then resetDone s p else s
    formFirst s p

def execPrologueComplete (part : Nat) (s : State) : Res := checked (.prologueComplete part) (prologueDone s part)

def execSpillRestoreComplete (part : Nat) (s : State) : Res :=
  checked (.spillRestoreComplete part) (
    let t := restoreDone s part
    if (getPart s part).switchTo.isSome && (getPart t part).switchTo.isNone then formFirst t part else t)

/-- A subscriber has acknowledged an epoch, positively or negatively: it no longer holds the commits of that publication's
learner (R352). -/
def epochAcked (s : State) (sub epoch : Nat) : State :=
  let ps := s.pubs.map (fun u => if u.2.2.1 = epoch then (u.1, u.2.1, u.2.2.1, u.2.2.2.filter (· ≠ sub)) else u)
  resumeCommits { s with pubs := ps.filter (fun u => !u.2.2.2.isEmpty) }

def execEpochAck (sub epoch : Nat) (pos : Bool) (s : State) : Res := checked (.epochAck sub epoch pos) (epochAcked s sub epoch)

/-! ### Hung and faulted steps (R174, R549 to R552) -/

/-- What a stream that does not dispatch waits for, as KIND of R624. -/
def waitKind (s : State) (h t : Nat) (w : W128) : Nat :=
  if !waitsHold (getStr s h t) (waitsOf w) then 0
  else if cwClass w = 5 ∧ 64 ≤ (getHam s h).atsQ.length then 3
  else 1

/-- A stream's dispatch has waited longer than the step time limit: the step is hung, or the placement ends (R174, R658). -/
def stepHung (s : State) (h t : Nat) : State :=
  match (getHam s h).part, fetchCmd s h t with
  | some p, some (w, _) =>
    if !partGoes s p || mayDispatch s h t w then s
    else
      let s := faultStep s p ⟨8, hamPgOf h, waitKind s h t w, 0, cwLayer w, cwOper w⟩
      if (getPart s p).placing then placementEnd s p else s
  | _, _ => s

def execStepHung (hamlet tile : Nat) (s : State) : Res := checked (.stepHung hamlet tile) (stepHung s hamlet tile)

/-- The groups of a partition's chains that include another module. -/
def farGroups (s : State) (p : Nat) : List Nat :=
  (partGroups s p).filter (fun g => (grpMembers s g).any (fun m => decide (m ≠ modId s)))

/-- ARGS of a STEP fence (R568). -/
def stepFenceArgs (s : State) (p n : Nat) : List Byte :=
  bytesOf 1 2 ++ bytesOf 1 p ++ bytesOf 2 s.mepoch ++ bytesOf 4 0 ++ bytesOf 8 n ++ List.replicate 32 0

/-- The module tells the other modules of its groups that the step has faulted, unless a STEP fence faulted it (R551, R569). -/
def fenceOut (s : State) (p : Nat) (c : Cause) : State :=
  match farGroups s p with
  | g :: _ =>
    if c.code = 7 ∨ s.quar = true then s
    else
      let n := (getPart s p).step
      let s := criNew s 0xFFFF 2 (stepFenceArgs s p n)
      bbr s { cat := 5, code := 3, cause := 0, loc := prtPg p, step := n, part := p, arg0 := g, arg1 := modId s }
  | [] => s

/-- A learner's step that ends without commit or skip (R341). -/
def learnerFault (s : State) (p : Nat) : State := stepOver (outcome s p 2) p

/-- The step ends as a faulted step for its requests or views (R288, R341). -/
def endFaulted (s : State) (p : Nat) : State := if (getPart s p).learner then livePass (learnerFault s p) p else genBoundary s p .fault

/-- The record of a faulted step (R550, R584). -/
def faultRecord (s : State) (p : Nat) (c : Cause) : State :=
  bbr s { cat := 3, code := 1, cause := c.code, loc := c.loc, step := (getPart s p).step, part := p, layer := c.layer, op := c.op,
          arg0 := c.arg0, arg1 := c.arg1 }

/-- The partition's state reloaded, with the number and the parameters of the step kept (R503, R552). -/
def reloadStep (s : State) (p : Nat) : State :=
  let x := getPart s p
  if x.hams.any (fun h => (getHam s h).retired) then setPart s p { getPart s p with cause := none }
  else
    let s := reload s p
    setPart s p { getPart s p with step := x.step, relPar := x.relPar, again := true }

/-- The end of a faulted or hung step, or of a faulted placement, once its units have drained (R550 to R552, R658): the record, the
fence, the end of the step, the failed units contained, and the reload. -/
def faultedEnd (s : State) (p : Nat) (failed : List FailedUnit) : State :=
  let x := getPart s p
  match x.cause with
  | none => s
  | some c =>
    if s.quar || s.dark then s
    else if x.placing then placementEnd s p
    else if !x.inStep then s
    else
      let s := endFaulted (fenceOut (faultRecord s p c) p c) p
      let s := (failed.filter (fun f => x.hams.contains f.hamlet)).foldl contain s
      let s := x.hams.foldl hamRemaps s
      reloadStep s p

def execFaultedStepEnd (part : Nat) (failed : List FailedUnit) (s : State) : Res :=
  checked (.faultedStepEnd part failed) (faultedEnd s part failed)

end Sys2Proof.Machine
end

