-- ==== Sys2Proof/Machine/Ports.lean ====
section
/-! DEFINITION. Yelyo ports, planes and on-die links: lanes and training (R414 to R416), resends on a link (R419, R420),
port notices (R433), end-to-end resends (R427), stalls and die-to-die lanes (R437, R438). -/

namespace Sys2Proof.Machine

/-! ### Lanes and training (R414 to R416) -/

def ylkStatOf (p : Nat) : Nat := ylkPg p + Off.ylkStat

/-- The port's state and active lanes; a change of state interrupts. -/
def setPort (s : State) (p st width : Nat) : State :=
  let old := portState s p
  let s := setRegF (setRegF s (ylkStatOf p) 31 29 st) (ylkStatOf p) 23 20 width
  if old = st then s else intBit s (ylkPg p) 0

/-- A retrain starts: no flit is sent until it ends. -/
def retrain (s : State) (p : Nat) : State := setPort s p 1 0

/-- A lane turns bad: a port that is up retrains (R416). -/
def laneBad (s : State) (p l : Nat) : State :=
  let a := ylkStatOf p
  if (portState s p = 2 ∨ portState s p = 3) ∧ bit (reg s a) (15 + l) = true then retrain (setRegF s a (15 + l) (15 + l) 0) p else s

def execLaneBad (port lane : Nat) (s : State) : Res := checked (.laneBad port lane) (laneBad s port lane)

/-- A write of YLK.CFG; RETRAIN retrains the port. -/
def ylkCfgWrite (w : Writer) (p : Nat) (v : W32) (s : State) : State :=
  let x := writePlain w (ylkPg p + Off.ylkCfg) v s
  if x.ok && bit x.wo 0 then retrain x.st p else x.st

def execYlkRetrain (w : Writer) (port : Nat) (v : W32) (s : State) : Res := checked (.ylkRetrain w port v) (ylkCfgWrite w port v s)

/-- Training ends with the lanes `good`: width 4 with four of them, width 2 with two or three, else FAILED; the spare is used
where a lane of the first four is not good (R415, R416). A port that was DOWN may train at once (log entry 25). -/
def trainDone (s : State) (p good : Nat) : State :=
  if 2 ≤ portState s p then s
  else
    let a := ylkStatOf p
    let v : BitVec 5 := BitVec.ofNat 5 good
    let n := (bitsSet v 5).length
    let was := bit (reg s a) 14
    let spared := decide (4 ≤ n) && decide (good % 16 ≠ 15)
    let s := setRegF (setRegF s a 19 15 good) a 14 14 (if spared then 1 else 0)
    let s := if spared && !was then intBit s (ylkPg p) 1 else s
    if 4 ≤ n then
      let s := setPort s p 2 4
      linkPump s p (getLink s p).wait.length
    else if 2 ≤ n then
      let s := setPort s p 3 2
      linkPump s p (getLink s p).wait.length
    else setPort s p 4 0

def execRetrainComplete (port good : Nat) (s : State) : Res := checked (.retrainComplete port good) (trainDone s port good)

/-! ### Resends on a link (R419, R420) -/

/-- Flits before SEQ `q` are acknowledged: they leave the retry buffer. -/
def linkAcked (l : Link) (q : Nat) : Link :=
  match l.buf with
  | [] => l
  | f :: _ =>
    let d := (q + 1024 - f.seq) % 1024
    if d = 0 ∨ l.buf.length < d then l else { l with buf := l.buf.drop d, tries := 0 }

/-- A NAK: what comes before the expected SEQ is acknowledged, and the rest is sent again in order. -/
def nakIn (s : State) (p q : Nat) : State :=
  let l := linkAcked (getLink s p) q
  if !(l.buf.any (fun f => decide (f.seq = q))) then setLink s p l
  else
    let again := l.buf.dropWhile (fun f => decide (f.seq ≠ q))
    let s := bump (setLink s p { l with tries := l.tries + 1 }) (ylkPg p + Off.ylkRetry) again.length
    again.foldl (fun s f => putFlit s p f) s

def execNak (port expected : Nat) (s : State) : Res := checked (.nak port expected) (nakIn s port expected)

/-- RETRY_MAX of YLK.CFG; 0 acts as 1. -/
def retryMax (s : State) (p : Nat) : Nat := max 1 (regF s (ylkPg p + Off.ylkCfg) 11 4)

/-- A SEQ resent RETRY_MAX times without acknowledgement retrains the port (R420). -/
def retryLimit (s : State) (p q : Nat) : State :=
  let l := getLink s p
  match l.buf with
  | f :: _ =>
    if f.seq = q ∧ retryMax s p ≤ l.tries then retrain (intBit (setLink s p { l with tries := 0 }) (ylkPg p) 2) p else s
  | [] => s

def execRetryLimit (port seq : Nat) (s : State) : Res := checked (.retryLimit port seq) (retryLimit s port seq)

/-! ### Port notices (R433) -/

def portDown (s : State) (plane m : Nat) : State :=
  if s.fab.down.contains (plane, m) then s else { s with fab := { s.fab with down := s.fab.down ++ [(plane, m)] } }

def portUp (s : State) (plane m : Nat) : State := { s with fab := { s.fab with down := s.fab.down.filter (fun x => decide (x ≠ (plane, m))) } }

def execPortDown (plane mod : Nat) (s : State) : Res := checked (.portDown plane mod) (portDown s plane mod)

def execPortUp (plane mod : Nat) (s : State) : Res := checked (.portUp plane mod) (portUp s plane mod)

/-! ### End-to-end resends (R427) -/

/-- The job that sent a packet faults, as for an address outside the partition: `cause` is its cause at the port engine. A
shipment fails (log entry 49). -/
def ownerFault (s : State) (o : Owner) (cause addr : Nat) : State :=
  match o with
  | .cart h => (match cartCur s h with | some (r, _) => cartFault s h 1 r.desc addr | none => s)
  | .pen p chain _ desc => penFault s p chain desc cause addr
  | .ship slot => hrNotify s (shipFail s slot)
  | _ => s

/-- Another live plane of a destination, where one exists. -/
def otherPlane (s : State) (m last : Nat) (ordered : Bool) : Option Nat :=
  if !bit (planeEntry s m) 31 then some 16
  else
    let l := livePlanes s m
    match l.find? (fun p => decide (p ≠ last)) with
    | some p => some p
    | none => choosePlane s m ordered

/-- A destination that does not acknowledge is reported to the monitors; a port-engine firing faults with cause 4 (R427,
R466). A job of another unit stays open: its packet is sent no more, and a late acknowledgement still counts (log entry 49). -/
def unreachable (s : State) (u : Sent) : State :=
  let m := u.pkt.dst
  let stays := match u.owner with | .pen .. => false | .none => false | _ => true
  let left := if stays then s.fab.unacked.map (fun x => if x = u then { u with sentAt := 2 ^ 64 } else x)
    else s.fab.unacked.filter (fun x => decide (x ≠ u))
  let s := { s with fab := { s.fab with unacked := left, lostMods := insN s.fab.lostMods m }, out := s.out ++ [.unreach m] }
  match u.owner with
  | .pen p chain _ desc => penFault s p chain desc 4 m
  | _ => s

/-- An unacknowledged packet is sent again with RETX set and the module's epoch, after TMO_US, or is given up after TRIES sends (R424, R427). -/
def resend (s : State) (dst vc seq now : Nat) : State :=
  let e := reg s (pYlk0 + Off.ylkE2e)
  let tmo := 1000 * max 1 (fld e 15 0)
  match s.fab.unacked.find? (fun u => decide (u.pkt.dst = dst) && decide (u.pkt.vc = vc) && decide (u.pkt.seq = seq)) with
  | none => s
  | some u =>
    if now < u.sentAt + tmo ∨ s.quar then s
    else
      let s := { s with time := max s.time now }
      if max 1 (fld e 31 28) ≤ u.sends then unreachable s u
      else
        let k := { u.pkt with flags := u.pkt.flags % 4 + 4, mepoch := s.mepoch }
        let pl := otherPlane s dst u.plane (k.flags % 2 = 1)
        let u' := { u with sentAt := now, sends := u.sends + 1, plane := pl.getD 17, pkt := k }
        let s := { s with fab := { s.fab with unacked := s.fab.unacked.map (fun x => if x = u then u' else x) } }
        match pl with
        | some p => launch s k p
        | none => s

def execE2eResend (dst vc seq now : Nat) (s : State) : Res := checked (.e2eResend dst vc seq now) (resend s dst vc seq now)

/-! ### On-die links (R437, R438) -/

/-- The page of a compute die's die-to-die link. -/
def d2dPg (d : Nat) : Nat := diePg d 2

/-- A failing lane of a direction: a spare replaces it, else the link runs at half width while 32 good lanes remain, else it
has FAILED (R438). -/
def d2dLane (s : State) (d dir : Nat) : State :=
  let p := d2dPg d
  let a := p + Off.d2dStat
  let st := regF s a 31 29
  if st ≠ 2 ∧ st ≠ 3 then s
  else
    let n := getD s.d2dBad (d * 2 + dir) 0 + 1
    let s := { s with d2dBad := putS s.d2dBad (d * 2 + dir) n }
    let worst := max (getD s.d2dBad (d * 2) 0) (getD s.d2dBad (d * 2 + 1) 0)
    let s := setRegF s a 7 0 (4 - min 4 worst)
    if n ≤ 4 then intBit (bump s (p + Off.d2dRepairs) 1) p 1
    else if n ≤ 36 then
      let s := setRegF (setRegF s a 31 29 3) a 15 8 32
      if st = 2 then intBit s p 0 else s
    else intBit (setRegF (setRegF s a 31 29 4) a 15 8 0) p 0

def execD2dLaneRepair (die dir : Nat) (s : State) : Res := checked (.d2dLaneRepair die dir) (d2dLane s die dir)

/-- The STALL register and bit of a port of a router or spine page. -/
def stallBit (page port : Nat) : Option (Nat × Nat) :=
  if classOf page = 0x51 then (if port < 32 then some (page + Off.spnStall, port) else some (page + Off.spnStall2, port - 32))
  else if port < 22 then some (page + Off.netStall, port) else none

/-- A port held a request for 1 µs without a grant; the ports `granted` since have their bits cleared (R437). -/
def stall (s : State) (page port : Nat) (granted : List Nat) : State :=
  let s := granted.foldl (fun s q => match stallBit page q with | some (a, b) => setRegF s a b b 0 | none => s) s
  match stallBit page port with
  | some (a, b) => intBit (setRegF s a b b 1) page 0
  | none => s

def execRouterStall (page port : Nat) (granted : List Nat) (s : State) : Res :=
  checked (.routerStall page port granted) (stall s page port granted)

end Sys2Proof.Machine
end

