-- ==== Sys2Proof/Machine/Members.lean ====
section
/-! DEFINITION. Membership (R564 to R573): heartbeats and echoes, misses and SUSPECT reports, the acting coordinator, DEAD and
its adoption, fences and QUARANTINE. -/

namespace Sys2Proof.Machine

/-! ### Who is who (MBR registers) -/

/-- MBR.STAT.STATE: 0 UNASSIGNED, 1 SPARE, 2 MEMBER, 3 QUARANTINE. -/
def mbrState (s : State) : Nat := regF s (pMbr + Off.mbrStat) 31 29

/-- The module IDs of an _A and _B pair of registers. -/
def mbrIds (s : State) (a b : Nat) : List Nat :=
  [regF s (pMbr + a) 15 0, regF s (pMbr + a) 31 16, regF s (pMbr + b) 15 0].filter (fun m => decide (m ≠ 0xFFFE))

def monitors (s : State) : List Nat := mbrIds s Off.mbrMonA Off.mbrMonB
def coordinators (s : State) : List Nat := mbrIds s Off.mbrCoordA Off.mbrCoordB

/-- The spare table. -/
def spares (s : State) : List Nat :=
  (List.range 8).map (fun i => rdNat s.mem (pair s (pMbr + Off.mbrSpareBaseLo) % 2 ^ 50 + 2 * i) 2)

/-- The distinct monitors whose reports of a module are in force. -/
def reporters (s : State) (m : Nat) : List Nat := ((s.reports.filter (fun r => decide (r.1 = m))).map (fun r => r.2.1)).eraseDups

/-- The acting coordinator: the first listed one that is a member and that no two monitors report (R566). -/
def actingCoord (s : State) : Option Nat :=
  (coordinators s).find? (fun c => !s.gone.contains c && decide ((reporters s c).length < 2) &&
    (decide (c ≠ modId s) || decide (mbrState s = 2)))

/-- MBR.STAT as it reads: COORD is derived. -/
def mbrStatV (s : State) : W32 :=
  setBit (reg s (pMbr + Off.mbrStat)) 28 (decide (mbrState s = 2) && decide (actingCoord s = some (modId s)))

/-! ### QUARANTINE (R570, R571) -/

/-- The compute dies and the memory lose their power: the tiers' contents and the ledger ring with them (R635, R645). -/
def powerDown (s : State) : State :=
  { s with dark := true, mem := [], poison := [], ledger := { s.ledger with ringUp := false } }

/-- While SWAP_REQ_N is low, a module that is not a MEMBER powers its dies down and releases SWAP_OK (R644, R645). -/
def swapAct (s : State) : State :=
  if s.swapReq && !s.swapOk && decide (mbrState s ≠ 2) then { powerDown s with swapOk := true } else s

/-- The module is fenced: the record, then QUARANTINE; outbound packets and dispatch stop, and everything else is kept. -/
def quarantine (s : State) (cause origin : Nat) : State :=
  if s.quar then s
  else
    let s := bbr s { cat := 5, code := 1, cause := cause, loc := pMbr, arg0 := s.mepoch, arg1 := origin }
    let s := setRegF (setRegF s (pMbr + Off.mbrStat) 31 29 3) (pMbr + Off.mbrStat) 27 24 cause
    swapAct (intBit { s with quar := true } pMbr 2)

/-- A FENCE packet counted. -/
def fenceRx (s : State) : State := bump s (pMbr + Off.mbrFenceRx) 1

def execFenceModule (p : Crier) (s : State) : Res :=
  checked (.fenceModule p) (criIn { p with typ := 2, args := 1 :: p.args.drop 1 } (fun s => quarantine (fenceRx s) 2 p.origin) s)

/-- A member that has applied no echo and no crier packet for 500 ms fences itself (R570; members only, log entry 35). -/
def selfFence (s : State) (now : Nat) : State :=
  if mbrState s ≠ 2 ∨ now < s.heard + 500000000 then s else quarantine (advance s now) 3 0

def execSelfFence (now : Nat) (s : State) : Res := checked (.selfFence now) (selfFence s now)

/-! ### The adoption of a DEAD (R342, R357, R462, R567, R598, R605) -/

/-- A learner's step that the new epoch meets before its commit: nothing is committed, every P view is discarded and STATUS is 3;
the partition is reloaded as after a faulted step (R342; log entry 35). -/
def discardStep (s : State) (p : Nat) : State :=
  let x := getPart s p
  if !x.learner || !(x.inStep || x.commitWait) then s
  else
    let s := outcome s p 3
    let s := setPart s p { getPart s p with commitWait := false, again := true }
    if x.inStep then reloadStep (stepOver s p) p else s

/-- LOADING slots become EMPTY without an acknowledgement (R357). -/
def loadingDrop (s : State) : State :=
  ((List.range 3).filter (fun n => decide (slotSt s n = 1))).foldl slotClear { s with epLoad := none, epoAsm := [], epoGot := [] }

/-- End-to-end numbering to and from a dead module starts over; what it had not acknowledged is given up, and jobs that wait for it
fault (log entry 35). -/
def forget (s : State) (m : Nat) : State :=
  let lost := s.fab.unacked.filter (fun u => decide (u.pkt.dst = m))
  let far (e : Nat × Nat) : Bool := decide (e.1 / 8 ≠ m)
  let s := { s with fab := { s.fab with
    seq := s.fab.seq.filter far, rx := s.fab.rx.filter (fun e => decide (e.1 / 8 ≠ m)),
    unacked := s.fab.unacked.filter (fun u => decide (u.pkt.dst ≠ m)),
    wants := s.fab.wants.filter (fun w => decide (w.dst ≠ m)) } }
  let s := { s with mirrors := s.mirrors.filter (fun x => !(lost.any (fun u => decide (u.owner = .mirror x.part)))) }
  lost.foldl (fun s u => ownerFault s u.owner 4 m) s

/-- Rank 0 preempts the dead module's reservation key of the old epoch (R598). -/
def leasePreempt (s : State) (old m : Nat) : State :=
  if ckN s = 0 ∨ ckRank s ≠ 0 then s else { s with out := s.out ++ [.lease 1 (leaseKey s old m)] }

/-- The ID that a spare named in REPLACEMENT takes (R567). -/
def takeId (s : State) (subject repl : Nat) : State :=
  if repl ≠ modId s ∨ repl = 0xFFFE then s
  else { setRegF (setRegF s (pMbr + Off.mbrId) 15 0 subject) (pMbr + Off.mbrStat) 31 29 2 with heard := s.time }

/-- The state after a new epoch at the module's units, before what the checkpoint group does. -/
def epochTurn (s : State) (epoch subject repl : Nat) : State :=
  let s := setRegF { s with mepoch := epoch } (pMbr + Off.mbrStat) 15 0 epoch
  let s := (List.range 32).foldl discardStep s
  let s := forget (penAdopt (loadingDrop s)) subject
  let s := { s with
    deaths := s.deaths ++ [(epoch, subject, repl)],
    gone := if repl = 0xFFFE then insN s.gone subject else s.gone.filter (fun m => decide (m ≠ subject)),
    reports := s.reports.filter (fun r => decide (r.1 ≠ subject)), watch := delS s.watch subject, pubs := [], ck := none }
  ckWriting s

/-- A DEAD is adopted when its epoch follows the module's own (R567, R655). -/
def deadAdopt (s : State) (epoch subject repl : Nat) : State :=
  if !serialAfter epoch s.mepoch then s
  else
    let old := s.mepoch
    let s := epochTurn s epoch subject repl
    let s := { s with restoreDue := s.restoreDue || (decide (ckN s ≠ 0) && !(learners s).isEmpty) }
    let s := takeId (leasePreempt s old subject) subject repl
    let s := bbr s { cat := 5, code := 2, loc := pMbr, arg0 := epoch, arg1 := subject }
    ckReport (intBit s pMbr 0) subject

/-- A DEAD that arrives: it fences the module that it names and does not name as its replacement, and any other adopts it (R567,
R570). -/
def deadIn (s : State) (k : Crier) : State :=
  let subject := criArg k 4 2
  let repl := criArg k 6 2
  if s.quar then s
  else if subject = modId s ∧ repl ≠ modId s then quarantine s 1 k.origin
  else deadAdopt s (criArg k 2 2) subject repl

def execDead (p : Crier) (s : State) : Res :=
  checked (.dead p) (criIn { p with typ := 1, args := 3 :: p.args.drop 1 } (fun s => deadIn s p) s)

/-! ### Reports and the acting coordinator (R565, R566, R568) -/

/-- ARGS of a MEMBERSHIP packet. -/
def mbrArgs (action epoch subject repl : Nat) : List Byte :=
  bytesOf 1 action ++ bytesOf 1 0 ++ bytesOf 2 epoch ++ bytesOf 2 subject ++ bytesOf 2 repl ++ List.replicate 40 0

/-- The first entry of the spare table that has not been used; 0xFFFE when there is none (R566). -/
def nextSpare (s : State) : Nat :=
  ((spares s).find? (fun m => decide (m ≠ 0xFFFE) && !(s.deaths.any (fun d => decide (d.2.2 = m))))).getD 0xFFFE

/-- Two distinct monitors report a module: the acting coordinator broadcasts DEAD and adopts it itself (R566). -/
def deadDecide (s : State) (subject : Nat) : State :=
  if s.quar || decide (mbrState s ≠ 2) || decide (actingCoord s ≠ some (modId s)) || decide ((reporters s subject).length < 2) then s
  else
    let epoch := (s.mepoch + 1) % 65536
    let repl := nextSpare s
    deadAdopt (criNew s 0xFFFF 1 (mbrArgs 3 epoch subject repl)) epoch subject repl

/-- A report reaches this coordinator. -/
def suspectIn (s : State) (subject monitor : Nat) : State :=
  let r := s.reports.filter (fun r => !(decide (r.1 = subject) && decide (r.2.1 = monitor)))
  deadDecide (intBit { s with reports := r ++ [(subject, monitor, s.time)] } pMbr 1) subject

/-- A CLEAR withdraws a monitor's report. -/
def clearIn (s : State) (subject monitor : Nat) : State :=
  { s with reports := s.reports.filter (fun r => !(decide (r.1 = subject) && decide (r.2.1 = monitor))) }

def execSuspect (p : Crier) (s : State) : Res :=
  checked (.suspect p) (criIn { p with typ := 1, args := 1 :: p.args.drop 1 } (fun s => suspectIn s (criArg p 4 2) p.origin) s)

def execClear (p : Crier) (s : State) : Res :=
  checked (.clear p) (criIn { p with typ := 1, args := 2 :: p.args.drop 1 } (fun s => clearIn s (criArg p 4 2) p.origin) s)

/-- A SUSPECT or CLEAR to one coordinator; the module's own needs no packet. -/
def tellCoord (s : State) (action subject c : Nat) : State :=
  if c = modId s then (if action = 1 then suspectIn s subject c else clearIn s subject c)
  else criNew s c 1 (mbrArgs action 0 subject 0)

/-- SUSPECT to every coordinator (R565). -/
def suspectOut (s : State) (m : Nat) : State :=
  (coordinators s).foldl (fun s c => tellCoord (intBit (bump s (pMbr + Off.mbrSuspectTx) 1) pMbr 1) 1 m c) s

/-- 100 ms without a heartbeat: the miss is counted; SUSPECT goes out at the fifth in a row, with an unreachable report at the
second (R565). -/
def hbMiss (s : State) (m now : Nat) : State :=
  let x := getD s.watch m (0, 0, false)
  if s.quar || decide (now < x.1 + 100000000) then s
  else
    let n := x.2.1 + 1
    let tell := !x.2.2 && decide ((if s.fab.lostMods.contains m then 2 else 5) ≤ n)
    let s := bump (advance s now) (pMbr + Off.mbrHbMiss) 1
    let s := { s with watch := putS s.watch m (now, n, x.2.2 || tell) }
    if tell then suspectOut s m else s

def execHeartbeatMiss (mod now : Nat) (s : State) : Res := checked (.heartbeatMiss mod now) (hbMiss s mod now)

/-- Reports of a module lapse 1 s after they were made (R565). -/
def reportExpiry (s : State) (m now : Nat) : State :=
  let s := advance s now
  { s with reports := s.reports.filter (fun r => !(decide (r.1 = m) && decide (r.2.2 + 1000000000 ≤ now))) }

def execReportExpiry (mod now : Nat) (s : State) : Res := checked (.reportExpiry mod now) (reportExpiry s mod now)

/-! ### Heartbeats and echoes (R564) -/

/-- A heartbeat or an echo (R564): a PUT on VC6 with handle 0x3FE and 16 data bytes. -/
def hbPut (s : State) (dst : Nat) : State :=
  sendPkt s dst 6 4 0 0 0xFFFF (0x3FE * 2 ^ 48) 16 (bytesOf 8 s.time ++ bytesOf 4 (mbrStatV s).toNat ++ bytesOf 4 0) .none

/-- Every 100 ms a member sends a heartbeat to each monitor. -/
def hbSend (s : State) (now : Nat) : State :=
  if mbrState s ≠ 2 ∨ now < s.hbAt + 100000000 then s
  else (monitors s).foldl hbPut { advance s now with hbAt := now }

def execHeartbeatSend (now : Nat) (s : State) : Res := checked (.heartbeatSend now) (hbSend s now)

/-- A heartbeat is applied: the misses start over, a report is withdrawn, and an echo answers it (R564, R565). -/
def hbApply (s : State) (src : Nat) : State :=
  let told := (getD s.watch src (0, 0, false)).2.2
  let s := { s with watch := putS s.watch src (s.time, 0, false), fab := { s.fab with lostMods := s.fab.lostMods.filter (fun m => decide (m ≠ src)) } }
  let s := if told then (coordinators s).foldl (fun s c => tellCoord s 2 src c) s else s
  hbPut s src

/-- An echo from a monitor is applied (R570). -/
def echoApply (s : State) (src : Nat) : State := if (monitors s).contains src then { s with heard := s.time } else s

/-! ### STEP fences (R569) -/

/-- The group of a partition's chains that lists a module. -/
def fenceGroup (s : State) (p origin : Nat) : Option Nat := (partGroups s p).find? (fun g => (grpMembers s g).contains origin)

/-- A STEP fence: the step of that number in flight faults, or the next one will (R549, R569). -/
def fenceStep (s : State) (k : Crier) : State :=
  let p := criArg k 1 1 % 32
  let n := criArg k 8 8
  let x := getPart s p
  match fenceGroup s p k.origin with
  | none => s
  | some g =>
    let rec_ (s : State) : State := bbr s { cat := 5, code := 3, cause := 1, loc := prtPg p, step := n, part := p, arg0 := g, arg1 := k.origin }
    if x.inStep && decide (x.step = n) then faultStep (rec_ s) p ⟨7, prtPg p, g, k.origin, 0xFFFF, 0⟩
    else if decide (n = if x.again && !x.inStep then x.step else x.step + 1) then
      setPart (rec_ s) p { getPart (rec_ s) p with fenceNext := some (n, g, k.origin) }
    else s

def execFenceStep (p : Crier) (s : State) : Res :=
  checked (.fenceStep p) (criIn { p with typ := 2, args := 2 :: p.args.drop 1 } (fun s => fenceStep (fenceRx s) p) s)

/-! ### The module's ID and its membership (R573, MBR.ID, MBR.INIT) -/

/-- A write of MBR.ID: writable in UNASSIGNED, which makes the module SPARE, and in SPARE. -/
def mbrIdWrite (w : Writer) (v : W32) (s : State) : State :=
  let x := writeCore w (pMbr + Off.mbrId) v false (fun _ n => if mbrState s ≤ 1 then some n else none) s
  if x.ok && decide (mbrState s = 0) then setRegF x.st (pMbr + Off.mbrStat) 31 29 1 else x.st

def execMbrIdWrite (w : Writer) (v : W32) (s : State) : Res := checked (.mbrIdWrite w v) (mbrIdWrite w v s)

/-- A write of MBR.INIT: GO makes a SPARE module MEMBER at EPOCH, and is refused in any other state. -/
def mbrInit (w : Writer) (v : W32) (s : State) : State :=
  let x := writeCore w (pMbr + Off.mbrInit) v false (fun _ n => if bit v 31 && decide (mbrState s ≠ 1) then none else some n) s
  if x.ok && bit x.wo 31 then
    let e := fld v 15 0
    let t := setRegF (setRegF x.st (pMbr + Off.mbrStat) 31 29 2) (pMbr + Off.mbrStat) 15 0 e
    { t with mepoch := e, heard := t.time }
  else x.st

def execMbrInit (w : Writer) (v : W32) (s : State) : Res := checked (.mbrInit w v) (mbrInit w v s)

end Sys2Proof.Machine
end

