-- ==== Sys2Proof/Machine/Boot.lean ====
section
/-! DEFINITION. Resets, boot and live switch (R525 to R548), and the supply, reset and swap pins that start them (R631 to R645). -/

namespace Sys2Proof.Machine

/-! ### Firmware components (R529, R530) -/

/-- The loft object that holds the bundle of a bank: TYPE 0x02 or 0x03. -/
def bundleOf (s : State) (bank : Nat) : Option (Nat × LoftObj) := s.loft.find? (fun e => decide (e.2.typ = 2 + bank))

/-- The bytes of a component's header. -/
def hdrAt (o : LoftObj) (off : Nat) : List Byte := rdBytes o.data off 512

/-- A little-endian field of a header. -/
def hdrN (h : List Byte) (off n : Nat) : Nat := ofBytes ((h.drop off).take n)

/-- The components follow one another, each on a 4 KiB boundary: where the one of a TYPE starts, in the walk that begins at `off`
(log entry 38). -/
def compFrom (o : LoftObj) (t : Nat) : Nat → Nat → Option Nat
  | 0, _ => none
  | k + 1, off =>
    let h := hdrAt o off
    if o.len < off + 512 ∨ hdrN h 0 4 ≠ 0x46574B42 then none
    else if hdrN h 4 2 = t then some off
    else compFrom o t k (ceilDiv (off + 512 + hdrN h 0x18 8) 4096 * 4096)

/-- Where the component of a TYPE starts in a bundle. -/
def compAt (o : LoftObj) (t : Nat) : Option Nat := compFrom o t 5 0

/-- The header of the component of a TYPE in a bank. -/
def compHdr (s : State) (bank t : Nat) : List Byte :=
  match bundleOf s bank with
  | some (_, o) => (match compAt o t with | some off => hdrAt o off | none => [])
  | none => []

/-- The fields of a header that hold zero do (R529). -/
def hdrZeros (h : List Byte) : Bool :=
  let z (off n : Nat) : Bool := ((h.drop off).take n).all (fun b => decide (b = 0))
  z 6 2 && z 0x14 4 && z 0x52 6 && z 0x118 232 && (decide (hdrN h 0x51 1 ≠ 0xFF) || z 0xB8 96)

/-- Bits 511 to 1 of a boot policy are zero, and its body has 64 bytes (R530). -/
def policyOk (body : List Byte) : Bool :=
  decide (body.length = 64) && decide ((body.headD 0).toNat < 2) && (body.drop 1).all (fun b => decide (b = 0))

/-- VSIG verifies under a fused vendor key that is not revoked (R530). -/
def vsigOk (s : State) (h : List Byte) : Bool :=
  let k := hdrN h 0x50 1
  decide (k < 4) && !bit (reg s (pAtt + Off.attKeys)) (28 + k) &&
    Config.ecdsaVerify (Config.vendorKey k) (h.take 0x58) ((h.drop 0x58).take 96)

/-- No owner key is enrolled, or OSIG verifies under an enrolled one that is not revoked (R530). -/
def osigOk (s : State) (h : List Byte) : Bool :=
  let keys := reg s (pAtt + Off.attKeys)
  let k := hdrN h 0x51 1
  decide (fld keys 27 26 = 0) ||
    (decide (k < 2) && bit keys (26 + k) && !bit keys (24 + k) &&
      Config.ecdsaVerify (getD s.ownKeys k []) (h.take 0x58) ((h.drop 0xB8).take 96))

/-- The check of R530 on the component of a TYPE in a bank: none where it passes, else the CAUSE of BOOT.FAIL. -/
def compCheck (s : State) (bank t : Nat) : Option Nat :=
  match bundleOf s bank with
  | none => some 8
  | some (_, o) =>
    if o.st ≠ 0 then some 8
    else match compAt o t with
      | none => some 1
      | some off =>
        let h := hdrAt o off
        let n := hdrN h 0x18 8
        let body := rdBytes o.data (off + 512) (min n o.len)
        let dcls := [1, 2, 3, 4, 5].filterMap (fun u => (compAt o u).map (fun a => hdrN (hdrAt o a) 0x10 4))
        if !hdrZeros h || (decide (t = 5) && !policyOk body) then some 1
        else if o.len < off + 512 + n ∨ sha384 body ≠ (h.drop 0x20).take 48 then some 2
        else if !vsigOk s h then some 3
        else if !osigOk s h then some 4
        else if hdrN h 0xC 4 < (reg s (pAtt + Off.attSvn + 4 * (t - 1))).toNat then some 5
        else if dcls.any (fun d => decide (d ≠ hdrN h 0x10 4)) then some 6
        else none

/-- The value of BOOT.FAIL for a failure. -/
def failWord (cause stage typ bank h : Nat) : W32 := w32 (2 ^ 31 + cause * 2 ^ 16 + stage * 2 ^ 12 + typ * 2 ^ 8 + bank * 2 ^ 7 + h)

/-- A failed check, or a reeve that does not start: BOOT.FAIL holds the first one, and each gets a record (R534, R543, R545). -/
def bootFail (s : State) (cause stage typ bank h : Nat) : State :=
  let f := failWord cause stage typ bank h
  let s := if bit (reg s (pBoot + Off.bootFail)) 31 then s else setReg s (pBoot + Off.bootFail) f
  intBit (bbr s { cat := 1, code := 2, cause := cause, loc := pBoot, arg0 := f.toNat }) pBoot 0

/-- A measurement slot written, with its record (R533, R542, R584). -/
def measPut (s : State) (n : Nat) (d : List Byte) : State := bbrMeasure { s with meas := putS s.meas n d } 1 n d

/-- A component starts to run. -/
def fwRun (s : State) (t : Nat) (h : List Byte) : State := { s with fw := putS s.fw t (hdrN h 8 4, hdrN h 0xC 4, hdrN h 0x10 4) }

/-- The record of a new attestation certificate (R539). -/
def certRecord (s : State) : State := bbrMeasure s 2 0xFF (sha384 (Config.attCert (attKey s)))

/-! ### The boot sequence (R533 to R536) -/

/-- Stage, TYPE of the component that it loads and its slot; stage 3 loads none (R533). -/
def bootStages : List (Nat × Nat × Nat) := [(1, 5, 1), (2, 1, 2), (3, 0, 0), (4, 2, 3), (5, 3, 4), (6, 4, 5)]

/-- Stage 3 starts the ledger ring: the staging area is copied in (R78). The records have the newest sequence numbers. -/
def ringStart (s : State) : State :=
  let l := s.ledger.staging
  let next := (pair s (pLdg + Off.ldgHeadSeqLo) + 1) % 2 ^ 64
  let base := tableOff s (pLdg + Off.ldgRingBaseLo)
  let put (x : Nat × Memory) (r : List Byte) : Nat × Memory := (x.1 + 1, wrBytes x.2 (base + 64 * (x.1 % ringSlots)) r)
  { s with mem := (l.foldl put (next - l.length, s.mem)).2, ledger := { s.ledger with ringUp := true, staging := [] } }

/-- One stage of boot from a bank, unless an earlier one failed or waits for power: memory has none while VIN_48 is low. -/
def bootStage (bank : Nat) (st : State × Bool) (x : Nat × Nat × Nat) : State × Bool :=
  let s := st.1
  if !st.2 || (s.dark && decide (3 ≤ x.1)) then st
  else if x.1 = 3 then (setRegF (ringStart s) (pBoot + Off.bootStat) 27 24 3, true)
  else match compCheck s bank x.2.1 with
    | some c => (bootFail s c x.1 x.2.1 bank 0, false)
    | none =>
      let h := compHdr s bank x.2.1
      let s := measPut (fwRun s x.2.1 h) x.2.2 (sha384 h)
      let s := setRegF s (pBoot + Off.bootStat) 27 24 x.1
      let s := if x.1 = 1 then setRegF s (pBoot + Off.bootStat) 29 29 (hdrBodyBit s bank) else s
      (s, true)
where
  /-- Bit 0 of the boot policy: it enables class D (R530). -/
  hdrBodyBit (s : State) (bank : Nat) : Nat :=
    match bundleOf s bank with
    | some (_, o) => (match compAt o 5 with | some off => (rdB o.data (off + 512)).toNat % 2 | none => 0)
    | none => 0

/-- The stages of one bank from stage 1 on. -/
def bootBank (s : State) (bank : Nat) : State × Bool :=
  let s := setRegF (setRegF { s with meas := [], fw := [] } (pBoot + Off.bootStat) 23 22 (bank * 3)) (pBoot + Off.bootStat) 27 24 0
  bootStages.foldl (bootStage bank) (s, true)

/-- Boot through stage 6: the bank of NEXT_BANK, then once the other one, else RECOVERY (R533, R534). -/
def bootRun (s : State) : State :=
  let bank := regF s (pBoot + Off.bootCfg) 0 0
  let a := bootBank s bank
  let b := if a.2 then a else bootBank a.1 (1 - bank)
  let s := b.1
  if !b.2 then setRegF s (pBoot + Off.bootStat) 30 30 1
  else
    let s := setReg s (pMod + Off.modDcl) (w32 (fwOf s 1).2.2)
    if s.dark then s else certRecord s

/-- The links that train at a reset: Yelyo ports begin, die-to-die links are up with the lanes they have, and the references are
present (R415, R438, R507; log entry 38). -/
def linksUp (s : State) : State :=
  let s := (List.range 16).foldl (fun s p => if portState s p = 0 then setPort s p 1 0 else s) s
  let s := (List.range 4).foldl (fun s d =>
    let a := d2dPg d + Off.d2dStat
    let n := max (getD s.d2dBad (d * 2) 0) (getD s.d2dBad (d * 2 + 1) 0)
    let v := if n ≤ 4 then 2 * 2 ^ 29 + 64 * 256 + (4 - n) else if n ≤ 36 then 3 * 2 ^ 29 + 32 * 256 else 4 * 2 ^ 29
    if regF s a 31 29 = 0 then setReg s a (w32 v) else s) s
  setRegF s (pClk + Off.clkStat) 31 30 3

/-- Stage 7: the module is READY (R533, R535), and the boot record names the segment (R76, R584). -/
def bootReady (s : State) : State :=
  let st := reg s (pBoot + Off.bootStat)
  if bit st 31 || bit st 30 || s.dark then s
  else
    let s := linksUp (if s.ledger.ringUp then s else ringStart s)
    let s := setRegF (setRegF s (pBoot + Off.bootStat) 27 24 7) (pBoot + Off.bootStat) 31 31 1
    let last := reg s (pBoot + Off.bootLastReset)
    let s := bbr s { cat := 1, code := 1, cause := fld last 31 29, loc := pBoot, arg0 := last.toNat, arg1 := s.ledger.first }
    intBit { s with ledger := { s.ledger with named := true } } pBoot 2

def execBootReady (s : State) : Res := checked .bootReady (bootReady s)

/-! ### What a reset keeps (R14, R525, R526) -/

/-- Bits of a register that a cold or warm module reset keeps: what is per test, per MRAM or fused, and at a warm one the pages LDG
and BBR. -/
def keepMask (warm : Bool) (a : Nat) : W32 :=
  let p := pageOf a
  let o := a % 4096
  if p = pMod ∧ 0x100 ≤ o ∨ p = pBbr ∧ (0x100 ≤ o ∧ o < 0x110 ∨ warm) ∨ p = pLdg ∧ warm = true ∨ p = pPwr ∧ o = Off.pwrHotHours ∨
      p = pAtt ∧ (o = Off.attKeys ∨ Off.attSvn ≤ o ∧ o < Off.attSpdmReq) ∨ p = pLft ∧ 0x100 ≤ o ∧ o ≤ Off.lftTodo then 0xFFFFFFFF
  else if p = pBoot ∧ o = Off.bootCfg then 1
  else if p = pClk ∧ o = Off.clkStat ∧ warm = true then 0xE0000000
  else if p = pRas ∧ o = Off.rasStat then 0xFFF
  else if classOf p = 0x53 ∧ Off.ntmPcStat ≤ o ∧ o < Off.ntmPcStat + 128 then 0xFF00
  else if classOf p = 0x41 ∧ o = Off.hamFold then 0x1F00
  else 0

/-- The registers after a cold or warm module reset. -/
def regsKept (warm : Bool) (m : Store W32) : Store W32 :=
  m.filterMap (fun e =>
    let a := e.1 % 0x20000000
    let v := (resetOf a &&& ~~~keepMask warm a) ||| (e.2 &&& keepMask warm a)
    if v = resetOf a then none else some (e.1, v))

/-- What MRAM keeps of the hamlets: retirement, and the tiles they have lost. -/
def hamsKept (m : Store Hamlet) : Store Hamlet :=
  m.filterMap (fun e =>
    let y := { Hamlet.init with
      retired := e.2.retired,
      tstate := (e.2.tstate.filter (fun x => decide (x.2 % 4 = 2))).map (fun x => (x.1, 2)) }
    if y = Hamlet.init then none else some (e.1, y))

/-- SPARE_FREE is 0 where the spare tile is retired. -/
def sparesKept (s : State) : State :=
  s.hams.foldl (fun s e =>
    let a := hamPgOf e.1 + Off.hamFold
    if tileSt s e.1 (regF s a 12 8) = 2 then setRegF s a 31 31 0 else s) s

/-- Enrolments and revocations in the fuses come into force (R531). -/
def keysInForce (s : State) : State :=
  let a := pAtt + Off.attKeys
  let en := ((List.range 2).filter (fun k => (getS s.ownKeys k).isSome)).map (fun k => 2 ^ k)
  let rv := ((List.range 2).filter (fun k => s.ownRev.contains k)).map (fun k => 2 ^ k)
  let s := setRegF (setRegF s a 27 26 (en.foldl (· + ·) 0)) a 25 24 (rv.foldl (· + ·) 0)
  let owner := (List.range 2).any (fun k => (getS s.ownKeys k).isSome && !s.ownRev.contains k)
  setRegF s (pBoot + Off.bootStat) 28 28 (if owner then 1 else 0)

/-- The per-boot addresses of the module's tables and rings name this module in the tray (R372). -/
def traysIn (s : State) : State :=
  [pLdg + Off.ldgRingBaseHi, pFtm0 + Off.ftmUmapBaseHi, pFtm0 + Off.ftmFownBaseHi, pFtm0 + Off.ftmAccBaseHi,
   pRas + Off.rasCperBaseHi].foldl (fun s a => setRegF s a 19 18 s.tray) s

/-- What every cold or warm module reset keeps outside the registers: what waits or has been sent or answered, host memory, MRAM, the
loft, fuses, and what is so by its make. -/
def resetCore (s : State) (warm : Bool) (tray : Nat) : State :=
  let f := { Fab.init with outbox := s.fab.outbox, flits := s.fab.flits }
  traysIn { State.reset with
    pending := s.pending, regs := regsKept warm s.regs, resp := s.resp, irqs := s.irqs, host := s.host, freeCtr := s.freeCtr,
    mram := s.mram, hams := hamsKept s.hams, loft := s.loft, fab := f, out := s.out, d2dBad := s.d2dBad, vf := s.vf,
    hotNs := s.hotNs, tray := tray, ownKeys := s.ownKeys, ownRev := s.ownRev, vinLow := s.vinLow,
    swapReq := s.swapReq, dark := s.vinLow }

/-- The first sequence number of the next ledger segment (R76). -/
def nextSegment (l : Ledger) : Nat :=
  let top := if l.first < l.unsealed then l.unsealed else if l.named then l.first + 1 else l.first
  ceilDiv top 4096 * 4096

/-- A new ledger segment: HEAD_SEQ and ACK_SEQ stand before its first record (R76, R653). -/
def segmentStart (s : State) (n : Nat) : State :=
  let before := (n + (2 ^ 64 - 1)) % 2 ^ 64
  setPair (setPair { s with ledger := Ledger.start n } (pLdg + Off.ldgHeadSeqLo) before) (pLdg + Off.ldgAckSeqLo) before

/-- BOOT.LAST_RESET. -/
def lastReset (kind cause warms : Nat) : W32 := w32 (kind * 2 ^ 29 + cause * 2 ^ 24 + min 65535 warms)

/-- A cold reset (R525): every page is reinitialised, the tiers' contents are gone, a ledger segment starts, the loft deletes
what it was writing (R404), and boot runs. -/
def coldReset (s : State) (cause : Nat) (b : BootOutcome) : State :=
  let n := nextSegment s.ledger
  let t := segmentStart (resetCore s false b.tray) n
  let t := loftCounts { t with loft := t.loft.filter (fun e => decide (e.2.st ≠ 1)) }
  let t := setReg (keysInForce (sparesKept t)) (pBoot + Off.bootLastReset) (lastReset 0 cause 0)
  swapAct (bootRun (if t.dark then t else b.failed.foldl pcFailed t))

/-- What a warm module reset keeps beside that (R525): time, the ledger, memory, and what counts since cold reset; and QUARANTINE,
which only a cold reset leaves (R573). -/
def warmCore (s : State) (tray : Nat) : State :=
  let t := resetCore s true tray
  let t := { t with
    time := s.time, mem := s.mem, poison := s.poison, ledger := s.ledger, admitSeq := s.admitSeq, lastEpoch := s.lastEpoch,
    lastSw := s.lastSw, criSeq := s.criSeq, quar := s.quar, mepoch := if s.quar then s.mepoch else 0, criAt := s.time,
    heard := s.time, recheckAt := s.time + 3600000000000 }
  let t := { t with dark := s.dark, tripped := s.tripped, swapOk := s.swapOk }
  if s.quar then setReg t (pMbr + Off.mbrStat) (reg s (pMbr + Off.mbrStat)) else t

/-- A cold boot is in progress, which absorbs a warm module reset (R528). -/
def coldBooting (s : State) : Bool :=
  !bit (reg s (pBoot + Off.bootStat)) 31 && !bit (reg s (pBoot + Off.bootStat)) 30 &&
    decide (regF s (pBoot + Off.bootLastReset) 31 29 = 0)

/-- A warm module reset (R525): at once, and no request is told. An orderly one seals the ledger first (R80). -/
def warmReset (s : State) (cause : Nat) (orderly : Bool) (b : BootOutcome) : State :=
  if coldBooting s then s
  else
    let s := if orderly then sealPartial s else s
    let k := regF s (pBoot + Off.bootLastReset) 15 0 + 1
    let t := setReg (keysInForce (sparesKept (warmCore s b.tray))) (pBoot + Off.bootLastReset) (lastReset 1 cause k)
    swapAct (bootRun t)

/-! ### Hamlet resets (R525, R527) -/

/-- The OWNER registers of a hamlet's pages. -/
def owners (s : State) (h : Nat) : List (Nat × W32) :=
  (((List.range 17) ++ [0x18, 0x19, 0x1A, 0x1B, 0x1C, 0x1D, 0x1E, 0x1F]).map (fun b => hamPg h b + Off.owner)).map (fun a => (a, reg s a))

/-- Every page of a hamlet takes its reset values, but for OWNER and what is per test; scratchpads, ways and sync counters are
zero, and the reeve runs its firmware anew. -/
def hamletReset (s : State) (h : Nat) : State :=
  let lo := hamPg h 0
  let keep := owners s h
  let spare := regF s (hamPgOf h + Off.hamFold) 12 8
  let inH (e : Nat × W32) : Bool := decide (lo ≤ e.1 % 0x20000000) && decide (e.1 % 0x20000000 < lo + 0x40000)
  let x := getHam s h
  let s := { s with
    regs := s.regs.filter (fun e => !inH e), staged := s.staged.filter (fun e => !inH e), capt := s.capt.filter (fun e => !inH e),
    bndStaged := s.bndStaged.filter (fun e => !inH e), streams := clearRange s.streams (h * 16) 16,
    tiles := clearRange s.tiles (h * 64) 64, isl := clearRange s.isl (h * 18) 18,
    clamps := s.clamps.filter (fun k => decide (k / 18 ≠ h)),
    hams := putDef s.hams h { Hamlet.init with retired := x.retired, tstate := x.tstate } Hamlet.init }
  let s := keep.foldl (fun s e => setReg s e.1 e.2) s
  let a := hamPgOf h + Off.hamFold
  let s := setRegF s a 12 8 spare
  if tileSt s h spare ≠ 0 then setRegF s a 31 31 0 else s

/-- BOOT.RESET as its values allow it: KIND 3 is refused; class F starts hamlet resets only, and a hamlet reset needs an enabled
hamlet of no partition (R527). -/
def resetAdmits (s : State) (w : Writer) (v : W32) : Bool :=
  let kind := fld v 9 8
  let h := fld v 6 0
  !bit v 31 ||
    (decide (kind ≠ 3) && (decide (w.cls = .m) || decide (kind = 2)) &&
      (decide (kind ≠ 2) || ((getHam s h).part.isNone && hamletOn s h)))

/-- A write of BOOT.RESET: GO starts the reset that KIND says (R527, R528). -/
def bootResetWrite (w : Writer) (v : W32) (b : BootOutcome) (s : State) : State :=
  let x := writeCore w (pBoot + Off.bootReset) v false (fun _ n => if resetAdmits s w v then some n else none) s
  if !x.ok || !bit x.wo 31 then x.st
  else match fld v 9 8 with
    | 0 => coldReset x.st 2 b
    | 1 => warmReset x.st 2 true b
    | _ => hamletReset x.st (fld v 6 0)

/-- A write of BOOT.RESET whose KIND is the row's. -/
def resetRow (kind : Nat) (w : Writer) (v : W32) (b : BootOutcome) (s : State) : State :=
  when (decide (fld v 9 8 = kind)) (bootResetWrite w v b) s

/-- A cold reset from what starts it (R525): power-on, BOOT.RESET, or the thermal trip. -/
def execColdReset (src : ColdSrc) (b : BootOutcome) (s : State) : Res :=
  checked (.coldReset src b) (match src with
    | .power => coldReset s 0 b
    | .write w v => resetRow 0 w v b s
    | .thermal => when s.tripped (fun s => coldReset s 4 b) s)

/-- A warm module reset from BOOT.RESET, or from a PCIe reset of the PF (R475, R525). -/
def execWarmReset (src : WarmSrc) (b : BootOutcome) (s : State) : Res :=
  checked (.warmReset src b) (match src with
    | .write w v => resetRow 1 w v b s
    | .pcie => warmReset s 3 false b)

def execHamletReset (w : Writer) (v : W32) (s : State) : Res := checked (.hamletReset w v) (resetRow 2 w v ⟨s.tray, []⟩ s)

/-! ### BOOT commands (R532, R534, R543 to R545) -/

/-- GO of BOOT.SVN_COMMIT raises each fused minimum to the SVN of the running component (R532). -/
def svnCommit (w : Writer) (v : W32) (s : State) : State :=
  let x := writePlain w (pBoot + Off.bootSvnCommit) v s
  if !x.ok || !bit x.wo 0 then x.st
  else (List.range 5).foldl (fun s i =>
    let a := pAtt + Off.attSvn + 4 * i
    setReg s a (w32 (max (reg s a).toNat (fwOf s (i + 1)).2.1))) x.st

def execSvnCommit (w : Writer) (v : W32) (s : State) : Res := checked (.svnCommit w v) (svnCommit w v s)

/-- Clearing BOOT.FAIL.VALID returns every field to reset. -/
def bootFailWrite (w : Writer) (v : W32) (s : State) : State := clearValid w (pBoot + Off.bootFail) v [] s

def execBootFailClear (w : Writer) (v : W32) (s : State) : Res := checked (.bootFailClear w v) (bootFailWrite w v s)

/-- Hamlets whose reeve a live switch changes: the enabled ones that are not retired. -/
def liveHams (s : State) : List Nat := (hamletsOn s).filter (fun h => !(getHam s h).retired)

/-- A live switch starts once the reeve and the orchestrator component of the bank that is not live pass their checks; a hamlet in
no partition changes at once (R543, R544; a bundle of another DCL is a DCL crossing, log entry 38). -/
def liveStart (s : State) : State :=
  let bank := 1 - regF s (pBoot + Off.bootStat) 22 22
  match compCheck s bank 3, compCheck s bank 4 with
  | some c, _ => bootFail s c 5 3 bank 0
  | none, some c => bootFail s c 6 4 bank 0
  | none, none =>
    let free := (liveHams s).filter (fun h => (getHam s h).part.isNone)
    { setRegF s (pBoot + Off.bootStat) 21 21 1 with
      live := some { bank := bank, changed := free, back := false, reeve := compHdr s bank 3, orch := compHdr s bank 4 } }

/-- GO of BOOT.SWITCH; while SWITCHING is 1 it is ignored and counted (R543). -/
def liveGo (w : Writer) (v : W32) (s : State) : State :=
  let x := writePlain w (pBoot + Off.bootSwitch) v s
  if !x.ok || !bit x.wo 0 then x.st
  else if x.st.live.isSome then errInc x.st pBoot
  else liveStart x.st

def execLiveSwitch (w : Writer) (v : W32) (s : State) : Res := checked (.liveSwitch w v) (liveGo w v s)

/-- Every hamlet runs the new reeve firmware. -/
def liveAll (s : State) : Bool :=
  match s.live with
  | some l => !l.back && (liveHams s).all (fun h => l.changed.contains h)
  | none => false

/-- The operation that ends a live switch: slots 4 and 5, the attestation key, LIVE_BANK and the DCL (R50, R544). -/
def liveCommit (s : State) (l : LiveSw) : State :=
  let old := reg s (pMod + Off.modDcl)
  let dcl := w32 (hdrN l.reeve 0x10 4)
  let s := fwRun (fwRun { s with live := none } 3 l.reeve) 4 l.orch
  let s := measPut (measPut s 4 (sha384 l.reeve)) 5 (sha384 l.orch)
  let s := certRecord (setReg s (pMod + Off.modDcl) dcl)
  let s := setRegF s (pBoot + Off.bootStat) 22 21 (l.bank * 2)
  intBit (bbr s { cat := 1, code := 3, cause := if dcl = old then 0 else 1, loc := pBoot, arg0 := dcl.toNat }) pBoot 1

/-- A reeve does not start its new firmware: the failure is recorded, and every hamlet goes back at its next boundary, one in no
partition at once (R545). -/
def liveBack (s : State) (l : LiveSw) (h : Nat) : State :=
  let s := bootFail s 7 5 3 l.bank h
  let c := l.changed.filter (fun k => (getHam s k).part.isSome)
  if c.isEmpty then setRegF { s with live := none } (pBoot + Off.bootStat) 21 21 0 else { s with live := some { l with changed := c, back := true } }

/-- The end of a live switch: every hamlet has changed, or the reeve of hamlet `h` has not started (R544, R545). -/
def liveEnd (s : State) (bad : Option Nat) : State :=
  match s.live, bad with
  | some l, none => if liveAll s then liveCommit s l else s
  | some l, some h => if l.back || !(liveHams s).contains h then s else liveBack s l h
  | none, _ => s

def execLiveSwitchComplete (bad : Option Nat) (s : State) : Res := checked (.liveSwitchComplete bad) (liveEnd s bad)

/-! ### Supplies, PERST_N and hot swap (R634 to R645) -/

/-- VIN_48 below 38 V for longer than 100 µs (R635). -/
def execVinLow (s : State) : Res := checked .vinLow { powerDown s with vinLow := true }

/-- VIN_48 above 40 V for 10 ms: a cold reset, power-on (R635). -/
def execVinRestore (b : BootOutcome) (s : State) : Res :=
  checked (.vinRestore b) (when s.vinLow (fun s => coldReset { s with vinLow := false } 0 b) s)

/-- The auxiliary supply is lost: a cold reset, whatever VIN_48 does (R636). -/
def execAuxLoss (b : BootOutcome) (s : State) : Res := checked (.auxLoss b) (coldReset s 1 b)

/-- PERST_N low for 100 µs: a PCIe conventional reset of the PF (R639). -/
def execPerst (b : BootOutcome) (s : State) : Res := checked (.perst b) (warmReset s 3 false b)

/-- SWAP_REQ_N goes low (R645). -/
def execSwapRequest (s : State) : Res := checked .swapRequest (swapAct { s with swapReq := true })

/-- SWAP_REQ_N returns high before the module is removed: a cold reset, power-on (R645). -/
def execSwapCancel (b : BootOutcome) (s : State) : Res :=
  checked (.swapCancel b) (when s.swapReq (fun s => coldReset { s with swapReq := false } 0 b) s)

end Sys2Proof.Machine
end

