-- ==== Sys2Proof/Machine/Attest.lean ====
section
/-! DEFINITION. Attestation and firmware update: the ATT commands (R531, R542), the SPDM responder (R540, R541) and the PLDM
firmware update (R546, R547). Message layouts and codes follow DMTF DSP0274 and DSP0267, which the spec names without giving
them (PRESUMED, log entries 40 and 41). -/

namespace Sys2Proof.Machine

/-! ### ATT commands (R531, R542) -/

/-- The 48 bytes of ATT.EXT_DATA. -/
def extData (s : State) : List Byte := (List.range 12).flatMap (fun i => bytesOf 4 (reg s (pAtt + Off.attExtData + 4 * i)).toNat)

/-- A write of ATT.EXT_GO: GO extends a slot of the owner; a SLOT below 16 is refused and counted (R542). -/
def slotExtend (w : Writer) (v : W32) (s : State) : State :=
  let n := fld v 4 0
  let x := writeCore w (pAtt + Off.attExtGo) v false (fun _ y => if bit v 31 && decide (n < 16) then none else some y) s
  if x.ok && bit x.wo 31 then measPut x.st n (sha384 (measSlot x.st n ++ extData x.st)) else x.st

def execSlotExtend (w : Writer) (v : W32) (s : State) : Res := checked (.slotExtend w v) (slotExtend w v s)

/-- The fuses already hold what the write asks for. -/
def ownerRepeats (s : State) (v : W32) : Bool :=
  if bit v 30 then s.ownRev.contains (fld v 0 0) else (getS s.ownKeys (fld v 0 0)).isSome

/-- A write of ATT.OWNER: GO enrols or revokes an owner key in the fuses; a repetition is refused and counted (R531; log entry 38). -/
def attOwnerWrite (w : Writer) (v : W32) (s : State) : State :=
  let x := writeCore w (pAtt + Off.attOwner) v false (fun _ y => if bit v 31 && ownerRepeats s v then none else some y) s
  if !x.ok || !bit x.wo 31 then x.st
  else if bit v 30 then { x.st with ownRev := insN x.st.ownRev (fld v 0 0) }
  else { x.st with ownKeys := putS x.st.ownKeys (fld v 0 0) (extData x.st) }

def execOwnerEnrol (w : Writer) (v : W32) (s : State) : Res :=
  checked (.ownerEnrol w v) (when (!bit v 30) (attOwnerWrite w v) s)
def execOwnerRevoke (w : Writer) (v : W32) (s : State) : Res :=
  checked (.ownerRevoke w v) (when (bit v 30) (attOwnerWrite w v) s)

/-! ### SPDM (R540, R541) -/

/-- An answer to a requester, over MCTP or PCIe VDM. -/
def answer (s : State) (d : List Byte) : State := { s with out := s.out ++ [.reply d], resp := d }

/-- An SPDM answer, counted (ATT.SPDM_REQ). -/
def spdmAnswer (s : State) (d : List Byte) : State := bump (answer s d) (pAtt + Off.attSpdmReq) 1

/-- An SPDM error response: its code and data (ATT.SPDM_ERR). -/
def spdmError (s : State) (code data : Byte) : State :=
  let v : Byte := if s.spdm.ver = 0 then 0x10 else BitVec.ofNat 8 s.spdm.ver
  bump (spdmAnswer s [v, 0x7F, code, data]) (pAtt + Off.attSpdmErr) 1

/-- A request is answered unless the operation that ends a live switch is under way: then Busy (R544; log entry 42). -/
def spdmFree (f : State → State) (s : State) : State := if liveAll s then spdmError s 0x03 0 else f s

/-- A request after NEGOTIATE_ALGORITHMS, with the version then in force. -/
def spdmIn (req : List Byte) (f : State → State) (s : State) : State :=
  spdmFree (fun s =>
    if !s.spdm.algo then spdmError s 0x04 0
    else if (req.headD 0).toNat ≠ s.spdm.ver then spdmError s 0x41 0
    else f s) s

/-- Sixteen and thirty-two bit fields and bytes of a message. -/
def reqN (req : List Byte) (off n : Nat) : Nat := ofBytes ((req.drop off).take n)

/-- VERSION: 1.2 and 1.3. -/
def spdmVersion (req : List Byte) (s : State) : State :=
  let d : List Byte := [0x10, 0x04, 0, 0, 0, 2, 0x00, 0x12, 0x00, 0x13]
  spdmAnswer { s with spdm := { Spdm.init with msgA := req ++ d } } d

def execGetVersion (req : List Byte) (s : State) : Res := checked (.getVersion req) (spdmFree (spdmVersion req) s)

/-- CAPABILITIES: certificates, challenge and signed measurements. -/
def spdmCaps (req : List Byte) (s : State) : State :=
  let v := (req.headD 0).toNat
  if s.spdm.msgA.isEmpty then spdmError s 0x04 0
  else if v ≠ 0x12 ∧ v ≠ 0x13 then spdmError s 0x41 0
  else
    let d := [BitVec.ofNat 8 v, 0x61, 0, 0] ++ bytesOf 4 0 ++ bytesOf 4 0x16 ++ bytesOf 4 4096 ++ bytesOf 4 4096
    spdmAnswer { s with spdm := { s.spdm with ver := v, algo := false, msgA := s.spdm.msgA ++ req ++ d } } d

def execCapabilities (req : List Byte) (s : State) : Res := checked (.capabilities req) (spdmFree (spdmCaps req) s)

/-- ALGORITHMS: ECDSA P-384 with SHA-384 for both hashes. -/
def spdmAlgos (req : List Byte) (s : State) : State :=
  if s.spdm.ver = 0 then spdmError s 0x04 0
  else if (req.headD 0).toNat ≠ s.spdm.ver then spdmError s 0x41 0
  else
    let d := [BitVec.ofNat 8 s.spdm.ver, 0x63, 0, 0] ++ bytesOf 2 36 ++ [1, 0] ++ bytesOf 4 4 ++ bytesOf 4 0x80 ++ bytesOf 4 2 ++
      List.replicate 16 0
    spdmAnswer { s with spdm := { s.spdm with algo := true, msgA := s.spdm.msgA ++ req ++ d, msgB := [], msgL := [] } } d

def execNegotiateAlgorithms (req : List Byte) (s : State) : Res := checked (.negotiateAlgorithms req) (spdmFree (spdmAlgos req) s)

/-- The certificate chain of slot 0 (R540). -/
def spdmChain (s : State) : List Byte := Config.certChain (attKey s)

/-- DIGESTS: slot 0 only. -/
def spdmDigests (req : List Byte) (s : State) : State :=
  let d := [BitVec.ofNat 8 s.spdm.ver, 0x01, if s.spdm.ver = 0x13 then 1 else 0, 1] ++ sha384 (spdmChain s)
  spdmAnswer { s with spdm := { s.spdm with msgB := s.spdm.msgB ++ req ++ d } } d

def execGetDigests (req : List Byte) (s : State) : Res := checked (.getDigests req) (spdmIn req (spdmDigests req) s)

/-- CERTIFICATE: a portion of the chain of slot 0. -/
def spdmCert (req : List Byte) (s : State) : State :=
  let off := reqN req 4 2
  let n := reqN req 6 2
  let chain := spdmChain s
  if (req.getD 2 0).toNat % 16 ≠ 0 ∨ chain.length ≤ off then spdmError s 0x01 0
  else
    let part := (chain.drop off).take (min n 4080)
    let d := [BitVec.ofNat 8 s.spdm.ver, 0x02, 0, 0] ++ bytesOf 2 part.length ++ bytesOf 2 (chain.length - off - part.length) ++ part
    spdmAnswer { s with spdm := { s.spdm with msgB := s.spdm.msgB ++ req ++ d } } d

def execGetCertificate (req : List Byte) (s : State) : Res := checked (.getCertificate req) (spdmIn req (spdmCert req) s)

/-- Thirty-two bytes of a nonce: a free value (log entry 8). -/
def nonce (s : State) : List Byte × State :=
  ((List.range 8).flatMap (fun i => bytesOf 4 (Config.freeWord (s.freeCtr + i)).toNat), { s with freeCtr := s.freeCtr + 8 })

/-- Slots that hold a value: slot 0, and those written since the last reset (R541). -/
def measHeld (s : State) (n : Nat) : Bool := decide (n = 0) || (getS s.meas n).isSome

/-- The measurement block of a slot: index n + 1, DMTF digest form (R541). -/
def measBlock (s : State) (n : Nat) : List Byte :=
  [BitVec.ofNat 8 (n + 1), 1] ++ bytesOf 2 51 ++ [if n = 0 then 0 else if n < 16 then 1 else 3] ++ bytesOf 2 48 ++ measSlot s n

/-- The slots that a request names: its index less 1, or with 0xFF all that hold a value. -/
def measNamed (s : State) (op : Nat) : List Nat :=
  if op = 0xFF then (List.range 32).filter (measHeld s)
  else if 1 ≤ op ∧ op ≤ 32 ∧ measHeld s (op - 1) = true then [op - 1] else []

/-- The requester's context, which version 1.3 returns. -/
def reqContext (s : State) (req : List Byte) (off : Nat) : List Byte := if s.spdm.ver = 0x13 then (req.drop off).take 8 else []

/-- CHALLENGE_AUTH, signed with the attestation key over the exchange so far (R539). -/
def spdmChallenge (req : List Byte) (s : State) : State :=
  let t := (req.getD 3 0).toNat
  if (req.getD 2 0).toNat % 16 ≠ 0 ∨ ¬(t = 0 ∨ t = 1 ∨ t = 0xFF) then spdmError s 0x01 0
  else
    let (n, s) := nonce s
    let sum := if t = 0 then [] else
      sha384 ((((List.range 32).filter (fun i => measHeld s i && (decide (t = 0xFF) || decide (i < 16)))).map (measBlock s)).flatten)
    let d := [BitVec.ofNat 8 s.spdm.ver, 0x03, 0, 1] ++ sha384 (spdmChain s) ++ n ++ sum ++ bytesOf 2 0 ++ reqContext s req 36
    spdmAnswer { s with spdm := { s.spdm with msgB := [] } }
      (d ++ Config.ecdsaSign (attKey s) (s.spdm.msgA ++ s.spdm.msgB ++ req ++ d))

def execChallenge (req : List Byte) (s : State) : Res := checked (.challenge req) (spdmIn req (spdmChallenge req) s)

/-- MEASUREMENTS, signed where the request asks for it (R541). -/
def spdmMeas (req : List Byte) (s : State) : State :=
  let op := (req.getD 3 0).toNat
  let sign := decide ((req.getD 2 0).toNat % 2 = 1)
  let slots := measNamed s op
  if (op ≠ 0 ∧ slots.isEmpty = true) ∨ (sign = true ∧ (req.getD 36 0).toNat % 16 ≠ 0) then spdmError s 0x01 0
  else
    let (n, s) := nonce s
    let rec_ := (slots.map (measBlock s)).flatten
    let count := if op = 0 then ((List.range 32).filter (measHeld s)).length else 0
    let d := [BitVec.ofNat 8 s.spdm.ver, 0x60, BitVec.ofNat 8 count, 0, BitVec.ofNat 8 slots.length] ++ bytesOf 3 rec_.length ++ rec_ ++
      n ++ bytesOf 2 0 ++ reqContext s req (if sign then 37 else 4)
    let l := s.spdm.msgL ++ req ++ d
    if sign then
      spdmAnswer { s with spdm := { s.spdm with msgL := [] } } (d ++ Config.ecdsaSign (attKey s) (s.spdm.msgA ++ l))
    else spdmAnswer { s with spdm := { s.spdm with msgL := l } } d

def execGetMeasurements (req : List Byte) (s : State) : Res := checked (.getMeasurements req) (spdmIn req (spdmMeas req) s)

/-- Any other request: UnsupportedRequest (R540). -/
def execSpdmUnsupported (req : List Byte) (s : State) : Res :=
  checked (.spdmUnsupported req) (spdmFree (fun s => spdmError s 0x07 (req.getD 1 0)) s)

/-! ### PLDM firmware update (R546, R547) -/

/-- Completion codes of DSP0267. -/
def pldmOk : Byte := 0x00
def pldmIdle : Byte := 0x80
def pldmBusy : Byte := 0x81
def pldmLength : Byte := 0x83
def pldmState : Byte := 0x84
def pldmRefused : Byte := 0x8A

/-- Largest transfer (R546). -/
def pldmMax : Nat := 4096

/-- An answer: a completion code and data. -/
def pldmSay (s : State) (c : Byte) (d : List Byte) : State := answer s (c :: d)

/-- Names of the device: its class of part; the spec gives no identifiers (log entry 41). -/
def execQueryDeviceIdentifiers (s : State) : Res :=
  checked .queryDeviceIdentifiers (pldmSay s pldmOk (bytesOf 4 0 ++ [0]))

/-- One component, the bundle: the versions that run and that the next reset boots. -/
def execGetFirmwareParameters (s : State) : Res :=
  checked .getFirmwareParameters (pldmSay s pldmOk (bytesOf 2 1 ++ bytesOf 4 (fwVersion s) ++
    bytesOf 4 (hdrN (compHdr s (regF s (pBoot + Off.bootCfg) 0 0) 1) 8 4)))

/-- BANK and LIVE_BANK of BOOT.STAT. -/
def bankNow (s : State) : Nat := regF s (pBoot + Off.bootStat) 23 23
def bankLive (s : State) : Nat := regF s (pBoot + Off.bootStat) 22 22

/-- RequestUpdate: refused while BANK and LIVE_BANK differ (R547). -/
def pldmRequest (s : State) (maxTransfer : Nat) : State :=
  if s.pldm.st ≠ 0 then pldmSay s pldmBusy []
  else if bankNow s ≠ bankLive s then pldmSay s pldmRefused []
  else if maxTransfer < 32 then pldmSay s pldmLength []
  else pldmSay { s with pldm := { Pldm.init with st := 1, bank := 1 - bankNow s } } pldmOk [0, 0, 0]

def execRequestUpdate (maxTransfer : Nat) (s : State) : Res := checked (.requestUpdate maxTransfer) (pldmRequest s maxTransfer)

/-- PassComponentTable: the one component is the bundle, identifier 0. -/
def pldmTable (s : State) (ident : Nat) : State :=
  if s.pldm.st = 0 then pldmSay s pldmIdle []
  else if s.pldm.st ≠ 1 then pldmSay s pldmState []
  else if ident = 0 then pldmSay { s with pldm := { s.pldm with st := 2 } } pldmOk [0, 0]
  else pldmSay s pldmOk [1, 6]

def execPassComponentTable (ident : Nat) (s : State) : Res := checked (.passComponentTable ident) (pldmTable s ident)

/-- The loft object that receives a bundle: the bank's own, else one under the lowest free ID. -/
def bundleId (s : State) (bank : Nat) : Nat :=
  match bundleOf s bank with
  | some (i, _) => i
  | none => ((List.range (s.loft.length + 1)).map (· + 1)).find? (fun i => (getObj s i).isNone) |>.getD 1

/-- UpdateComponent: the bank's object is WRITING from here on; refused where the loft cannot take it. -/
def pldmUpdate (s : State) (ident size : Nat) : State :=
  if s.pldm.st = 0 then pldmSay s pldmIdle []
  else if s.pldm.st ≠ 2 then pldmSay s pldmState []
  else
    let i := bundleId s s.pldm.bank
    let rest := { s with loft := delS s.loft i }
    if ident ≠ 0 ∨ loftState s = 3 ∨ loftCap (loftLive s) < loftUsed rest + size then pldmSay s pldmOk [1, 6]
    else
      let o : LoftObj := { typ := 2 + s.pldm.bank, st := 1, fetchable := false, len := size, created := 0, digest := [], data := [] }
      pldmSay (loftCounts { setObj s i o with pldm := { s.pldm with st := 3, size := size, got := 0, obj := i, applied := false } }) pldmOk [0, 0]

def execUpdateComponent (ident size : Nat) (s : State) : Res := checked (.updateComponent ident size) (pldmUpdate s ident size)

/-- RequestFirmwareData: the module asks for the next bytes, 4,096 at most, and they come. -/
def pldmData (s : State) (off : Nat) (data : List Byte) : State :=
  let u := s.pldm
  match getObj s u.obj with
  | some o =>
    if u.st ≠ 3 ∨ off ≠ u.got ∨ data.length ≠ min pldmMax (u.size - u.got) then s
    else { setObj s u.obj { o with data := wrBytes o.data off data } with pldm := { u with got := u.got + data.length } }
  | none => s

def execRequestFirmwareData (off : Nat) (data : List Byte) (s : State) : Res :=
  checked (.requestFirmwareData off data) (pldmData s off data)

/-- TransferComplete: every byte has come, and the object is VALID with its DIGEST (R404). -/
def pldmTransfer (s : State) : State :=
  let u := s.pldm
  match getObj s u.obj with
  | some o =>
    if u.st ≠ 3 ∨ u.got ≠ u.size then s
    else
      let s := setObj s u.obj { o with st := 0, created := s.time, digest := sha384 (objBytes o) }
      pldmSay { s with pldm := { u with st := 4 } } pldmOk []
  | none => s

def execTransferComplete (s : State) : Res := checked .transferComplete (pldmTransfer s)

/-- VerifyComplete reports failure when any component of the bundle fails its check (R547). -/
def pldmVerify (s : State) : State :=
  if s.pldm.st ≠ 4 then s
  else match [1, 2, 3, 4, 5].findSome? (fun t => compCheck s s.pldm.bank t) with
    | some c => pldmSay { s with pldm := { s.pldm with st := 2 } } (BitVec.ofNat 8 c) []
    | none => pldmSay { s with pldm := { s.pldm with st := 5 } } pldmOk []

def execVerifyComplete (s : State) : Res := checked .verifyComplete (pldmVerify s)

/-- ApplyComplete ends the apply phase. -/
def pldmApply (s : State) : State :=
  if s.pldm.st ≠ 5 then s else pldmSay { s with pldm := { s.pldm with st := 2, applied := true } } pldmOk []

def execApplyComplete (s : State) : Res := checked .applyComplete (pldmApply s)

/-- ActivateFirmware sets NEXT_BANK to the updated bank, and with self-contained activation starts a live switch (R547). -/
def pldmActivate (s : State) (selfContained : Bool) : State :=
  if s.pldm.st = 0 then pldmSay s pldmIdle []
  else if s.pldm.st ≠ 2 ∨ s.pldm.applied = false then pldmSay s pldmState []
  else
    let s := setRegF { s with pldm := Pldm.init } (pBoot + Off.bootCfg) 0 0 s.pldm.bank
    let s := if selfContained then (if s.live.isSome then errInc s pBoot else liveStart s) else s
    pldmSay s pldmOk [0, 0]

def execActivateFirmware (selfContained : Bool) (s : State) : Res :=
  checked (.activateFirmware selfContained) (pldmActivate s selfContained)

/-- GetStatus: the state of the update and the bytes that have come. -/
def execGetStatus (s : State) : Res :=
  checked .getStatus (pldmSay s pldmOk (bytesOf 1 s.pldm.st ++ bytesOf 4 s.pldm.got ++ bytesOf 4 s.pldm.size))

/-- CancelUpdate: an object that is still being written is deleted. -/
def pldmCancel (s : State) : State :=
  if s.pldm.st = 0 then pldmSay s pldmIdle []
  else
    let s := if s.pldm.st = 3 then loftCounts { s with loft := delS s.loft s.pldm.obj } else s
    pldmSay { s with pldm := Pldm.init } pldmOk [0]

def execCancelUpdate (s : State) : Res := checked .cancelUpdate (pldmCancel s)

end Sys2Proof.Machine
end

