-- ==== Sys2Proof/Machine/View.lean ====
section
/-! DEFINITION. What a register reads as (R13, R17): the registers that hold their value, and those that show other state. -/

namespace Sys2Proof.Machine

/-- A fixed arrangement of STAT registers of units with queues: BUSY, FAULTED, QUEUED and the low half. -/
def unitStat (busy faulted : Bool) (queued low : Nat) : W32 :=
  w32 ((if busy then 2 ^ 31 else 0) + (if faulted then 2 ^ 30 else 0) + min 64 queued * 2 ^ 16 + low)

/-- CRT.STAT: a list, spill or restore runs; lists are refused; lists that wait. -/
def crtStatV (s : State) (h : Nat) : W32 :=
  let x := getHam s h
  unitStat (x.cart.isSome || decide (x.spill ≠ 0)) x.cartOff x.cartQ.length 0

/-- ATS.JOB_STAT. -/
def atsStatV (s : State) (h : Nat) : W32 :=
  let x := getHam s h
  unitStat x.ats.isSome x.atsOff x.atsQ.length 0

/-- UPD.STAT: LAST_PROG is held. -/
def updStatV (s : State) (h : Nat) : W32 :=
  let x := getHam s h
  unitStat x.upd.isSome x.updOff x.updQ.length (regF s (updPg h + Off.updStat) 15 0)

/-- Descriptors in progress, over all partitions. -/
def penActive (s : State) : Nat :=
  ((List.range 32).map (fun p => ((getPart s p).firings.map (fun f => f.started - f.done.length)).foldl (· + ·) 0)).foldl (· + ·) 0

/-- PEN.STAT. -/
def penStatV (s : State) : W32 := w32 ((if anyStale s then 2 ^ 31 else 0) + min 255 (penActive s))

/-- PRT.STAT. -/
def prtStatV (s : State) (p : Nat) : W32 :=
  let x := getPart s p
  let st := match x.st with | .free => 0 | .created => 1 | .running => 2 | .resetting => 3
  w32 (st * 2 ^ 30 + (match x.resident with | some i => 2 ^ 29 + i * 2 ^ 26 | none => 0) + x.hams.length * 2 ^ 18 + x.pcs.length * 2 ^ 9)

/-- YLK.VC_STALL: the VCs that hold a flit and no credit. -/
def vcStallV (s : State) (p : Nat) : W32 :=
  let l := getLink s p
  w32 (((List.range 8).map (fun v => if l.wait.any (fun f => decide (f.vc = v)) && !hasCredit l v then 2 ^ v else 0)).foldl (· + ·) 0)

/-- RAS.UNIT_STATE of the tile that UNIT_IDX names. -/
def unitStateV (s : State) : W32 :=
  let i := regF s (pRas + Off.rasUnitIdx) 11 0
  let v := getD (getHam s (i / 17)).tstate (i % 17) 0
  if i < 2176 then w32 (v % 4 * 2 ^ 30 + min 8 (v / 4) * 2 ^ 26) else 0

/-- DIE.RETIRED. -/
def dieRetiredV (s : State) (d : Nat) : W32 :=
  w32 (((List.range 32).map (fun b => if (getHam s (d * 32 + b)).retired then 2 ^ b else 0)).foldl (· + ·) 0)

/-- DIE.TEMP: the hottest hamlet of the die, by its hottest island. -/
def dieTempV (s : State) (d : Nat) : W32 :=
  let best := (List.range 576).foldl (fun (b : Nat × Int) k =>
    let t := islTemp s (d * 32 + k / 18) (k % 18)
    if b.2 < t then (k / 18, t) else b) (0, islTemp s (d * 32) 0)
  w32 (best.1 * 256 + (best.2 % 256).toNat)

/-- BBR.RD_DATA: word `i` of the record that RD_SEQ names; 0 where its slot holds another record. -/
def bbrDataV (s : State) (i : Nat) : W32 :=
  let n := pair s (pBbr + Off.bbrRdSeqLo)
  let a := 64 * (n % bbrSlots)
  if rdNat s.mram a 8 = n then w32 (rdNat s.mram (a + 4 * i) 4) else 0

/-- ATT.SLOT_DATA: word `i` of the indexed slot. -/
def slotDataV (s : State) (i : Nat) : W32 := w32 (ofBytes (((measSlot s (regF s (pAtt + Off.attSlotIdx) 4 0)).drop (4 * i)).take 4))

/-- PEN.CTR of the partition and counter that PIDX names; `hi` its upper half. -/
def penCtrV (s : State) (hi : Bool) : W32 :=
  let x := reg s (pPen + Off.penPidx)
  let v := getD (getPart s (fld x 12 8)).pctr (fld x 7 0) 0
  if hi then w32 (v / 2 ^ 32 % 2 ^ 16) else w32 v

/-- The pool that REQ.KVP_IDX names. -/
def kvpIdx (s : State) : Nat := regF s (pReq + Off.reqKvpIdx) 5 0

/-- A register of a hub page. -/
def hubView (s : State) (p o a : Nat) : W32 :=
  match classOf p with
  | 0x02 => if o = Off.pwrTempMax then tempMax s else reg s a
  | 0x04 => if o = Off.clkTimeLo then w32 s.time else if o = Off.clkTimeHi then w32 (s.time >>> 32) else reg s a
  | 0x06 => if Off.bbrRdData ≤ o ∧ o < Off.bbrRdData + 64 then bbrDataV s ((o - Off.bbrRdData) / 4) else reg s a
  | 0x08 => if Off.attSlotData ≤ o ∧ o < Off.attSlotData + 48 then slotDataV s ((o - Off.attSlotData) / 4) else reg s a
  | 0x09 => if o = Off.rasUnitState then unitStateV s else reg s a
  | 0x0B => if o = Off.mbrStat then mbrStatV s else reg s a
  | 0x0C => if o = Off.ckpStat then setBit (reg s a) 30 (!s.mirrors.isEmpty) else reg s a
  | 0x10 =>
    if o = Off.reqActive then w32 (s.reqs.filter (fun e => decide (e.2.st ≠ stFree))).length
    else if o = Off.reqKvpFree then w32 (kvFree s (kvpIdx s)) else reg s a
  | 0x16 => if o = Off.ylkVcStall then vcStallV s (instanceOf p) else reg s a
  | 0x18 =>
    if o = Off.penStat then penStatV s
    else if o = Off.penCtrLo then penCtrV s false
    else if o = Off.penCtrHi then penCtrV s true else reg s a
  | 0x1B => if o = Off.fncStat then setFld (reg s a) 14 0 (activeOf s (p / 4096 - 0x100)) else reg s a
  | 0x1C => if o = Off.prtStat then prtStatV s (p / 4096 - 0x300) else reg s a
  | _ => reg s a

/-- TIL.MAP with the busy bits of a physical tile's units; a cart transfer is one event, so CART_BUSY reads 0 between events
(log entry 14). -/
def tilMapV (s : State) (h q : Nat) : W32 :=
  let on := (List.range 16).filter (fun l => bit (tmap s h l) 31 && decide (physOf s h l = q))
  let busy (u : UnitK) : Bool := on.any (fun l => (getStr s h l).inflight.any (fun f => decide (f.u = u)))
  setBit (setBit (setBit (reg s (tilPg h q + Off.tilMap)) 0 (busy .grid)) 1 (busy .mv)) 2
    (busy .vec || (getHam s h).borrow.contains q)

/-- A register of a hamlet's page; ISL.IDX 31 reads island 0, and TIL.NF_B reads its reset values when FOLDED is 0. -/
def hamView (s : State) (h p o a : Nat) : W32 :=
  match classOf p with
  | 0x40 =>
    if o = Off.tilCmdStat then cmdStat s h (instanceOf p)
    else if o = Off.tilMap then tilMapV s h (instanceOf p)
    else if o = Off.tilNfB ∧ bit (reg s (p + Off.tilMap)) 30 = false then resetOf a else reg s a
  | 0x42 => if o = Off.atsJobStat then atsStatV s h else reg s a
  | 0x44 =>
    let i := regF s (p + Off.islIdx) 4 0
    let i := if i = 31 then 0 else i
    if o = Off.islStat then islStat s h i
    else if Off.islFreq ≤ o ∧ o ≤ Off.islEscalCnt then regAt s a i else reg s a
  | 0x46 => if o = Off.updStat then updStatV s h else reg s a
  | 0x47 => if o = Off.crtStat then crtStatV s h else reg s a
  | _ => reg s a

/-- A register of a die-level page. -/
def dieView (s : State) (p o a : Nat) : W32 :=
  if classOf p ≠ 0x50 then reg s a
  else
    let d := instanceOf p
    if o = Off.dieEnabled then reg s (pMod + Off.modHmap + 4 * d)
    else if o = Off.dieRetired then dieRetiredV s d
    else if o = Off.dieTemp then dieTempV s d else reg s a

/-- Events that the model does not count, for the spec gives their number no rule: cycles, lost grants, cache hits and misses, and
router flits (log entry 37). -/
def openEvent (c : Nat) : Bool :=
  [0x1, 0x2, 0x4, 0x6, 0x8, 0x9, 0xA, 0x102, 0x103, 0x104, 0x105, 0x106, 0x108, 0x8001, 0x8003].contains c

/-- A select that counts such an event. -/
def openSelect (v : W32) : Bool := bit v 31 && openEvent (fld v 15 0)

/-- The bits of a counter register, LO or HI, that such an event leaves open. -/
def openBits (hi : Bool) : W32 := if hi then 0x8000FFFF else 0xFFFFFFFF

/-- The bits of a register whose value the spec leaves open once the module is READY: counts of such events and of traffic, retries
and errors below the commands of this model, and the power of one die (log entry 37). -/
def openMask (s : State) (a : Nat) : W32 :=
  let p := pageOf a
  let o := a % 4096
  if !bit (reg s (pBoot + Off.bootStat)) 31 then 0
  else match classOf p with
  | 0x0A => if o = Off.mcnMctrLo + 32 ∨ o = Off.mcnMctrLo + 36 then openBits (decide (o = Off.mcnMctrLo + 36)) else 0
  | 0x17 => if o = Off.ethEcnMark ∨ o = Off.ethCnpTx ∨ o = Off.ethRetx then 0xFFFFFFFF else 0
  | 0x1A => if o = Off.pciAerCorr ∨ o = Off.pciAerUncorr then 0xFFFFFFFF else 0
  | 0x43 => if o = Off.hstHits ∨ o = Off.hstMisses ∨ o = Off.hstInval then 0xFFFFFFFF else 0
  | 0x45 =>
    if Off.cntTctrLo ≤ o ∧ o < Off.cntTctrLo + 512 ∧ openSelect (reg s (p + Off.cntTsel + (o - Off.cntTctrLo) / 8 * 4)) then
      openBits (decide (o % 8 = 4))
    else if Off.cntHctrLo ≤ o ∧ o < Off.cntHctrLo + 128 ∧ openSelect (reg s (p + Off.cntHsel + (o - Off.cntHctrLo) / 8 * 4)) then
      openBits (decide (o % 8 = 4))
    else 0
  | 0x48 =>
    if o = Off.netFlitsLo ∨ o = Off.netFlitsHi ∨ o = Off.netRetry then 0xFFFFFFFF else if o = Off.netHcMax then 0xFFFF else 0
  | 0x50 => if o = Off.diePower then 0xFFFF else 0
  | 0x51 => if o = Off.spnFlitsLo ∨ o = Off.spnFlitsHi ∨ o = Off.spnRetry then 0xFFFFFFFF else 0
  | 0x52 => if o = Off.d2dCrcErr ∨ o = Off.d2dRetry ∨ o = Off.d2dBytesLo ∨ o = Off.d2dBytesHi then 0xFFFFFFFF else 0
  | _ => 0

/-- What a register address reads as, without the effects of a read: 0 where there is no page or no register (R56, R58). -/
def regShown (s : State) (a : Nat) : W32 :=
  let p := pageOf a
  let o := a % 4096
  if !pageLive s p || (rowAt a).isNone then 0
  else if o = Off.pageId then pageId p
  else if o = Off.pageCap then pageCap p
  else if o = Off.pageStat then pageStat s p
  else if o < 0x100 then reg s a
  else match hamletOf p with
    | some h => hamView s h p o a
    | none => if p < 0x2000000 then hubView s p o a else dieView s p o a

/-- A register read: open bits are free values (log entry 8). -/
def regView (s : State) (a : Nat) : W32 :=
  let m := openMask s a
  if m = 0 then regShown s a else (regShown s a &&& ~~~m) ||| (Config.freeWord (s.freeCtr + a % 4096 / 4) &&& m)

/-- The next read draws other free values. -/
def drawPage (s : State) : State := { s with freeCtr := s.freeCtr + 1024 }

end Sys2Proof.Machine
end

