-- ==== Sys2Proof/Machine/Census.lean ====
section
/-! DEFINITION. Counter selection (R614 to R617) and the census (R619 to R623). -/

namespace Sys2Proof.Machine

/-! ### Selects and clears (R615, R616) -/

/-- A code that a tile's select may name; 0 counts nothing. -/
def tileEvent (c : Nat) : Bool := decide (c ≤ 0xA) || (decide (0x8001 ≤ c) && decide (c ≤ 0x8004))

/-- A code that a hamlet's select may name. -/
def hamEvent (c : Nat) : Bool :=
  decide (c = 0) || (decide (0x101 ≤ c) && decide (c ≤ 0x108)) || decide (c = 0x8001) || decide (c = 0x8003) || decide (c = 0x8004)

/-- The LO register of the counter that a select steers, if the address is a select's, and whether it is a tile's. -/
def selectOf (a : Nat) : Option (Nat × Bool) :=
  let o := a % 4096
  if classOf (pageOf a) ≠ 0x45 then none
  else if Off.cntTsel ≤ o ∧ o < Off.cntTsel + 256 then some (pageOf a + Off.cntTctrLo + 2 * (o - Off.cntTsel), true)
  else if Off.cntHsel ≤ o ∧ o < Off.cntHsel + 64 then some (pageOf a + Off.cntHctrLo + 2 * (o - Off.cntHsel), false)
  else none

/-- A write of a select: a code outside the table or of the wrong scope is refused, and a change clears the counter. -/
def selectWrite (w : Writer) (a : Nat) (v : W32) (s : State) : State :=
  match selectOf a with
  | none => s
  | some (c, tile) =>
    let x := writeCore w a v false (fun _ n => if (if tile then tileEvent else hamEvent) (fld n 15 0) then some n else none) s
    if x.ok && decide (x.old ≠ x.new) then setReg (setReg x.st c 0) (c + 4) 0 else x.st

def execCounterSelectWrite (w : Writer) (addr : Nat) (v : W32) (s : State) : Res :=
  checked (.counterSelectWrite w addr v) (when (selectOf addr).isSome (selectWrite w addr v) s)

/-- The offset of a counter register of a CNT page, in any bank. -/
def isCounter (o : Nat) : Bool := (decide (0x300 ≤ o) && decide (o < 0x500)) || (decide (0x540 ≤ o) && decide (o < 0x5C0))

/-- A write of CNT.CTL: CLEAR sets every counter of the page, and every OVF, to 0. -/
def counterCtl (w : Writer) (p : Nat) (v : W32) (s : State) : State :=
  let x := writePlain w (p + Off.cntCtl) v s
  if x.ok && bit x.wo 0 then
    { x.st with regs := x.st.regs.filter (fun e =>
        !(decide (pageOf (e.1 % 0x20000000) = p) && isCounter (e.1 % 4096))) }
  else x.st

def execCounterClear (w : Writer) (page : Nat) (v : W32) (s : State) : Res := checked (.counterClear w page v) (counterCtl w page v s)

/-! ### The census record (R623) -/

/-- The hub pages whose images the record holds, in its order: MCN, YLK, ETH, PEN, CRI, NTM, FTM. -/
def censusPages : List Nat :=
  [pMcn] ++ (List.range 16).map (fun i => pYlk0 + 4096 * i) ++ (List.range 4).map (fun i => pEth0 + 4096 * i) ++ [pPen, pCri] ++
  (List.range 8).map ntmPg ++ (List.range 8).map (fun i => pFtm0 + 4096 * i)

/-- Bytes of the record. -/
def censusBytes : Nat := 0x228000

/-- The offset of hamlet h's block. -/
def censusHam (h : Nat) : Nat := 0x1000 + h * 0x4000

/-- A select or counter register of a CNT page goes to this offset of its hamlet's block: `k` its offset in the page, `t` its bank. A
counter's OVF, bit 31 of HI, is bit 63 of its 8 bytes. -/
def censusOff (k t : Nat) : Option Nat :=
  if 0x200 ≤ k ∧ k < 0x300 then some (t * 256 + (k - 0x200))
  else if 0x300 ≤ k ∧ k < 0x500 then some (0x1100 + t * 512 + (k - 0x300))
  else if 0x500 ≤ k ∧ k < 0x540 then some (0x3300 + (k - 0x500))
  else if 0x540 ≤ k ∧ k < 0x5C0 then some (0x3340 + (k - 0x540))
  else none

/-- The registers of a hamlet's CNT page, of a tile's bank or of the hamlet, copied into the record. -/
def shadowCnt (s : State) (h : Nat) (tile : Option Nat) (m : Memory) : Memory :=
  s.regs.foldl (fun m e =>
    let a := e.1 % 0x20000000
    let t := e.1 / 0x20000000
    let k := a % 4096
    let mine := match tile with | some q => decide (k < 0x500) && decide (t = q) | none => decide (0x500 ≤ k)
    if pageOf a = cntPg h && mine then
      match censusOff k t with
      | some o => wrNat m (censusHam h + o) 4 e.2.toNat
      | none => m
    else m) m

/-- The counters of open events, whose values are free (log entry 37): select registers from `sel` on, `n` of them, bank `t`. -/
def shadowOpen (s : State) (h sel n t out : Nat) (m : Memory) : Memory :=
  (List.range n).foldl (fun m i =>
    if openSelect (regAt s (cntPg h + sel + 4 * i) t) then
      wrNat m (censusHam h + out + 8 * i) 8
        ((Config.freeWord (s.freeCtr + 2 * i)).toNat + 2 ^ 32 * (Config.freeWord (s.freeCtr + 2 * i + 1) &&& openBits true).toNat)
    else m) m

/-- The image of a hub page copied into the record. -/
def shadowPage (s : State) (i p : Nat) (m : Memory) : Memory :=
  (List.range 1024).foldl (fun m k => wrNat m (0x201000 + i * 0x1000 + 4 * k) 4 (regView s (p + 4 * k)).toNat) m

/-- What the unit of a page puts into the shadow: a tile its selects and counters, a hamlet's counter unit the hamlet's, a hub unit the
image of its page; any other unit has nothing that the record holds. -/
def shadowOf (s : State) (p : Nat) (m : Memory) : Memory :=
  match hamletOf p with
  | some h =>
    if !hamletOn s h then m
    else if classOf p = 0x40 then shadowOpen s h Off.cntTsel 64 (instanceOf p) (0x1100 + instanceOf p * 512) (shadowCnt s h (some (instanceOf p)) m)
    else if classOf p = 0x45 then shadowOpen s h Off.cntHsel 16 0 0x3340 (shadowCnt s h none m)
    else m
  | none => match censusPages.findIdx? (fun q => decide (q = p)) with | some i => shadowPage s i p m | none => m

/-- The units whose shadows the record holds. -/
def censusUnits (s : State) : List Nat :=
  (hamletsOn s).flatMap (fun h => (List.range 17).map (tilPg h) ++ [cntPg h]) ++ censusPages

/-- A unit records, once per census (R620). -/
def censusMark (s : State) (p : Nat) : State :=
  match s.census with
  | none => s
  | some c =>
    if c.done.contains p then s
    else drawPage { s with census := some { c with done := c.done ++ [p], last := s.time, shadow := shadowOf s p c.shadow } }

def execCensusMarker (page : Nat) (s : State) : Res := checked (.censusMarker page) (censusMark s page)

/-- The head of the record. -/
def censusHead (s : State) (c : CensusRun) : List Byte :=
  bytesOf 4 0x534E4543 ++ bytesOf 4 (c.id + (if c.origin.isSome then 2 ^ 24 else 0)) ++ bytesOf 8 c.start ++ bytesOf 8 c.last ++
  bytesOf 2 c.mepoch ++ bytesOf 2 (modId s) ++ bytesOf 2 (c.origin.getD 0xFFFE)

/-- The record is written, once every unit has recorded: those that no marker has reached yet record now (R623). -/
def censusEnd (s : State) : State :=
  match s.census with
  | none => s
  | some _ =>
    let s := (censusUnits s).foldl censusMark s
    match s.census with
    | none => s
    | some c =>
      let a := pair s (pMcn + Off.mcnCenBaseLo) % 2 ^ 50
      let body := wrBytes c.shadow 0 (censusHead s c)
      let s := { s with mem := body.foldl (fun m e => wrB m (a + e.1) e.2) (zeroRange s.mem a censusBytes), census := none }
      let s := countM s (if a < farBase then 1 else 3) censusBytes
      intBit (setReg s (pMcn + Off.mcnCenStat) (w32 (2 ^ 30 + c.id))) pMcn 0

def execCensusDone (s : State) : Res := checked .censusDone (censusEnd s)

/-! ### Starting a census (R619) -/

/-- A census starts. -/
def censusStart (s : State) (id : Nat) (origin : Option Nat) : State :=
  { setReg s (pMcn + Off.mcnCenStat) (w32 (2 ^ 31 + id)) with
    census := some { id := id, origin := origin, start := s.time, mepoch := s.mepoch, done := [], last := s.time, shadow := [] } }

/-- A write of MCN.CEN_GO: GO while BUSY is ignored and counted; with BCAST it also originates a CENSUS packet. -/
def censusGo (w : Writer) (v : W32) (s : State) : State :=
  let x := writePlain w (pMcn + Off.mcnCenGo) v s
  if !x.ok || !bit x.wo 31 then x.st
  else if x.st.census.isSome then errInc x.st pMcn
  else
    let id := fld v 23 0
    let s := censusStart x.st id none
    if bit v 30 then criNew s 0xFFFF 3 (bytesOf 4 id ++ List.replicate 44 0) else s

def execCensusStart (w : Writer) (v : W32) (s : State) : Res := checked (.censusStart w v) (censusGo w v s)

/-- A CENSUS packet: while BUSY it is not applied and counted; ARGS that are not as laid down are not applied (log entry 37). -/
def censusIn (s : State) (k : Crier) : State :=
  if s.census.isSome then intBit (bump s (pMcn + Off.mcnCenDrop) 1) pMcn 1
  else if criArg k 3 45 ≠ 0 then s
  else censusStart s (criArg k 0 3) (some k.origin)

def execCensus (p : Crier) (s : State) : Res := checked (.census p) (criIn { p with typ := 3 } (fun s => censusIn s p) s)

end Sys2Proof.Machine
end

