-- ==== Sys2Proof/Machine/Halt.lean ====
section
/-! DEFINITION. The HALT input (R574 to R579). -/

namespace Sys2Proof.Machine

def hltA : Nat := pHlt + Off.hltStat

/-- HLT.STAT.HALT. -/
def halted (s : State) : Bool := bit (reg s hltA) 31

/-- N of R576: HLT.CFG.DISC, 5 to 200. -/
def hltN (s : State) : Nat := min 200 (max 5 (regF s (pHlt + Off.hltCfg) 7 0))

/-- The halt comes into force: no further step is released; `code` names the record that step 5 of R578 writes. -/
def haltEnter (s : State) (code : Nat) : State :=
  let s' := { s with hltRec := s.hltRec ++ [code], hltClr := false }
  if halted s then s' else intBit (bump (setRegF { s' with hltSaved := false } hltA 31 31 1) (pHlt + Off.hltHaltCnt) 1) pHlt 0

/-- CLEAR_OK at the end of a run of agreed de-asserted samples, and at any other sample (R579). -/
def hltClearOk (s : State) (ok : Bool) : State :=
  let was := bit (reg s hltA) 29
  let s := setRegF s hltA 29 29 (if ok then 1 else 0)
  if ok && !was then intBit s pHlt 2 else s

/-- An agreed sample sets the agreed state at once, and ends a run of disagreeing ones (R576). -/
def hltAgreed (s : State) (asserted : Bool) : State :=
  let short := decide (0 < s.hltRun) && decide (s.hltRun < hltN s)
  let s := if short then bump s (pHlt + Off.hltDiscCnt) 1 else s
  let was := bit (reg s hltA) 26
  let s := setRegF { s with hltRun := 0 } hltA 26 26 (if asserted then 1 else 0)
  if asserted then
    let s := hltClearOk { s with hltOk := 0 } false
    if was && halted s then { s with hltClr := false } else haltEnter s 1
  else
    let n := min 1000 (s.hltOk + 1)
    hltClearOk { s with hltOk := n } (decide (n = 1000))

/-- A disagreeing sample; the Nth in a row is a HALT fault, which seals what the ledger holds (R80, R576). -/
def hltDisagree (s : State) : State :=
  let n := s.hltRun + 1
  let s := hltClearOk { s with hltRun := n, hltOk := 0 } false
  if n < hltN s ∨ (hltN s < n ∧ bit (reg s hltA) 30 = true) then s
  else haltEnter (intBit (sealPartial (setRegF s hltA 30 30 1)) pHlt 1) 2

/-- The sample taken every 100 µs (R575). -/
def haltSample (s : State) (a b : Bool) (now : Nat) : State :=
  if now < s.hltAt + 100000 then s
  else
    let s := { advance s now with hltAt := now }
    let s := setRegF (setRegF s hltA 28 28 (if a then 1 else 0)) hltA 27 27 (if b then 1 else 0)
    if !a && b then hltAgreed s true else if a && !b then hltAgreed s false else hltDisagree s

def execHaltSample (a b : Bool) (now : Nat) (s : State) : Res := checked (.haltSample a b now) (haltSample s a b now)

/-- No partition has a step in flight, or a learner's step whose commit is still to be made (step 2 of R578). -/
def allAtBoundary (s : State) : Bool := s.parts.all (fun e => !e.2.inStep && !e.2.commitWait)

/-- Steps 3 to 5 of R578, once every step in flight has ended: the loft checkpoint (R604), the floor (R521) and the HALT records. -/
def haltSaved (s : State) : State :=
  if !halted s || !allAtBoundary s || (s.hltSaved && s.hltRec.isEmpty) then s
  else
    let s := if s.hltSaved then s else haltFloor (loftCkpt s) true
    let s := s.hltRec.foldl (fun s c =>
      bbr s { cat := 4, code := c, loc := pHlt, arg0 := (reg s hltA).toNat, arg1 := (reg s (pHlt + Off.hltDiscCnt)).toNat }) s
    { s with hltSaved := true, hltRec := [] }

def execHaltCheckpointDone (s : State) : Res := checked .haltCheckpointDone (haltSaved s)

/-- A write of HLT.ACK: GO is refused while CLEAR_OK is 0, else it clears the halt once step 3 is complete (R579). -/
def haltAck (w : Writer) (v : W32) (s : State) : State :=
  let x := writeCore w (pHlt + Off.hltAck) v false (fun _ n => if bit v 0 && !bit (reg s hltA) 29 then none else some n) s
  if x.ok && bit x.wo 0 && halted s then { x.st with hltClr := true } else x.st

def execHaltAck (w : Writer) (v : W32) (s : State) : Res := checked (.haltAck w v) (haltAck w v s)

/-- The clear: the halt and any latched fault end, the islands rise and releases resume (R579). -/
def haltClear (s : State) : State :=
  if !s.hltClr || !s.hltSaved || !s.hltRec.isEmpty then s
  else
    let s := setRegF (setRegF s hltA 31 31 0) hltA 30 30 0
    let s := bbr s { cat := 4, code := 3, loc := pHlt, arg0 := (reg s hltA).toNat, arg1 := 0 }
    haltFloor { s with hltClr := false, hltSaved := false } false

def execHaltClear (s : State) : Res := checked .haltClear (haltClear s)

end Sys2Proof.Machine
end

