-- ==== Sys2Proof/Machine/Health.lean ====
section
/-! DEFINITION. Tile tests (R561, R562), RAS.LAST_MM (R560) and the loft mirror of the black-box record (R582). -/

namespace Sys2Proof.Machine

/-- The logical tiles that a physical tile runs. -/
def onTile (s : State) (h q : Nat) : List Nat :=
  (List.range 16).filter (fun l => bit (tmap s h l) 31 && decide (physOf s h l = q))

/-- A tile is freed for its test: its logical tiles move to the spare, to come back at a later boundary (R561). -/
def testFree (s : State) (h q : Nat) : State :=
  match freeSpare s h with
  | none => s
  | some sp =>
    let ls := onTile s h q
    if ls.isEmpty then s
    else
      let s := ls.foldl (fun s t => moveTile s h t sp) (setRegF s (hamPgOf h + Off.hamFold) 31 31 0)
      let s := setHam s h { getHam s h with testBack := ls.map (fun t => (t, q)) }
      intBit (refreshMaps s h) (hamPgOf h) 0

/-- What the test's result does: passes counted up to eight, which make a SUSPECT tile OK; a failure is recorded and makes the tile
SUSPECT or retires it (R562). -/
def testResult (s : State) (h q : Nat) (pass : Bool) : State :=
  let s := bump s (pRas + Off.rasTests) 1
  if pass then
    let n := min 8 (getD (getHam s h).tstate q 0 / 4 + 1)
    setTileSt s h q (if n = 8 then 0 else tileSt s h q) n
  else
    let s := bump s (pRas + Off.rasTestFail) 1
    tileBad (bbr s { cat := 8, code := 2, loc := tilPg h q, arg0 := tileNo h q }) h q

/-- A tile's test, at a step boundary; a tile in FAULT or RETIRED is not tested. Without a free spare the tile keeps its logical tiles,
and the test is the shadowing of a step (R561). -/
def tileTest (s : State) (h q : Nat) (pass : Bool) : State :=
  let x := getHam s h
  if !tileWorks s h q || x.retired || !hamletOn s h || !x.bound || s.dark then s
  else
    let s := testResult (testFree s h q) h q pass
    if pass then s else hamRemaps s h

def execTileTest (hamlet tile : Nat) (pass : Bool) (s : State) : Res :=
  checked (.tileTest hamlet tile pass) (tileTest s hamlet tile pass)

/-- Clearing RAS.LAST_MM.VALID (R560). -/
def execRasLastMmClear (w : Writer) (v : W32) (s : State) : Res :=
  checked (.rasLastMmClear w v) (clearValid w (pRas + Off.rasLastMm) v [] s)

/-- The ID of the mirror object, TYPE 0x04; a new one where there is none. -/
def mirrorObj (s : State) : Nat :=
  match s.loft.find? (fun e => decide (e.2.typ = 4) && decide (e.2.st ≠ 2)) with
  | some e => e.1
  | none => freshObj s

/-- Records that the mirror keeps (R582). -/
def mirrorSlots : Nat := 268435456

/-- Records not yet mirrored and still in the MRAM ring are copied to the mirror, while the loft can take them; BBR.MIRROR is the
highest number mirrored (R582). -/
def bbrMirror (s : State) : State :=
  let head := pair s (pBbr + Off.bbrHeadLo)
  let done := pair s (pBbr + Off.bbrMirrorLo)
  let first := max ((done + 1) % 2 ^ 64) (head + 1 - bbrSlots)
  if loftState s = 3 || decide (head = done) || decide (head = 2 ^ 64 - 1) then s
  else
    let i := mirrorObj s
    let o := (getObj s i).getD { typ := 4, st := 0, fetchable := false, len := 0, created := 0, digest := [], data := [] }
    let data := (List.range (head + 1 - first)).foldl (fun m k =>
      let q := first + k
      wrBytes m (64 * (q % mirrorSlots)) (rdBytes s.mram (64 * (q % bbrSlots)) 64)) o.data
    let len := 64 * min mirrorSlots (head + 1)
    let o := { o with
      len := len, data := data, created := s.time, digest := sha384 (rdBytes data 0 len) }
    setPair (loftCounts (setObj s i o)) (pBbr + Off.bbrMirrorLo) head

def execBbrMirror (s : State) : Res := checked .bbrMirror (bbrMirror s)

end Sys2Proof.Machine
end

