-- ==== Sys2Proof/Machine/HostIf.lean ====
section
/-! DEFINITION. The host interface: doorbells and rings (R486 to R491), functions (R480 to R482, R490), function-level reset (R501),
and the memory apertures (R477, R478, R483, R484). -/

namespace Sys2Proof.Machine

/-! ### Doorbells (R61, R486 to R489, R491) -/

/-- The page that counts a doorbell write (R61, R491). -/
def dbPage (fn : Nat) (viaPf : Bool) : Nat := if viaPf || decide (fn = 0x200) then pPci else fncPg fn

/-- An ignored doorbell write (R489). -/
def dbIgnore (s : State) (pg : Nat) : State :=
  let s := bump s (pg + Off.fncDbBad) 1
  if pg = pPci then s else intBit s pg 2

/-- The doorbell that an offset names: page 0 or 1 at its offset 0. A VF has 4 KiB pages, and the PF's view of a function,
like its own page, has page 1 at 0x800 (R61, R491). -/
def dbTarget (fn : Nat) (viaPf : Bool) (off : Nat) : Option Nat :=
  if off = 0 then some 0
  else if off = (if viaPf || decide (fn = 0x200) then 0x800 else 0x1000) then some 1
  else none

/-- Doorbells of a function are accepted: it is enabled and no FLR is pending (R489); the PF's always are. -/
def dbOn (s : State) (fn : Nat) : Bool := decide (fn = 0x200) || (fnOn s fn && !bit (reg s (fncPg fn + Off.fncStat)) 31)

/-- Entries of a function's command ring; 0 when it is disabled. -/
def cqSize (s : State) (fn : Nat) : Nat := let k := regF s (fncPg fn + Off.fncRings) 4 0; if k = 0 then 0 else 2 ^ k

def cqCons (s : State) (fn : Nat) : W32 := reg s (fncPg fn + Off.fncCmdqCons)
def cqProdOf (s : State) (fn : Nat) : W32 := getD s.cqProd fn 0

/-- A producer count from page 0 (R486, R489). -/
def cqRing (s : State) (fn pg : Nat) (v : W32) : State :=
  if !dbOn s fn || decide (cqSize s fn = 0) || decide (cqSize s fn < (v - cqCons s fn).toNat) then dbIgnore s pg
  else
    let s := { s with cqProd := putDef s.cqProd fn v 0 }
    if v = cqCons s fn then { s with cqOrder := s.cqOrder.filter (· ≠ fn) }
    else { s with cqOrder := if s.cqOrder.contains fn then s.cqOrder else s.cqOrder ++ [fn] }

/-- A consumer count from page 1; waiting STATUS records take the room that it makes (R487 to R489). -/
def hrRing (s : State) (fn pg : Nat) (v : W32) : State :=
  let cons := fncPg fn + Off.fncHringCons
  if !dbOn s fn || decide (hrLog s fn = 0) || decide (hrUsed s fn < (v - reg s cons).toNat) then dbIgnore s pg
  else
    let s := setReg s cons v
    hrNotify s (hrDrain s fn)

/-- A doorbell write: counted, and accepted or ignored (R61, R489). -/
def doorbell (fn : Nat) (viaPf : Bool) (off size : Nat) (v : W32) (s : State) : State :=
  let pg := dbPage fn viaPf
  let s := bump s (pg + Off.fncDbWrites) 1
  if size ≠ 4 then dbIgnore s pg
  else match dbTarget fn viaPf off with
    | some 0 => cqRing s fn pg v
    | some _ => hrRing s fn pg v
    | none => dbIgnore s pg

def execCmdqDoorbell (fn : Nat) (viaPf : Bool) (off size : Nat) (v : W32) (s : State) : Res :=
  checked (.cmdqDoorbell fn viaPf off size v) (doorbell fn viaPf off size v s)

def execHringDoorbell (fn : Nat) (viaPf : Bool) (off size : Nat) (v : W32) (s : State) : Res :=
  checked (.hringDoorbell fn viaPf off size v) (doorbell fn viaPf off size v s)

/-- The next entry of a command ring, as it stands in host memory, is fetched and reaches the hub (R277, R486): functions in
the order of their doorbells, and none while the function is disabled or under FLR. -/
def fetchEntry (s : State) (fn : Nat) (e : W256) : State :=
  if s.cqOrder.head? ≠ some fn || !dbOn s fn || decide (cqCons s fn = cqProdOf s fn) then s
  else
    let c := cqCons s fn + 1
    let s := setReg s (fncPg fn + Off.fncCmdqCons) c
    let s := if c = cqProdOf s fn then { s with cqOrder := s.cqOrder.filter (· ≠ fn) } else s
    hrNotify s (hubPut s (.cmd fn e s.time))

def execCommandFetch (fn : Nat) (entry : W256) (s : State) : Res := checked (.commandFetch fn entry) (fetchEntry s fn entry)

/-! ### Functions (R480 to R482) -/

/-- A field of OWNER that the module itself sets, with INT_STAT.OWNER_CHG where it changes. -/
def ownerSet (s : State) (p hi lo v : Nat) : State :=
  let a := p + Off.owner
  if regF s a hi lo = v then s else intBit (setRegF s a hi lo v) p 29

/-- SR-IOV NumVFs (PCI.LINK). -/
def numVfs (s : State) : Nat := regF s (pPci + Off.pciLink) 15 0

/-- The slot range that a SLOTS value gives: first slot and count. -/
def slotSpan (v : W32) : Nat × Nat := (fld v 29 16, fld v 14 0)

/-- Function `n` enabled with a SLOTS value would overlap another enabled function (R482). -/
def slotsOverlap (s : State) (n : Nat) (v : W32) : Bool :=
  let a := slotSpan v
  decide (0 < a.2) && (List.range 512).any (fun m => decide (m ≠ n) && fnOn s m &&
    (let b := slotSpan (reg s (fncPg m + Off.fncSlots)); decide (0 < b.2) && decide (a.1 < b.1 + b.2) && decide (b.1 < a.1 + a.2)))

/-- The value that a write of FNC.CFG leaves (R480, R482). -/
def cfgAdj (s : State) (n : Nat) (old new : W32) : Option W32 :=
  if bit new 31 && !bit old 31 then
    if numVfs s ≤ n then some (setBit new 31 false)
    else if slotsOverlap s n (reg s (fncPg n + Off.fncSlots)) then none
    else some new
  else if bit old 31 && !bit new 31 && decide (activeOf s n ≠ 0) then some (setBit new 31 true)
  else some new

/-- A write of FNC.CFG: ENABLE refused is counted; a function that is enabled or disabled takes or gives up its page, and
when it is enabled its budgets are filled (R285, R480, R482). -/
def fncCfgWrite (w : Writer) (n : Nat) (v : W32) (s : State) : State :=
  let a := fncPg n + Off.fncCfg
  let x := writeCore w a v false (cfgAdj s n) s
  if !x.ok then x.st
  else
    let t := if bit x.new 31 = bit v 31 then x.st else errInc x.st (fncPg n)
    if bit x.new 31 && !bit x.old 31 then budFill (ownerSet t (fncPg n) 9 0 n) n
    else if bit x.old 31 && !bit x.new 31 then ownerSet t (fncPg n) 9 0 0x3FF
    else t

def execFunctionEnable (w : Writer) (fn : Nat) (v : W32) (s : State) : Res :=
  checked (.functionEnable w fn v) (fncCfgWrite w fn v s)

def execFunctionDisable (w : Writer) (fn : Nat) (v : W32) (s : State) : Res :=
  checked (.functionDisable w fn v) (fncCfgWrite w fn v s)

/-- A write of FNC.SLOTS: refused while requests of the function stand, or where two enabled functions would overlap
(R482). -/
def fncSlotsWrite (w : Writer) (n : Nat) (v : W32) (s : State) : State :=
  (writeCore w (fncPg n + Off.fncSlots) v false (fun old new =>
    if (old ≠ new ∧ activeOf s n ≠ 0) ∨ (fnOn s n && slotsOverlap s n new) = true then none
    else some new) s).st

/-- A write of FNC.PMASK: a bit stays while a request of the function names its partition (R481). -/
def fncPmaskWrite (w : Writer) (n : Nat) (v : W32) (s : State) : State :=
  (writeCore w (fncPg n + Off.fncPmask) v false (fun old new =>
    if s.reqs.any (fun e => decide (e.2.st ≠ stFree) && decide (e.2.func = n) && bit old e.2.part && !bit new e.2.part) then none
    else some new) s).st

/-! ### Rings (R487, R488, R490) -/

/-- Fetched commands of a function that are not yet applied are discarded (R490, R501). -/
def dropFetched (s : State) (n : Nat) : State :=
  { s with hub := s.hub.filter (fun i => match i with | .cmd f _ _ => decide (f ≠ n) | _ => true) }

/-- The command ring starts again at 0 (R490). -/
def cqReset (s : State) (n : Nat) : State :=
  let s := setReg (dropFetched s n) (fncPg n + Off.fncCmdqCons) 0
  { s with cqProd := delS s.cqProd n, cqOrder := s.cqOrder.filter (· ≠ n) }

/-- The host ring starts again at 0; waiting STATUS records go to it, or are dropped where it is disabled (R488, R490). -/
def hrReset (s : State) (n : Nat) : State :=
  let p := fncPg n
  let s := setReg (setReg s (p + Off.fncHringProd) 0) (p + Off.fncHringCons) 0
  if hrLog s n = 0 then
    { hrDrop s n (getD s.hrWait n []).length with hrWait := delS s.hrWait n }
  else hrNotify s (hrDrain s n)

/-- The function whose rings a register address belongs to, 0x200 for the PF. -/
def ringOwner (a : Nat) : Option Nat :=
  if classOf (pageOf a) = 0x1B then some (a / 4096 - 0x100)
  else if pageOf a = pPci then some 0x200 else none

/-- A write of a ring register: CMDQ_BASE, HRING_BASE or RINGS (R490); the HI half of a base only waits (R651). -/
def ringWrite (w : Writer) (a : Nat) (v : W32) (s : State) : State :=
  let x := writePlain w a v s
  let o := a % 4096
  match x.ok, ringOwner a with
  | true, some n =>
    if o = Off.fncCmdqBaseLo then cqReset x.st n
    else if o = Off.fncHringBaseLo then hrReset x.st n
    else if o = Off.fncRings then
      let t := if fld x.old 4 0 = fld x.new 4 0 then x.st else cqReset x.st n
      if fld x.old 12 8 = fld x.new 12 8 then t else hrReset t n
    else x.st
  | _, _ => x.st

def execRingBaseWrite (w : Writer) (addr : Nat) (v : W32) (s : State) : Res := checked (.ringBaseWrite w addr v) (ringWrite w addr v s)

/-! ### Function-level reset (R501, R502) -/

/-- FLR of a function begins (R501). Its requests send nothing more, and each is freed at a boundary (R502). -/
def flrBegin (s : State) (n : Nat) : State :=
  let p := fncPg n
  if bit (reg s (p + Off.fncStat)) 31 then s
  else
    let s := cqReset (setRegF s (p + Off.fncStat) 31 31 1) n
    let s := [Off.fncSeedLo, Off.fncSeedHi, Off.fncCmdqBaseLo, Off.fncCmdqBaseHi, Off.fncHringBaseLo, Off.fncHringBaseHi, Off.fncRings,
              Off.fncHringProd, Off.fncHringCons].foldl (fun s o => setReg s (p + o) (resetOf (p + o))) s
    { s with
      hrWait := delS s.hrWait n,
      reqs := s.reqs.map (fun e => if e.2.func = n ∧ e.2.st ≠ stFree then (e.1, { e.2 with mute := true }) else e) }

def execFlr (fn : Nat) (s : State) : Res := checked (.flr fn) (flrBegin s fn)

/-- FLR completes, at most 10 ms after it began (R501). -/
def flrEnd (s : State) (n : Nat) : State :=
  let a := fncPg n + Off.fncStat
  if bit (reg s a) 31 then intBit (setRegF s a 31 31 0) (fncPg n) 0 else s

def execFlrComplete (fn : Nat) (s : State) : Res := checked (.flrComplete fn) (flrEnd s fn)

/-! ### Apertures (R477, R478, R483, R484) -/

/-- A module offset lies in one of the tiers (R372). -/
def assignedOff (a : Nat) : Bool := decide (a < nearEnd) || (decide (farBase ≤ a) && decide (a < farEnd))

/-- A byte as the host reads it: a byte of a poisoned line is a free value (R380; log entry 8), an unassigned one reads 0. -/
def aperByte (s : State) (a i : Nat) : Byte :=
  if !assignedOff a then 0
  else if (poisoned s a 1).isSome then BitVec.ofNat 8 (Config.freeWord (s.freeCtr + i)).toNat
  else rdB s.mem a

/-- `n` bytes from a module offset read by the host. -/
def aperRead (s : State) (a n : Nat) : State :=
  { s with resp := (List.range n).map (fun i => aperByte s (a + i) i), freeCtr := s.freeCtr + n }

/-- Bytes written by the host: those at unassigned offsets are discarded. -/
def aperWrite (s : State) (a : Nat) (bs : List Byte) : State :=
  if (List.range bs.length).all (fun i => assignedOff (a + i)) then memWrite s a bs
  else ((List.range bs.length).zip bs).foldl (fun s x => if assignedOff (a + x.1) then memWrite s (a + x.1) [x.2] else s) s

/-- An access of the PF through BAR4, which no ownership restrains (R478). -/
def pfAccess (off : Nat) (write : Bool) (n : Nat) (data : List Byte) (s : State) : State :=
  let a := regF s (pPci + Off.pciAperBase) 13 0 * 2 ^ 36 + off
  let len := if write then data.length else n
  let s := if (List.range len).all (fun i => assignedOff (a + i)) then s else bump s (pPci + Off.pciAperErr) 1
  if write then aperWrite s a data else aperRead s a n

def execApertureAccess (off : Nat) (write : Bool) (n : Nat) (data : List Byte) (s : State) : Res :=
  checked (.apertureAccess off write n data) (pfAccess off write n data s)

/-- An access of a VF through BAR2: entry `off` div 256 MiB of its allocation table (R483, R484). -/
def vfAccess (fn off : Nat) (write : Bool) (n : Nat) (data : List Byte) (s : State) : State :=
  let e := allocEntry s fn (off / 0x10000000)
  let o := off % 0x10000000
  let len := if write then data.length else n
  if e.2.2 % 2 = 0 ∨ e.2.1 < o + len ∨ (write = true ∧ e.2.2 / 2 % 2 = 0) then
    let s := bump s (fncPg fn + Off.fncAperErr) 1
    if write then s else { s with resp := List.replicate n 0 }
  else if write then aperWrite s (gOff e.1 + o) data
  else aperRead s (gOff e.1 + o) n

def execVfApertureAccess (fn off : Nat) (write : Bool) (n : Nat) (data : List Byte) (s : State) : Res :=
  checked (.vfApertureAccess fn off write n data) (vfAccess fn off write n data s)

end Sys2Proof.Machine
end

