-- ==== Sys2Proof/Machine/Packets.lean ====
section
/-! DEFINITION. Packets that arrive (R425 to R430, R451 to R454, R457, R458): the epoch check, duplicates and order, access checks,
and the effect of each OP. -/

namespace Sys2Proof.Machine

/-! ### Duplicates and order (R427, R428) -/

def rxKey (src vc : Nat) : Nat := src * 8 + vc
def rxWin (s : State) (key : Nat) : RxWin := getD s.fab.rx key ⟨0, []⟩

/-- A SEQ has been applied. -/
def rxSeen (w : RxWin) (q : Nat) : Bool := decide (2 ^ 31 ≤ (q + 2 ^ 32 - w.low) % 2 ^ 32) || w.above.contains q

/-- The window moved past SEQs that have been applied. -/
def rxSlide : Nat → RxWin → RxWin
  | 0, w => w
  | n + 1, w => if w.above.contains w.low then rxSlide n ⟨(w.low + 1) % 2 ^ 32, w.above.filter (fun x => decide (x ≠ w.low))⟩ else w

/-- A SEQ marked as applied. -/
def rxMark (s : State) (key q : Nat) : State :=
  let w := rxWin s key
  let w := { w with above := q :: w.above }
  { s with fab := { s.fab with rx := putS s.fab.rx key (rxSlide w.above.length w) } }

/-! ### Access checks (R429, R430, R452, R453) -/

/-- A module is in a partition's peer set, as taken at the last release (R500). -/
def peerOk (s : State) (p m : Nat) : Bool :=
  let x := getPart s p
  decide (x.st ≠ .free) && (bit x.peerCnt 31 ||
    (List.range (min 65536 (fld x.peerCnt 16 0))).any (fun i => decide (rdNat s.mem (x.peerBase % 2 ^ 50 + 2 * i) 2 = m)))

/-- A refused access, counted (R429, R452). -/
def refuse (s : State) : State × Bool := (bump s (pPen + Off.penRefused) 1, true)

/-- An access of the port engine, counted when it is applied. -/
def applied (s : State) : State × Bool := (bump s (pPen + Off.penRxPkt) 1, false)

/-- A LOAD or STORE is admitted: a local address that the partition may access, from a peer (R377, R429, R430). -/
def physAdmits (s : State) (k : Packet) (write : Bool) : Bool :=
  peerOk s k.part k.src && decide (k.addr < 2 ^ 52) && (penBad s k.part k.addr k.len write).isNone

/-- A region-table entry that is VALID: its address and its second word (R452). -/
def region (s : State) (p h : Nat) : Option (Nat × Nat) :=
  let x := getPart s p
  let a := x.regBase % 2 ^ 50 + 16 * h
  let w := rdNat s.mem (a + 8) 8
  if h < min 1021 x.regCnt ∧ w / 2 ^ 63 % 2 = 1 then some (rdNat s.mem a 8, w) else none

/-- The local address that a PUT or GET names, where R452, the peer set and R377 and R388 admit it. -/
def regionAt (s : State) (k : Packet) (write : Bool) : Option Nat :=
  match region s k.part (k.addr / 2 ^ 48) with
  | none => none
  | some (base, w) =>
    let off := k.addr % 2 ^ 48
    if w / (if write then 2 ^ 62 else 2 ^ 61) % 2 = 1 ∧ off + k.len ≤ w % 2 ^ 48 ∧ peerOk s k.part k.src = true ∧
        (penBad s k.part (base + off) k.len write).isNone = true then some (base + off)
    else none

/-! ### The effect of each OP -/

/-- LOAD: the bytes go back in a LOAD_RESP with the request's TAG. A line that is poisoned is delivered to no one (R380; log entry
36). -/
def loadApply (s : State) (k : Packet) : State × Bool :=
  if !physAdmits s k false || (spanPoison s k.part 128 k.addr k.len).isSome then refuse s
  else
    let bs := spanRead s k.part 128 k.addr k.len
    (sendPkt (spanTouch s k.part 128 k.addr k.len) k.src 1 2 0 k.part k.tag k.addr k.len bs .none, false)

/-- STORE: the bytes are written. -/
def storeApply (s : State) (k : Packet) : State × Bool :=
  if physAdmits s k true then (spanWrite s k.part 128 k.addr k.data, false) else refuse s

/-- The bytes that a unit asked for have come: they are written where it wanted them. -/
def wantTake (s : State) (w : Want) (data : List Byte) : State :=
  let s := { s with fab := { s.fab with wants := s.fab.wants.filter (fun x => decide (x ≠ w)) } }
  if w.h = 129 then fetchData s (w.addr / 2 ^ 48) (w.addr % 2 ^ 48) data
  else
    let s := spanWrite s w.part w.h w.addr data
    if w.h < 128 then cartPoll s w.h else s

/-- LOAD_RESP: matched by TAG. -/
def loadRespApply (s : State) (k : Packet) : State × Bool :=
  match s.fab.wants.find? (fun w => decide (w.tag = k.tag) && decide (w.dst = k.src) && decide (w.h < 128)) with
  | some w => (wantTake s w k.data, false)
  | none => (s, false)

/-- GET_RESP: matched by its source and ADDR. -/
def getRespApply (s : State) (k : Packet) : State × Bool :=
  match s.fab.wants.find? (fun w => decide (w.raddr = k.addr) && decide (w.dst = k.src) && decide (128 ≤ w.h)) with
  | some w => applied (wantTake s w k.data)
  | none => applied s

/-- A PUT that uses a reserved handle as R453 admits it; 0x3FE is an echo when it comes from a monitor of this module, else a
heartbeat (log entry 36). -/
def reservedPut (s : State) (k : Packet) : State × Bool :=
  let h := k.addr / 2 ^ 48
  let off := k.addr % 2 ^ 48
  if h = 0x3FD ∧ k.vc = 4 ∧ off = 0 ∧ k.len = 8 then
    applied (epochAcked s k.src (ofBytes (k.data.take 4)))
  else if h = 0x3FE ∧ k.vc = 6 ∧ off = 0 ∧ k.len = 16 then
    applied (if (monitors s).contains k.src then echoApply s k.src else hbApply s k.src)
  else if h = 0x3FF ∧ k.vc = 4 then applied (shardPacket s k.src off k.data)
  else refuse s

/-- PUT: the bytes are written, then RCTR is incremented (R443, R452, R453). VC5 carries shipped KV frames (R304, R421). -/
def putApply (s : State) (k : Packet) : State × Bool :=
  if k.vc = 5 then (if shipAdmits s k.src k.addr k.len then (memWrite s (gOff k.addr) k.data, false) else refuse s)
  else if 0x3FD ≤ k.addr / 2 ^ 48 then reservedPut s k
  else match regionAt s k true with
    | none => refuse s
    | some a =>
      let s := spanWrite s k.part 128 a k.data
      let c := k.tag % 65536
      applied (if c < 256 then penInc s k.part c else s)

/-- GET: the bytes go back in a GET_RESP (R452, R454). -/
def getApply (s : State) (k : Packet) : State × Bool :=
  match (if 0x3FD ≤ k.addr / 2 ^ 48 then none else regionAt s k false) with
  | none => refuse s
  | some a =>
    if (spanPoison s k.part 128 a k.len).isSome then refuse s
    else
      let bs := spanRead s k.part 128 a k.len
      applied (sendPkt (spanTouch s k.part 128 a k.len) k.src 1 6 (k.flags % 2) k.part 0 k.addr k.len bs .none)

/-- A contribution of a child: written into its slot, and counted with its NF (R457 to R459). -/
def redUp (s : State) (k : Packet) (d : PenDesc) : State × Bool :=
  let q := k.addr / 2 ^ 41 % 2
  let j := k.addr / 2 ^ 42 % 16
  let off := k.addr % 2 ^ 40
  let a := slotAt d q j + off
  if pdArity d ≤ j ∨ pdLen d < off + k.len ∨ (penBad s k.part a k.len true).isSome then refuse s
  else
    let s := spanWrite s k.part 128 a k.data
    let x := getPart s k.part
    let key := arrKey (k.addr / 2 ^ 52) (k.addr / 2 ^ 46 % 64) q j (off / pdSeg d)
    let old := getD x.arrived key (0, false)
    applied (setPart s k.part { x with arrived := putS x.arrived key (old.1 + k.len, old.2 || k.flags / 2 % 2 = 1) })

/-- A result from the parent: written to DST; a whole segment is passed on (R457). -/
def redDown (s : State) (k : Packet) (d : PenDesc) (f : Firing) : State × Bool :=
  let i := k.addr / 2 ^ 46 % 64
  let off := k.addr % 2 ^ 40
  let g := off / pdSeg d
  let a := pdDst d + off
  if pdLen d < off + k.len ∨ (penBad s k.part a k.len true).isSome then refuse s
  else
    let s := spanWrite s k.part 128 a k.data
    let n := getD f.down (segKey i g) 0 + k.len
    let nf := k.flags / 2 % 2 = 1
    let f := { f with down := putS f.down (segKey i g) n, nf := if nf && !f.nf.contains (segKey i g) then f.nf ++ [segKey i g] else f.nf }
    let s := setFir s k.part f
    applied (if n = segLen d g then
      segResult s k.part f d i g (f.nf.contains (segKey i g)) (spanRead s k.part 128 (pdDst d + g * pdSeg d) (segLen d g))
    else s)

/-- REDUCE_PUT: ADDR names chain, descriptor, child, parity and direction (R451). A result for which no firing of that parity waits is
refused (log entry 36). -/
def reduceApply (s : State) (k : Packet) : State × Bool :=
  let chain := k.addr / 2 ^ 52
  let i := k.addr / 2 ^ 46 % 64
  let q := k.addr / 2 ^ 41 % 2
  match (if peerOk s k.part k.src then chainHdr s k.part chain else none) with
  | none => refuse s
  | some c =>
    let d := chainDesc s c i
    if c.ndesc ≤ i ∨ pdOp d ≠ 3 ∨ pdBad d = true then refuse s
    else if k.addr / 2 ^ 40 % 2 = 0 then redUp s k d
    else match (getPart s k.part).firings.find? (fun f => decide (f.chain = chain) && decide (f.k % 2 = q) && decide (i < f.started)) with
      | some f => redDown s k d f
      | none => refuse s

/-- The effect of a packet by its OP; the second part says that it is refused. An unassigned OP has none (log entry 36). -/
def pktEffect (s : State) (k : Packet) : State × Bool :=
  match k.op with
  | 1 => loadApply s k
  | 2 => loadRespApply s k
  | 3 => storeApply s k
  | 4 => putApply s k
  | 5 => getApply s k
  | 6 => getRespApply s k
  | 7 => reduceApply s k
  | _ => (s, false)

/-! ### Arrival -/

/-- A packet applied, or refused, and acknowledged (R427, R429). -/
def pktTake (s : State) (k : Packet) : State :=
  let x := pktEffect (rxMark s (rxKey k.src k.vc) k.seq) k
  sendAck x.1 k x.2

/-- ORDERED packets of a source and VC that were held and whose turn has come (R428). -/
def heldGo (src vc : Nat) : Nat → State → State
  | 0, s => s
  | n + 1, s =>
    match s.fab.held.find? (fun k => decide (k.src = src) && decide (k.vc = vc) && decide (k.seq = (rxWin s (rxKey src vc)).low)) with
    | none => s
    | some k => heldGo src vc n (pktTake { s with fab := { s.fab with held := s.fab.held.filter (fun x => decide (x ≠ k)) } } k)

/-- A packet that is not an ACK arrives: epoch check, duplicates, order, effect and acknowledgement (R425 to R429). -/
def pktIn (k : Packet) (s : State) : State :=
  if s.quar then s
  else if k.mepoch ≠ s.mepoch then epochDrop s k.port k.mepoch
  else
    let w := rxWin s (rxKey k.src k.vc)
    if rxSeen w k.seq then sendAck s k false
    else if k.flags % 2 = 1 ∧ k.seq ≠ w.low then
      (if s.fab.held.any (fun x => decide (x.src = k.src) && decide (x.vc = k.vc) && decide (x.seq = k.seq)) then s
       else { s with fab := { s.fab with held := s.fab.held ++ [k] } })
    else heldGo k.src k.vc s.fab.held.length (pktTake s k)

/-- A fetch of a shard that its source refuses has failed: after three the slot is BAD (R355; log entry 36). -/
def fetchRefused (s : State) (n off : Nat) : State :=
  let y := getSlot s n
  match y.fetch.find? (fun f => decide (f.1.off ≤ off) && decide (off < f.1.off + f.1.len)) with
  | none => s
  | some f =>
    let k := getD y.fails f.1.idx 0 + 1
    let mine (w : Want) : Bool := decide (w.h = 129) && decide (n * 2 ^ 48 + f.1.off ≤ w.addr) && decide (w.addr < n * 2 ^ 48 + f.1.off + f.1.len)
    let s := setSlot s n { y with fails := putDef y.fails f.1.idx k 0 }
    let s := { s with fab := { s.fab with wants := s.fab.wants.filter (fun w => !mine w) } }
    if 3 ≤ k then slotBad s n 1 else refetch s n f.1

/-- A refused packet faults the job that sent it; its answer is no longer awaited (R429). A refused fetch of a shard counts as
failed, and a refused mirror is not complete (log entry 36). -/
def refusedBack (s : State) (u : Sent) : State :=
  let asks := decide (u.pkt.op = 1) || decide (u.pkt.op = 5)
  let mine (w : Want) : Bool := asks && decide (w.dst = u.pkt.dst) && decide (w.raddr = u.pkt.addr) && decide (w.owner = u.owner)
  let lost := s.fab.wants.filter mine
  let s := { s with fab := { s.fab with wants := s.fab.wants.filter (fun w => !mine w) } }
  let s := lost.foldl (fun s w => if w.h = 129 then fetchRefused s (w.addr / 2 ^ 48) (w.addr % 2 ^ 48) else s) s
  let s := { s with mirrors := s.mirrors.filter (fun m => decide (u.owner ≠ .mirror m.part)) }
  ownerFault s u.owner 2 u.pkt.addr

/-- ACK: SEQs from SEQ on, TAG[15:0] of them, on the VC that ADDR names, are acknowledged; TAG bit 31 says refused (R424, R427,
R429). -/
def ackIn (k : Packet) (s : State) : State :=
  if s.quar then s
  else if k.mepoch ≠ s.mepoch then epochDrop s k.port k.mepoch
  else
    let hit (u : Sent) : Bool := decide (u.pkt.dst = k.src) && decide (u.pkt.vc = k.addr % 8) && decide ((u.pkt.seq + 2 ^ 32 - k.seq) % 2 ^ 32 < k.tag % 65536)
    let us := s.fab.unacked.filter hit
    let s := { s with fab := { s.fab with unacked := s.fab.unacked.filter (fun u => !hit u) } }
    let s := if k.tag / 2 ^ 31 = 1 then us.foldl refusedBack s else s
    let s := us.foldl (fun s u => match u.owner with | .cart h => cartPoll s h | _ => s) s
    mirAcked s

/-- A packet of any OP but CRIER arrives. -/
def pktArrive (k : Packet) (s : State) : State := if k.op = 8 then ackIn k s else pktIn k s

def execLoad (p : Packet) (s : State) : Res := checked (.load p) (pktIn { p with op := 1 } s)
def execLoadResp (p : Packet) (s : State) : Res := checked (.loadResp p) (pktIn { p with op := 2 } s)
def execStore (p : Packet) (s : State) : Res := checked (.store p) (pktIn { p with op := 3 } s)
def execPut (p : Packet) (s : State) : Res := checked (.put p) (pktIn { p with op := 4 } s)
def execGet (p : Packet) (s : State) : Res := checked (.get p) (pktIn { p with op := 5 } s)
def execGetResp (p : Packet) (s : State) : Res := checked (.getResp p) (pktIn { p with op := 6 } s)
def execReducePut (p : Packet) (s : State) : Res := checked (.reducePut p) (pktIn { p with op := 7 } s)
def execAck (p : Packet) (s : State) : Res := checked (.ack p) (ackIn { p with op := 8 } s)

/-! ### Heartbeats and echoes as commands (R564, R570) -/

/-- A heartbeat or an echo arrives on VC6: like every packet it meets the epoch check and the check for duplicates, and it is
acknowledged. -/
def hbIn (src mepoch seq : Nat) (f : State → State) (s : State) : State :=
  let k : Packet := { dst := modId s, src := src, mepoch := mepoch, op := 4, flags := 0, len := 16, part := 0, seq := seq, tag := 0xFFFF,
                      addr := 0x3FE * 2 ^ 48, data := [], vc := 6, port := 0 }
  if s.quar then s
  else if mepoch ≠ s.mepoch then epochDrop s 0 mepoch
  else if rxSeen (rxWin s (rxKey src 6)) seq then sendAck s k false
  else sendAck (applied (f (rxMark s (rxKey src 6) seq))).1 k false

def execHeartbeat (src mepoch seq : Nat) (s : State) : Res :=
  checked (.heartbeat src mepoch seq) (hbIn src mepoch seq (fun s => hbApply s src) s)

def execEcho (src mepoch seq : Nat) (s : State) : Res :=
  checked (.echo src mepoch seq) (hbIn src mepoch seq (fun s => echoApply s src) s)

end Sys2Proof.Machine
end

