-- ==== Sys2Proof/Machine/PartCmds.lean ====
section
/-! DEFINITION. Partition commands (R494 to R500, R503, R659). -/

namespace Sys2Proof.Machine

/-! ### What CREATE asks for -/

/-- The bits of `k` mask registers that follow one another, as numbers. -/
def maskBits (s : State) (a k : Nat) : List Nat := (List.range (32 * k)).filter (fun n => bit (reg s (a + 4 * (n / 32))) (n % 32))

/-- Hamlets, pseudo-channels, role, pool, EXCLUSIVE and spill slots as the registers name them. -/
def askHams (s : State) (p : Nat) : List Nat := maskBits s (prtPg p + Off.prtHam) 4
def askPcs (s : State) (p : Nat) : List Nat := maskBits s (prtPg p + Off.prtPc) 8
def askLearner (s : State) (p : Nat) : Bool := bit (reg s (prtPg p + Off.prtMode)) 31
def askPool (s : State) (p : Nat) : Nat := regF s (prtPg p + Off.prtMode) 30 29
def askSpill (s : State) (p : Nat) : Nat := regF s (prtPg p + Off.prtMode) 2 0
def askExcl (s : State) (p : Nat) : Bool := bit (reg s (prtPg p + Off.prtExcl)) 0

/-- The module has a hamlet that can join a partition. -/
def hamFree (s : State) (h : Nat) : Bool := hamletOn s h && !(getHam s h).retired && (getHam s h).part.isNone

/-- A pseudo-channel that can join a partition. -/
def pcFree (s : State) (n : Nat) : Bool := decide (pcState s n = 0) && decide (pcOwner s n = none) && pcEmpty s n

/-- The spill areas of `hams` hamlets in `npc` pseudo-channels fit (R496). -/
def spillFits (hams npc k : Nat) : Bool := decide (k = 0) || decide (hams = 0) || (decide (0 < npc) && decide (7 * k * ceilDiv hams npc ≤ 768))

/-- A request that is not FREE names the partition. -/
def reqNames (s : State) (p : Nat) : Bool := !(slotsOf s p).isEmpty

/-- The RESULT of a CREATE (R494, R496, R659). -/
def createResult (s : State) (p : Nat) : Nat :=
  let hams := askHams s p
  let pcs := askPcs s p
  let k := askSpill s p
  if (getPart s p).st ≠ .free then 1
  else if 4 < k ∨ (!askLearner s p ∧ askPool s p = 3) ∨ (k ≠ 0 ∧ (askLearner s p || askExcl s p) = true) then 8
  else if hams.isEmpty || !(hams.all (hamFree s)) then 2
  else if !(pcs.all (pcFree s)) then 3
  else if reg s (prtPg p + Off.prtWays) = 0 then 4
  else if reqNames s p then 5
  else if !spillFits hams.length pcs.length k then 7
  else 0

/-- The pages of a hamlet (R54). -/
def hamPages (h : Nat) : List Nat := (List.range 17).map (tilPg h) ++ (List.range 8).map (fun b => hamPg h (0x18 + b))

/-- OWNER.PARTITION of every page of a hamlet (R495). -/
def ownHam (s : State) (h : Nat) (p : Option Nat) : State :=
  (hamPages h).foldl (fun s g => ownerSet s g 15 10 (match p with | some n => 32 + n | none => 0)) s

/-- The owner of a pseudo-channel (R375, R495). -/
def ownPc (s : State) (n : Nat) (p : Option Nat) : State :=
  setRegF (setRegF s (pcStat n) 28 28 (if p.isSome then 0 else 1)) (pcStat n) 27 23 (p.getD 0)

/-- A partition becomes CREATED with what its registers name (R495, R496). -/
def createGo (s : State) (p : Nat) : State :=
  let old := getPart s p
  let ways := reg s (prtPg p + Off.prtWays)
  let hams := askHams s p
  let x : Part := { Part.init with
    st := .created, learner := askLearner s p, pool := askPool s p, exclusive := askExcl s p, spillSlots := askSpill s p,
    hams := hams, pcs := askPcs s p, ways := ways, gen := old.gen, orcQ := old.orcQ }
  let x := { x with
    limit := max 1 (regF s (prtPg p + Off.prtStepLimit) 23 0), peerBase := pair s (prtPg p + Off.prtPeerBaseLo),
    peerCnt := reg s (prtPg p + Off.prtPeerCnt) }
  let s := (askPcs s p).foldl (fun s n => ownPc s n (some p)) (setPart s p x)
  hams.foldl (fun s h =>
    let s := setReg (setReg (ownHam s h (some p)) (hstPg h + Off.hstWays) ways) (hstPg h + Off.hstFoldw) 0
    setHam s h { getHam s h with part := some p, bound := true, modeNow := reg s (hstPg h + Off.hstMode) }) s

/-! ### Results -/

/-- A command ends with a RESULT. -/
def prtEnd (s : State) (p res : Nat) : State :=
  intBit (setReg (setPart s p { getPart s p with cmd := 0 }) (prtPg p + Off.prtCmdStat) (w32 res)) (prtPg p) 0

/-- A command goes on: BUSY. -/
def prtBusy (s : State) (p op img : Nat) : State :=
  setReg (setPart s p { getPart s p with cmd := op, cmdImg := img }) (prtPg p + Off.prtCmdStat) 0x80000000

/-! ### The commands -/

def doCreate (s : State) (p : Nat) : State :=
  let r := createResult s p
  prtEnd (if r = 0 then createGo s p else s) p r

/-- DESTROY waits for the partition's boundary (R499). -/
def doDestroy (s : State) (p : Nat) (m : Bool) : State :=
  let x := getPart s p
  let r := if x.st ≠ .created ∧ x.st ≠ .running then 1 else if x.exclusive && !m then 8 else if reqNames s p then 5 else 0
  if r = 0 then prtBusy s p 2 0 else prtEnd s p r

/-- A partition that holds several images. -/
def multiImage (x : Part) : Bool := !x.learner && !x.exclusive

/-- LOAD_IMAGE: the checks, the registration, and for a single image its placement (R180, R497, R659). -/
def doLoad (s : State) (p i : Nat) : State :=
  let x := getPart s p
  let base := gOff (pair s (prtPg p + Off.prtImgBaseLo))
  let bad1 := if multiImage x then decide (x.st ≠ .created ∧ x.st ≠ .running) || decide (x.resident = some i) || decide (x.switchTo = some i) || (spillSlotOf x i).isSome
    else decide (x.st ≠ .created) || decide (i ≠ 0) || x.resident.isSome
  if bad1 then prtEnd s p 1
  else if !imageOk s p base || !imgInside s p base || decide (base % 256 ≠ 0) then prtEnd s p 6
  else
    let s := setPart s p { x with images := putS x.images i ⟨base, u64 s (base + 0x18)⟩ }
    if multiImage x then prtEnd (setPart s p { getPart s p with st := .running }) p 0
    else prtBusy (placeImage s p i) p 3 i

/-- RESET: the step in flight, or one whose commit is held, ends as faulted, the hamlets are cleared and the resident image is placed again (R503). -/
def doReset (s : State) (p : Nat) : State :=
  let x := getPart s p
  if x.st ≠ .running then prtEnd s p 1
  else
    let s := prtBusy (setPart s p { x with st := .resetting }) p 4 0
    let s := if x.inStep then endFaulted s p else s
    let s := if x.commitWait then setPart (outcome s p 2) p { getPart (outcome s p 2) p with commitWait := false } else s
    let s := reload s p
    if (getPart s p).placing then s else resetDone s p

/-- A write of PRT.GO: runs PRT.CMD, or is ignored while a command is BUSY (R494). -/
def prtGo (w : Writer) (p : Nat) (v : W32) (s : State) : State :=
  let x := writePlain w (prtPg p + Off.prtGo) v s
  if !x.ok || !bit x.wo 0 then x.st
  else
    let s := x.st
    let i := regF s (prtPg p + Off.prtCmd) 2 0
    if (getPart s p).cmd ≠ 0 then errInc s (prtPg p)
    else match regF s (prtPg p + Off.prtCmd) 31 24 with
      | 1 => doCreate s p
      | 2 => doDestroy s p (decide (w.cls = .m))
      | 3 => doLoad s p i
      | 4 => doReset s p
      | _ => prtEnd s p 8

/-- The row of one command: a write of PRT.GO while PRT.CMD names it. -/
def prtRow (op : Nat) (w : Writer) (p : Nat) (v : W32) (s : State) : State :=
  if regF s (prtPg p + Off.prtCmd) 31 24 = op then prtGo w p v s else s

def execCreate (w : Writer) (part : Nat) (v : W32) (s : State) : Res := checked (.create w part v) (prtRow 1 w part v s)
def execDestroy (w : Writer) (part : Nat) (v : W32) (s : State) : Res := checked (.destroy w part v) (prtRow 2 w part v s)
def execLoadImage (w : Writer) (part : Nat) (v : W32) (s : State) : Res := checked (.loadImage w part v) (prtRow 3 w part v s)
def execReset (w : Writer) (part : Nat) (v : W32) (s : State) : Res := checked (.reset w part v) (prtRow 4 w part v s)

/-! ### The end of a DESTROY (R499) -/

/-- Near-tier memory of a pseudo-channel written with zeros. -/
def pcZero (s : State) (n : Nat) : State :=
  { s with mem := zeroRange s.mem (n * pcBytes) pcBytes, poison := s.poison.filter (fun l => decide (64 * l / pcBytes ≠ n)) }

/-- The far frames of a partition, ascending. -/
def farFramesOf (s : State) (p : Nat) : List Nat :=
  let b := tableOff s (pFtm0 + Off.ftmFownBaseLo)
  (s.mem.filter (fun c => decide (b ≤ c.1) && decide (c.1 < b + 851968) && bit c.2 7 && decide (fld c.2 4 0 = p))).map (·.1 - b)

/-- A far frame zeroed and returned to the module. -/
def farGive (s : State) (f : Nat) : State :=
  let s := zeroFrame s 1 f
  { s with mem := wrB s.mem (tableOff s (pFtm0 + Off.ftmFownBaseLo) + f) 0 }

/-- A hamlet leaves its partition. -/
def hamGive (s : State) (h : Nat) : State :=
  let s := (List.range 16).foldl (fun s t => setStr s h t Stream.init) (unplaceHamlet s h)
  let s := setReg (setReg s (hamPgOf h + Off.hamPlace) 0) (hstPg h + Off.hstWays) 0
  let s := ownHam (refreshMaps s h) h none
  setHam s h { getHam s h with part := none, lham := 0, bound := true, store := [] }

/-- The partition reaches its boundary: memory zeroed, pages unmapped, far frames returned, PMASK bits cleared, FREE (R499). -/
def destroyEnd (s : State) (p : Nat) : State :=
  let x := getPart s p
  if x.cmd ≠ 2 ∨ x.inStep ∨ x.placing ∨ x.commitWait then s
  else
    let s := partClear s p
    let s := x.pcs.foldl pcZero s
    let us := ((mapped s).filter (fun e => decide (entryOwner (mapEntry s e.1) = some p))).map (·.1)
    let s := us.foldl unmapPage s
    let s := (farFramesOf s p).foldl farGive s
    let s := (List.range 512).foldl (fun s n => setRegF s (fncPg n + Off.fncPmask) p p 0) s
    let s := x.pcs.foldl (fun s n => ownPc s n none) s
    let s := x.hams.foldl hamGive s
    let s := setCurEpoch (setPart s p { Part.init with gen := x.gen, orcQ := x.orcQ, cmd := 2 }) p noEpoch
    prtEnd { s with pubs := s.pubs.filter (fun u => decide (u.1 ≠ p)), mirrors := s.mirrors.filter (fun m => decide (m.part ≠ p)) } p 0

def execDestroyProceed (part : Nat) (s : State) : Res := checked (.destroyProceed part) (destroyEnd s part)

end Sys2Proof.Machine
end

