-- ==== Sys2Proof/Machine/Registers.lean ====
section
/-! DEFINITION. The register window (R54 to R62, R651): a write of any register goes to the unit that its address names, and a read
returns what the register shows and clears what reading clears. -/

namespace Sys2Proof.Machine

/-! ### Writes that a register's own definition restricts -/

/-- A write of a LO register of a pair, refused where `bad` of the pair's new value holds: both halves stay, what was staged is gone,
and an error is counted (R285, R310). -/
def pairWrite (w : Writer) (a : Nat) (v : W32) (bad : State → Nat → Bool) (s : State) : State :=
  let x := writePlain w a v s
  if x.ok && bad s (pair x.st a) then errInc { s with staged := delS s.staged (regKey s a) } (pageOf a) else x.st

/-- ORC.BUD_BASE lies on this module, 16-byte aligned (R285). -/
def budBad (s : State) (b : Nat) : Bool :=
  let o := b % 2 ^ 50
  decide (b % 16 ≠ 0) || decide (b / 2 ^ 50 % 4 ≠ trayPos s) || decide (2 ^ 52 ≤ b) ||
    !(decide (o < nearEnd) || (decide (farBase ≤ o) && decide (o < farEnd)))

/-- The indexed KV pool has an allocated frame (R310). -/
def poolUsed (s : State) : Bool := !(kvUsedOf s (kvpIdx s)).isEmpty

/-- REQ registers: those of a pool do not change while it has an allocated frame (R310). -/
def reqWrite (w : Writer) (a : Nat) (v : W32) (s : State) : State :=
  let o := a % 4096
  if o = Off.reqLastRej then clearValid w a v [] s
  else if o = Off.reqKvpBaseLo then pairWrite w a v (fun s _ => poolUsed s) s
  else if o = Off.reqKvpFrames ∨ o = Off.reqKvpFbytes then
    (writeCore w a v false (fun _ n => if poolUsed s then none else some n) s).st
  else (writePlain w a v s).st

/-- A value of an ORC register outside its stated range (R311). -/
def orcBad (o : Nat) (n : W32) : Bool :=
  if o = Off.orcPChunk then decide (fld n 15 0 = 0)
  else if o = Off.orcPLimits then decide (fld n 31 16 = 0) || decide (fld n 12 0 = 0) || decide (4096 < fld n 12 0)
  else if o = Off.orcPGrnSize then (decide (1 ≤ fld n 4 0) && decide (fld n 4 0 ≤ 9)) || decide (27 ≤ fld n 4 0)
  else false

/-- An ORC write that waits for the partition's next boundary (R311). -/
def orcLater (s : State) (o n : Nat) : State :=
  let p := regF s (pOrc + Off.orcPidx) 4 0
  setPart s p { getPart s p with orcQ := (getPart s p).orcQ ++ [(o, n)] }

/-- ORC registers: the indexed ones act at the partition's next boundary, in order (R311). -/
def orcWrite (w : Writer) (a : Nat) (v : W32) (s : State) : State :=
  let o := a % 4096
  if o = Off.orcBudBaseLo then pairWrite w a v budBad s
  else if o = Off.orcPGrnBaseLo ∨ o = Off.orcPGrnTailLo then
    let x := writePlain w a v s
    if x.ok then orcLater x.st o (pair x.st a) else x.st
  else if o = Off.orcPChunk ∨ o = Off.orcPLimits ∨ o = Off.orcPGrnSize ∨ o = Off.orcPGrnReserve then
    let x := writeCore w a v false (fun _ n => if orcBad o v then none else some n) s
    if x.ok then orcLater x.st o x.new.toNat else x.st
  else (writePlain w a v s).st

/-- EPO registers (R358, R366, R369). -/
def epoWrite (w : Writer) (a : Nat) (v : W32) (s : State) : State :=
  let o := a % 4096
  if o = Off.epoLoadGo then loadGo w v s
  else if Off.epoSBase ≤ o ∧ o < Off.epoSBase + 48 ∧ (o - Off.epoSBase) % 16 ≤ 4 then
    slotRegWrite w ((o - Off.epoSBase) / 16) (decide ((o - Off.epoSBase) % 16 = 4)) v s
  else
    let x := writePlain w a v s
    if o = Off.epoCfg ∧ x.ok = true ∧ x.old ≠ x.new then { x.st with recheckAt := s.time + fld x.new 15 0 * 1000000000 } else x.st

/-- CKP registers: a new recheck period runs from its write (R596). -/
def ckpWrite (w : Writer) (a : Nat) (v : W32) (s : State) : State :=
  let o := a % 4096
  if o = Off.ckpRestore then ckpRestoreWrite w v [] [] s
  else
    let x := writePlain w a v s
    if o = Off.ckpRecheck ∧ x.ok = true ∧ x.old ≠ x.new then { x.st with ckCheckAt := s.time + fld x.new 15 0 * 1000000000 } else x.st

/-- MCN registers: P_TR_CFG and P_TR_BASE act at the partition's next step release (R628). -/
def mcnWrite (w : Writer) (a : Nat) (v : W32) (s : State) : State :=
  let o := a % 4096
  if o = Off.mcnCenGo then censusGo w v s
  else
    let x := writePlain w a v s
    if (o = Off.mcnPTrCfg ∨ o = Off.mcnPTrBaseLo) ∧ x.ok = true then
      let p := regF s (pMcn + Off.mcnPidx) 4 0
      setPart x.st p { getPart x.st p with trNew := true }
    else x.st

/-- PRT registers: what CREATE takes does not change while the partition is not FREE (R495). -/
def prtWrite (w : Writer) (a : Nat) (v : W32) (s : State) : State :=
  let o := a % 4096
  let p := a / 4096 - 0x300
  if o = Off.prtGo then prtGo w p v s
  else if (Off.prtHam ≤ o ∧ o ≤ Off.prtWays) ∨ o = Off.prtMode ∨ o = Off.prtExcl then
    (writeCore w a v false (fun _ n => if (getPart s p).st = .free then some n else none) s).st
  else (writePlain w a v s).st

/-- FNC registers (R480 to R482, R490). -/
def fncWrite (w : Writer) (a : Nat) (v : W32) (s : State) : State :=
  let o := a % 4096
  let n := a / 4096 - 0x100
  if o = Off.fncCfg then fncCfgWrite w n v s
  else if o = Off.fncPmask then fncPmaskWrite w n v s
  else if o = Off.fncSlots then fncSlotsWrite w n v s
  else ringWrite w a v s

/-- BOOT registers (R527, R532, R534, R543). -/
def bootWrite (w : Writer) (a : Nat) (v : W32) (s : State) : State :=
  let o := a % 4096
  if o = Off.bootReset then bootResetWrite w v ⟨s.tray, []⟩ s
  else if o = Off.bootSwitch then liveGo w v s
  else if o = Off.bootFail then bootFailWrite w v s
  else if o = Off.bootSvnCommit then svnCommit w v s
  else (writePlain w a v s).st

/-- The memory pages: VALID of ERR_ADDR, RETIRE and the map commands (R380, R384, R389). -/
def memWriteReg (w : Writer) (a : Nat) (v : W32) (s : State) : State :=
  let o := a % 4096
  let p := pageOf a
  if classOf p = 0x14 then
    if o = Off.ftmErrAddrHi then clearValid w a v [p + Off.ftmErrAddrLo] s
    else if o = Off.ftmMcmdGo ∧ p = pFtm0 then mapGo w v s
    else (writePlain w a v s).st
  else if o = Off.ntmErrAddrHi then clearValid w a v [p + Off.ntmErrAddrLo] s
  else if o = Off.ntmRetire then pcRetireWrite w p v s
  else (writePlain w a v s).st

/-! ### The registers by page (R55) -/

/-- A block-specific register of a hub page. -/
def hubWrite (w : Writer) (a : Nat) (v : W32) (s : State) : State :=
  let o := a % 4096
  match classOf (pageOf a) with
  | 0x03 => if o = Off.hltAck then haltAck w v s else (writePlain w a v s).st
  | 0x07 => bootWrite w a v s
  | 0x08 =>
    if o = Off.attExtGo then slotExtend w v s
    else if o = Off.attOwner then attOwnerWrite w v s else (writePlain w a v s).st
  | 0x09 => if o = Off.rasLastMm then clearValid w a v [] s else (writePlain w a v s).st
  | 0x0A => mcnWrite w a v s
  | 0x0B =>
    if o = Off.mbrId then mbrIdWrite w v s
    else if o = Off.mbrInit then mbrInit w v s else (writePlain w a v s).st
  | 0x0C => ckpWrite w a v s
  | 0x10 => reqWrite w a v s
  | 0x11 =>
    if o = Off.smpLastFault then clearValid w a v [] s
    else if o = Off.smpKcmTest then kcmStart w v s else (writePlain w a v s).st
  | 0x12 => epoWrite w a v s
  | 0x13 => orcWrite w a v s
  | 0x14 => memWriteReg w a v s
  | 0x15 => if o = Off.lftCmdGo then loftGo w v 0 0 [] s else (writePlain w a v s).st
  | 0x16 => if o = Off.ylkCfg then ylkCfgWrite w (instanceOf (pageOf a)) v s else (writePlain w a v s).st
  | 0x18 =>
    if o = Off.penFault then clearValid w a v [pPen + Off.penFaultAddrLo, pPen + Off.penFaultAddrHi] s
    else (writePlain w a v s).st
  | 0x19 => if o = Off.criTxGo then criTxGo w v s else (writePlain w a v s).st
  | 0x1A => ringWrite w a v s
  | 0x1B => fncWrite w a v s
  | 0x1C => prtWrite w a v s
  | _ => (writePlain w a v s).st

/-- A block-specific register of a tile's page. -/
def tilWrite (w : Writer) (a : Nat) (v : W32) (s : State) : State :=
  let o := a % 4096
  let p := pageOf a
  if o = Off.tilNfA then nfWrite w p false v none s
  else if o = Off.tilNfB then nfWrite w p true v none s
  else if o = Off.tilBndLo then bndStage w p false v s
  else if o = Off.tilBndHi then bndStage w p true v s
  else if o = Off.tilBndKey then bndKey w p v s
  else (writePlain w a v s).st

/-- A block-specific register of an ISL page, as one write of a broadcast or alone (R59, R509). -/
def islPut (bcast : Bool) (w : Writer) (h a : Nat) (v : W32) (s : State) : State :=
  let o := a % 4096
  if o = Off.islFreq then freqWrite bcast w h v s
  else if o = Off.islDroop then droopWrite bcast w h v s
  else if o = Off.islIdx then islIdxWrite bcast w h v s
  else (writeCore w a v bcast (fun _ n => some n) s).st

/-- CNT registers: a TIDX above 16 is refused. -/
def cntWrite (w : Writer) (a : Nat) (v : W32) (s : State) : State :=
  let o := a % 4096
  if o = Off.cntTidx then (writeCore w a v false (fun _ n => if fld n 4 0 ≤ 16 then some n else none) s).st
  else if o = Off.cntCtl then counterCtl w (pageOf a) v s
  else if (selectOf a).isSome then selectWrite w a v s
  else (writePlain w a v s).st

/-- A block-specific register of a hamlet's page. -/
def hamWrite (bcast : Bool) (w : Writer) (h a : Nat) (v : W32) (s : State) : State :=
  let o := a % 4096
  let p := pageOf a
  match classOf p with
  | 0x40 => tilWrite w a v s
  | 0x42 => if o = Off.atsFault then clearValid w a v [] s else (writePlain w a v s).st
  | 0x44 => islPut bcast w h a v s
  | 0x45 => cntWrite w a v s
  | 0x46 => if o = Off.updFault then clearValid w a v [] s else (writePlain w a v s).st
  | 0x47 =>
    if o = Off.crtFault then clearValid w a v [p + Off.crtFaultAddrLo, p + Off.crtFaultAddrHi] s
    else (writePlain w a v s).st
  | _ => (writePlain w a v s).st

/-- A register of the common page header (R60 to R69). -/
def headerWrite (bcast : Bool) (w : Writer) (a : Nat) (v : W32) (s : State) : State :=
  let o := a % 4096
  let p := pageOf a
  if o = Off.pageCtl then pageCtlPut bcast w p v s
  else if o = Off.intStat then intStatPut bcast w p v 0 s
  else if o = Off.intEn then intEnPut bcast w p v s
  else if o = Off.intForce then intForcePut bcast w p v s
  else if o = Off.owner then ownerPut bcast w p v s
  else (writeCore w a v bcast (fun _ n => some n) s).st

/-- An aligned 4-byte write to a register address outside the broadcast domain. -/
def regPut (bcast : Bool) (w : Writer) (a : Nat) (v : W32) (s : State) : State :=
  if !pageLive s (pageOf a) then errInc s pMod
  else if a % 4096 < 0x100 then headerWrite bcast w a v s
  else match hamletOf (pageOf a) with
    | some h => hamWrite bcast w h a v s
    | none => if a < 0x2000000 then hubWrite w a v s else memWriteReg w a v s

/-- The same register on compute die `d`, of a domain-0xF address (R54). -/
def dieAddr (d a : Nat) : Nat := (d + 1) * 0x2000000 + a % 0x2000000

/-- A write to domain 0xF: to each die whose page exists, in order; rejected as a whole where the page takes no broadcast (R59). -/
def bcastPut (w : Writer) (a : Nat) (v : W32) (s : State) : State :=
  if classOf (pageOf (dieAddr 0 a)) ≠ 0x44 then errInc s pMod
  else (List.range 4).foldl (fun s d => if pageLive s (pageOf (dieAddr d a)) then regPut true w (dieAddr d a) v s else s) s

/-- Domain 0xF of a register address. -/
def isBcast (a : Nat) : Bool := decide (a / 0x2000000 = 15)

/-- A 4-byte write. -/
def regWrite4 (w : Writer) (a : Nat) (v : W32) (s : State) : State :=
  if a % 4 ≠ 0 then errInc s pMod
  else if isBcast a then bcastPut w a v s
  else regPut false w a v s

/-- A register write of 4 or 8 bytes; an 8-byte one is two of 4, the higher address first. Any other has no effect and counts (R57). -/
def regWrite (w : Writer) (a size : Nat) (v : W64) (s : State) : State :=
  if size = 4 then regWrite4 w a (w32 v.toNat) s
  else if size = 8 ∧ a % 8 = 0 then regWrite4 w a (w32 v.toNat) (regWrite4 w (a + 4) (w32 (v.toNat >>> 32)) s)
  else errInc s pMod

def execRegisterWrite (w : Writer) (addr size : Nat) (v : W64) (s : State) : Res :=
  checked (.registerWrite w addr size v) (regWrite w addr size v s)

/-- A write to domain 0xF (R59). -/
def execBroadcastWrite (w : Writer) (addr : Nat) (v : W32) (s : State) : Res :=
  checked (.broadcastWrite w addr v) (when (isBcast addr) (regWrite4 w addr v) s)

/-- What the address's register is in a pair written HI first: 1 LO, 2 HI, 0 none (R651). -/
def pairKind (a : Nat) : Nat := match rowAt a with | some r => r.kind | none => 0

/-- The write of the HI register of a pair is staged (R651). -/
def execPairHiWrite (w : Writer) (addr : Nat) (v : W32) (s : State) : Res :=
  checked (.pairHiWrite w addr v) (when (decide (pairKind addr = 2)) (regWrite4 w addr v) s)

/-- The write of the LO register of a pair sets both halves (R651). -/
def execPairLoWrite (w : Writer) (addr : Nat) (v : W32) (s : State) : Res :=
  checked (.pairLoWrite w addr v) (when (decide (pairKind addr = 1)) (regWrite4 w addr v) s)

/-- A class X write that a crier packet carries, with SOURCE its ORIGIN, on a page with PAGE_CAP.X_CAPABLE: no register names class X,
so every one is rejected (R18, R70, R468). -/
def criWrite (k : Crier) (s : State) : State :=
  regWrite4 { cls := .x, path := 5, fn := 0, source := k.origin, mepoch := k.mepoch, onM := false } (criArg k 0 4) (w32 (criArg k 4 4)) s

def execRegWrite (p : Crier) (s : State) : Res := checked (.regWrite p) (criIn { p with typ := 4 } (criWrite p) s)

/-! ### Reads (R17, R19, R56 to R58, R62, R614, R618) -/

/-- The effects of reading a register: a captured HI half is given up, a LO register captures its HI, and RC fields go to reset. -/
def readEffect (s : State) (a : Nat) : State :=
  match rowAt a with
  | none => s
  | some r =>
    let s := { s with capt := delS s.capt (regKey s a) }
    let s := if r.cap then { s with capt := putS s.capt (regKey s (a + 4)) (regView s (a + 4)) } else s
    if r.rc = 0 then s else setReg s a ((reg s a &&& ~~~(w32 r.rc)) ||| (resetOf a &&& w32 r.rc))

/-- A 4-byte read of a register address: its value, and the state after it. -/
def regRead1 (s : State) (a : Nat) : W32 × State :=
  if !pageLive s (pageOf a) then (0, if isBcast a then errInc s pMod else s)
  else match rowAt a with
    | none => (0, s)
    | some _ =>
      let x := readEffect s a
      (getD s.capt (regKey s a) (regView s a), if openMask s a = 0 then x else drawPage x)

/-- The home partition of a function. -/
def homeOf (s : State) (n : Nat) : Nat := regF s (fncPg n + Off.fncCfg) 4 0

/-- Another function is assigned to a SHARED partition (R618). -/
def homeShared (s : State) (n : Nat) : Bool :=
  let p := homeOf s n
  !(getPart s p).exclusive && (List.range 512).any (fun m => decide (m ≠ n) && bit (reg s (fncPg m + Off.fncPmask)) p)

/-- The select of a counter register names a code of 0x8000 or above. -/
def counterHidden (s : State) (a : Nat) : Bool :=
  let o := a % 4096
  let p := pageOf a
  if o < 0x500 then bit (reg s (p + Off.cntTsel + (o - 0x300) / 8 * 4)) 15 else bit (reg s (p + Off.cntHsel + (o - 0x540) / 8 * 4)) 15

/-- A 4-byte read through the BAR0 of a VF (R61, R62, R618). -/
def vfRead1 (s : State) (n off : Nat) : W32 × State :=
  if off < 0x1000 then regRead1 s (fncPg n + off)
  else if off < 0x80000 ∨ 0x100000 ≤ off then (0, s)
  else match (getPart s (homeOf s n)).hams[(off - 0x80000) / 4096]? with
    | none => (0, s)
    | some h =>
      let a := cntPg h + off % 4096
      if isCounter (off % 4096) && (homeShared s n || counterHidden s a) then (0, s) else regRead1 s a

/-- A read of 4 or 8 bytes by the PF, or through the BAR0 of a VF: an 8-byte one is two of 4, the lower address first; any other reads
zero and counts (R57). -/
def regRead (s : State) (a size : Nat) (vf : Option Nat) : State :=
  let one (s : State) (a : Nat) : W32 × State := match vf with | none => regRead1 s a | some n => vfRead1 s n a
  if size = 4 ∧ a % 4 = 0 then
    let x := one s a
    { x.2 with resp := bytesOf 4 x.1.toNat }
  else if size = 8 ∧ a % 8 = 0 then
    let x := one s a
    let y := one x.2 (a + 4)
    { y.2 with resp := bytesOf 4 x.1.toNat ++ bytesOf 4 y.1.toNat }
  else { errInc s pMod with resp := List.replicate size 0 }

/-- A read of a LO register that captures its HI register. -/
def execPairLoRead (addr size : Nat) (vf : Option Nat) (s : State) : Res :=
  checked (.pairLoRead addr size vf) (regRead s addr size vf)

/-- A read of a register, which clears its RC fields. -/
def execRcRead (addr size : Nat) (vf : Option Nat) (s : State) : Res := checked (.rcRead addr size vf) (regRead s addr size vf)

/-! ### Quiescing (R64, R652) -/

/-- The unit of a page holds no accepted operation. -/
def unitIdle (s : State) (p : Nat) : Bool :=
  match hamletOf p with
  | some h =>
    let x := getHam s h
    match classOf p with
    | 0x40 => (List.range 16).all (fun t => !(bit (tmap s h t) 31 && decide (physOf s h t = instanceOf p)) || (getStr s h t).inflight.isEmpty)
    | 0x42 => x.ats.isNone && x.atsQ.isEmpty
    | 0x46 => x.upd.isNone && x.updQ.isEmpty
    | 0x47 => x.cart.isNone && x.cartQ.isEmpty && decide (x.spill = 0)
    | _ => false
  | none =>
    if p = pPen then decide (penActive s = 0)
    else if p = pLft then s.lcmd.isNone
    else if p = pFtm0 then s.mcmd.isNone
    else false

/-- A quiescing unit has stopped at an operation boundary. -/
def unitQuiesced (s : State) (p : Nat) : State :=
  if regF s (p + Off.pageStat) 2 0 = 2 ∧ bit (reg s (p + Off.pageCtl)) 1 = true ∧ unitIdle s p = true then
    intBit (setPState (setRegF s (p + Off.pageStat) 3 3 1) p 3) p 30
  else s

def execUnitQuiesced (page : Nat) (s : State) : Res := checked (.unitQuiesced page) (unitQuiesced s page)

end Sys2Proof.Machine
end

