-- ==== Sys2Proof/Machine/Links.lean ====
section
/-! DEFINITION. Flits as a port receives them (R417 to R423), and the packets that they carry (R424, R425). -/

namespace Sys2Proof.Machine

/-- The header fields of a flit (R417). -/
structure FlitHead where
  crc : Nat
  seq : Nat
  ack : Nat
  vc : Nat
  typ : Nat
  cvc : Nat
  ccnt : Nat
deriving DecidableEq, Repr

/-- The header of 256 flit bytes. -/
def flitHead (bs : List Byte) : FlitHead :=
  let h := ofBytes (bs.take 8)
  { crc := h / 2 ^ 32, seq := h / 2 ^ 22 % 1024, ack := h / 2 ^ 12 % 1024, vc := h / 2 ^ 9 % 8, typ := h / 2 ^ 6 % 8, cvc := h / 2 ^ 3 % 8,
    ccnt := h % 8 }

/-- The CRC holds: over header bits [31:0] and bytes 8 to 255. -/
def flitGood (bs : List Byte) : Bool := decide (crc32 (bs.take 4 ++ bs.drop 8) = (flitHead bs).crc)

/-- A CTRL or an IDLE flit of this port: neither takes a sequence number. -/
def linkSay (s : State) (p typ : Nat) (payload : List Byte) : State :=
  let x := stamp (getLink s p)
    { seq := 0, ack := 0, vc := 0, typ := typ, cvc := 0, ccnt := 0, payload := payload ++ List.replicate (248 - payload.length) 0 }
  putFlit (setLink s p x.1) p x.2

/-- A flit is discarded: the first time, a NAK with the expected SEQ goes out (R419). -/
def flitDrop (s : State) (p : Nat) : State :=
  let l := getLink s p
  if l.nak then s else linkSay (setLink s p { l with nak := true }) p 5 ([0x01, 0x00] ++ bytesOf 2 l.exp)

/-- ACK and CCNT of a flit that is taken: flits leave the retry buffer, and credits come back (R419, R422). -/
def flitCredits (s : State) (p : Nat) (h : FlitHead) : State :=
  setLink s p (addCredit (linkAcked (getLink s p) ((h.ack + 1) % 1024)) h.cvc h.ccnt)

/-- Control flits: NAK and RETRAIN (R417). -/
def ctrlIn (s : State) (p : Nat) (payload : List Byte) : State :=
  match (payload.headD 0).toNat with
  | 1 => nakIn s p (ofBytes ((payload.drop 2).take 2) % 1024)
  | 2 => retrain s p
  | _ => s

/-- What a crier packet does, by its CTYPE and, for MEMBERSHIP and FENCE, its ACTION or KIND. A port notice names the module, on the
plane that it came in on (R433; log entry 27). Any other CTYPE has no effect. -/
def criAct (k : Crier) (s : State) : State :=
  match k.typ, criArg k 0 1 with
  | 1, 1 => suspectIn s (criArg k 4 2) k.origin
  | 1, 2 => clearIn s (criArg k 4 2) k.origin
  | 1, 3 => deadIn s k
  | 2, 1 => quarantine (fenceRx s) 2 k.origin
  | 2, 2 => fenceStep (fenceRx s) k
  | 3, _ => censusIn s k
  | 4, _ => criWrite k s
  | 5, _ => portDown s k.plane (criArg k 0 2)
  | 6, _ => portUp s k.plane (criArg k 0 2)
  | _, _ => s

/-- A packet that is complete: one whose LEN its data do not fill, or that names no OP, is dropped; CRIER goes to the crier. -/
def pktDone (s : State) (p vc : Nat) (bs : List Byte) : State :=
  let k := pktParse bs vc p
  if 4096 < k.len ∨ (k.op ≠ 1 ∧ k.op ≠ 5 ∧ k.data.length ≠ k.len) then s
  else if k.op = 9 then
    let c := criParse k.dst k.mepoch k.data p
    criIn c (criAct c) s
  else pktArrive k s

/-- A data flit in order: its payload joins the packet of its VC (R418). -/
def flitData (s : State) (p : Nat) (h : FlitHead) (payload : List Byte) : State :=
  let l := getLink s p
  let put (x : Store (List Byte)) : State := setLink s p { l with asm := x }
  match h.typ with
  | 1 => put (putS l.asm h.vc payload)
  | 2 => match getS l.asm h.vc with | some b => put (putS l.asm h.vc (b ++ payload)) | none => s
  | 3 => match getS l.asm h.vc with | some b => pktDone (put (delS l.asm h.vc)) p h.vc (b ++ payload) | none => s
  | _ => pktDone (put (delS l.asm h.vc)) p h.vc payload

/-- Credits that no flit has taken back go with an IDLE flit (R417, R422). -/
def creditsBack (s : State) (p : Nat) : State :=
  if (getLink s p).owed.isEmpty then s else linkSay s p 0 []

/-- A data flit: out of order it is discarded; in order it is taken, and its credit goes back at once. -/
def flitTake (s : State) (p : Nat) (h : FlitHead) (payload : List Byte) : State :=
  if h.seq ≠ (getLink s p).exp then flitDrop s p
  else
    let s := flitCredits s p h
    let l := getLink s p
    let s := setLink s p { l with exp := (l.exp + 1) % 1024, nak := false, owed := putS l.owed h.vc (getD l.owed h.vc 0 + 1) }
    let s := flitData s p h payload
    creditsBack (linkPump s p (getLink s p).wait.length) p

/-- A flit arrives on a port that is up: `corr` symbols that FEC corrected, `unc` codewords that it could not (R417, R419). TYPE 6
and 7 are dropped. -/
def flitIn (s : State) (p : Nat) (bs : List Byte) (corr unc : Nat) : State :=
  if portState s p ≠ 2 ∧ portState s p ≠ 3 then s
  else
    let s := bump (bump s (ylkPg p + Off.ylkFecCorr) corr) (ylkPg p + Off.ylkFecUncorr) unc
    let h := flitHead bs
    if !flitGood bs then flitDrop (bump s (ylkPg p + Off.ylkCrcErr) 1) p
    else if 0 < unc then flitDrop s p
    else match h.typ with
      | 0 => let s := flitCredits s p h; linkPump s p (getLink s p).wait.length
      | 5 => let s := flitCredits s p h; ctrlIn (linkPump s p (getLink s p).wait.length) p (bs.drop 8)
      | 6 => s
      | 7 => s
      | _ => flitTake s p h (bs.drop 8)

def execFlitReceive (port : Nat) (flit : List Byte) (corr unc : Nat) (s : State) : Res :=
  checked (.flitReceive port flit corr unc) (flitIn s port flit corr unc)

end Sys2Proof.Machine
end

