-- ==== Sys2Proof/Machine/Pins.lean ====
section
/-! DEFINITION. Ethernet link and PTP events, PFC pause frames, and the training of the host port (R12, R439, R440, R474). -/

namespace Sys2Proof.Machine

/-- The page of an Ethernet port. -/
def ethPg (p : Nat) : Nat := pEth0 + 4096 * p

/-- PTP_LOCK of a port is lost. -/
def ptpLost (s : State) (p : Nat) : State :=
  if bit (reg s (ethPg p + Off.ethStat)) 30 then intBit (setRegF s (ethPg p + Off.ethStat) 30 30 0) (ethPg p) 1 else s

/-- A port's link comes up at 800 Gb/s or goes down; one that is down disciplines nothing (R439). -/
def ethLink (s : State) (p : Nat) (up : Bool) : State :=
  let a := ethPg p + Off.ethStat
  if bit (reg s a) 31 = up then s
  else
    let s := intBit (setRegF s a 31 31 (if up then 1 else 0)) (ethPg p) 0
    if up then s else ptpLost s p

def execEthernetLinkChange (port : Nat) (up : Bool) (s : State) : Res := checked (.ethernetLinkChange port up) (ethLink s port up)

/-- A PTP message on a port with PTP_EN: module time takes the grandmaster's, PTP_OFS the offset, and PTP_LOCK and TIME_VALID
are set; or the lock is lost (R12, R439). -/
def ptpIn (s : State) (p : Nat) (lock : Bool) (now : Nat) (offset : W32) : State :=
  let a := ethPg p + Off.ethStat
  if !bit (reg s (ethPg p + Off.ethCfg)) 3 || !bit (reg s a) 31 then s
  else if !lock then ptpLost (setReg s (ethPg p + Off.ethPtpOfs) offset) p
  else setRegF (setRegF (setReg { s with time := now } (ethPg p + Off.ethPtpOfs) offset) a 30 30 1) (pClk + Off.clkStat) 29 29 1

def execPtpMessage (port : Nat) (lock : Bool) (now : Nat) (offset : W32) (s : State) : Res :=
  checked (.ptpMessage port lock now offset) (ptpIn s port lock now offset)

/-- A PFC pause frame: honoured for the crier priority only, for `quanta` times 512 bits at 800 Gb/s (R440; the frame's quanta are
those of IEEE 802.1Qbb, log entry 27). -/
def pfcIn (s : State) (p prio quanta : Nat) : State :=
  if prio ≠ regF s (ethPg p + Off.ethCfg) 2 0 then s
  else
    let s := bump s (ethPg p + Off.ethPfcRx) 1
    relaysGo { s with paused := putDef s.paused p (if quanta = 0 then 0 else s.time + ceilDiv (quanta * 512) 800) 0 }

def execPfcPauseFrame (port prio quanta : Nat) (s : State) : Res := checked (.pfcPauseFrame port prio quanta) (pfcIn s port prio quanta)

/-- The host port has trained: PCI.LINK reports the speed, the width and Flit mode, which PCIe 6.0 speed uses; and SR-IOV NumVFs as
the host has set it (R474, R480). -/
def pcieUp (s : State) (width gen numvf : Nat) : State :=
  setReg s (pPci + Off.pciLink) (w32 (gen * 2 ^ 28 + width * 2 ^ 23 + (if gen = 6 then 2 ^ 22 else 0) + numvf))

def execPcieLinkTraining (width gen numvf : Nat) (s : State) : Res :=
  checked (.pcieLinkTraining width gen numvf) (pcieUp s width gen numvf)

end Sys2Proof.Machine
end

