-- ==== Sys2Proof/Machine/StreamCmds.lean ====
section
/-! DEFINITION. The commands of a stream (R148, R155 to R162) and the completion and the shadow of a command (R168, R558). -/

namespace Sys2Proof.Machine

/-- NOP does nothing but its SYNC field (R148). -/
def execCtlNop (d : Disp) (s : State) : Res := checked (.ctlNop d) (dispatch 0 0 (atOnce noEffect) d s)

/-- SYNC performs only its wait and signal fields (R150). -/
def execCtlSync (d : Disp) (s : State) : Res := checked (.ctlSync d) (dispatch 0 1 (atOnce noEffect) d s)

/-- WAITN takes all its waits together (R155). -/
def execWaitn (d : Disp) (s : State) : Res := checked (.waitn d) (dispatch 0 2 (atOnce noEffect) d s)

/-- FENCE dispatches after every earlier command has completed (R156). -/
def execCtlFence (d : Disp) (s : State) : Res := checked (.ctlFence d) (dispatch 0 3 (atOnce noEffect) d s)

/-- SETP overwrites a step parameter (R176). -/
def execSetp (d : Disp) (s : State) : Res := checked (.setp d) (dispatch 0 4 (atOnce effSetp) d s)

/-- STEP_END ends the stream's step (R175). -/
def execStepEnd (d : Disp) (s : State) : Res := checked (.stepEnd d) (dispatch 0 5 (atOnce effStepEnd) d s)

/-- C = A × B + C0 on the full grid (R116). -/
def execMmaFull (d : Disp) (s : State) : Res := checked (.mmaFull d) (dispatch 1 1 (effMmaFull) d s)

/-- 1 to 4 sub-problems on quadrants (R121). -/
def execMmaQuad (d : Disp) (s : State) : Res := checked (.mmaQuad d) (dispatch 1 2 (effPacked) d s)

/-- 1 to 16 sub-problems on blocks (R121). -/
def execMmaBlock (d : Disp) (s : State) : Res := checked (.mmaBlock d) (dispatch 1 3 (effPacked) d s)

/-- y = W × x + y0 (R125). -/
def execMv (d : Disp) (s : State) : Res := checked (.mv d) (dispatch 2 1 (effMv) d s)

/-- ADD lane by lane (R160). -/
def execVecAdd (d : Disp) (s : State) : Res := checked (.vecAdd d) (dispatch 3 1 (effVec true true (fun _ => bin fadd)) d s)

/-- SUB lane by lane (R160). -/
def execVecSub (d : Disp) (s : State) : Res := checked (.vecSub d) (dispatch 3 2 (effVec true true (fun _ => bin fsub)) d s)

/-- MUL lane by lane (R160). -/
def execVecMul (d : Disp) (s : State) : Res := checked (.vecMul d) (dispatch 3 3 (effVec true true (fun _ => bin fmul)) d s)

/-- SRCA × SRCB + SRCC lane by lane, rounded once (R99, R160). -/
def execVecFma (d : Disp) (s : State) : Res := checked (.vecFma d) (dispatch 3 4 (effVec true true (fun _ => tri ffma)) d s)

/-- The IEEE 754-2019 minimum lane by lane (R650). -/
def execVecMin (d : Disp) (s : State) : Res := checked (.vecMin d) (dispatch 3 5 (effVec true true (fun _ => bin fmin)) d s)

/-- The IEEE 754-2019 maximum lane by lane (R650). -/
def execVecMax (d : Disp) (s : State) : Res := checked (.vecMax d) (dispatch 3 6 (effVec true true (fun _ => bin fmax)) d s)

/-- The MODE relation, all ones or zero (R160). -/
def execVecCmp (d : Disp) (s : State) : Res := checked (.vecCmp d) (dispatch 3 7 (effVec false false (fun _ tl v => bin (vcmp v.mode) tl v)) d s)

/-- A selection under a mask (R160). -/
def execVecSel (d : Disp) (s : State) : Res := checked (.vecSel d) (dispatch 3 8 (effVec false true (fun _ => tri vsel)) d s)

/-- 32-bit integer addition (R160). -/
def execVecIadd (d : Disp) (s : State) : Res := checked (.vecIadd d) (dispatch 3 0x10 (effVec false false (fun _ => bin (· + ·))) d s)

/-- 32-bit integer subtraction (R160). -/
def execVecIsub (d : Disp) (s : State) : Res := checked (.vecIsub d) (dispatch 3 0x11 (effVec false false (fun _ => bin (· - ·))) d s)

/-- Bitwise AND (R160). -/
def execVecAnd (d : Disp) (s : State) : Res := checked (.vecAnd d) (dispatch 3 0x12 (effVec false false (fun _ => bin (· &&& ·))) d s)

/-- Bitwise OR (R160). -/
def execVecOr (d : Disp) (s : State) : Res := checked (.vecOr d) (dispatch 3 0x13 (effVec false false (fun _ => bin (· ||| ·))) d s)

/-- Bitwise XOR (R160). -/
def execVecXor (d : Disp) (s : State) : Res := checked (.vecXor d) (dispatch 3 0x14 (effVec false false (fun _ => bin (· ^^^ ·))) d s)

/-- Left shift (R160). -/
def execVecShl (d : Disp) (s : State) : Res := checked (.vecShl d) (dispatch 3 0x15 (effShift (fun a n => a <<< n)) d s)

/-- Right shift, zeros entering (R160, log entry 15). -/
def execVecShr (d : Disp) (s : State) : Res := checked (.vecShr d) (dispatch 3 0x16 (effShift (fun a n => a >>> n)) d s)

/-- Left rotation (R160). -/
def execVecRotl (d : Disp) (s : State) : Res := checked (.vecRotl d) (dispatch 3 0x17 (effVec false false (fun _ => bin (fun a b => rotl a (b.toNat % 32)))) d s)

/-- FP32 to a working format (R103 to R106, R161). -/
def execVecCvt (d : Disp) (s : State) : Res := checked (.vecCvt d) (dispatch 3 0x18 (effCvt) d s)

/-- exp2, correctly rounded (R101). -/
def execVecExp2 (d : Disp) (s : State) : Res := checked (.vecExp2 d) (dispatch 3 0x20 (effVec true true (fun _ => un fexp2)) d s)

/-- ln, correctly rounded (R101). -/
def execVecLn (d : Disp) (s : State) : Res := checked (.vecLn d) (dispatch 3 0x21 (effVec true true (fun _ => un fln)) d s)

/-- The reciprocal, correctly rounded (R101). -/
def execVecRcp (d : Disp) (s : State) : Res := checked (.vecRcp d) (dispatch 3 0x22 (effVec true true (fun _ => un frcp)) d s)

/-- The reciprocal square root, correctly rounded (R101). -/
def execVecRsqrt (d : Disp) (s : State) : Res := checked (.vecRsqrt d) (dispatch 3 0x23 (effVec true true (fun _ => un frsqrt)) d s)

/-- The reduction by the pairwise tree (R136). -/
def execVecRed (d : Disp) (s : State) : Res := checked (.vecRed d) (dispatch 3 0x28 (effRed) d s)

/-- The inclusive scan (R137). -/
def execVecScan (d : Disp) (s : State) : Res := checked (.vecScan d) (dispatch 3 0x29 (effVec true true (fun _ => vscan)) d s)

/-- The linear-recurrence scan (R138). -/
def execVecLrscan (d : Disp) (s : State) : Res := checked (.vecLrscan d) (dispatch 3 0x2a (effVec true true (fun _ tl v => lrscan (vreg tl v.a) (srcB tl v))) d s)

/-- The reverse linear-recurrence scan: lanes numbered from the end (R138, R315). -/
def execVecLrscanRev (d : Disp) (s : State) : Res := checked (.vecLrscanRev d) (dispatch 3 0x2b (effVec true true (fun _ tl v => (lrscan (vreg tl v.a).reverse (srcB tl v).reverse).reverse)) d s)

/-- 512 bytes of scratchpad into a register (R134). -/
def execVecLd (d : Disp) (s : State) : Res := checked (.vecLd d) (dispatch 3 0x30 (effLd) d s)

/-- A register as 512 bytes of scratchpad (R134). -/
def execVecSt (d : Disp) (s : State) : Res := checked (.vecSt d) (dispatch 3 0x31 (effSt) d s)

/-- An activation slot from a register (R127). -/
def execLdslot (d : Disp) (s : State) : Res := checked (.ldslot d) (dispatch 3 0x32 (effLdslot) d s)

/-- The keyed counter mix in every lane (R240). -/
def execVecKcm (d : Disp) (s : State) : Res := checked (.vecKcm d) (dispatch 3 0x38 (effKcm) d s)

/-- A list to the hamlet's cart (R191). -/
def execCrtSubmit (d : Disp) (s : State) : Res := checked (.crtSubmit d) (dispatch 4 1 (effCrt) d s)

/-- A job to the attention sequencer (R193). -/
def execAtsSubmit (d : Disp) (s : State) : Res := checked (.atsSubmit d) (dispatch 5 1 (effAts) d s)

/-- A program to the update streamer (R162). -/
def execUpdSubmit (d : Disp) (s : State) : Res := checked (.updSubmit d) (dispatch 6 1 (effUpd) d s)

/-- The oldest open command of a unit completes and signals (R168). -/
def execCommandComplete (hamlet tile : Nat) (u : UnitK) (s : State) : Res :=
  checked (.commandComplete hamlet tile u) (completeCmd s hamlet tile u)

/-- A shadowed command runs again and is compared (R558). -/
def execShadowRun (hamlet tile idx : Nat) (mismatch : Bool) (s : State) : Res :=
  checked (.shadowRun hamlet tile idx mismatch) (shadowRun s hamlet tile idx mismatch)

end Sys2Proof.Machine
end

