-- ==== Sys2Proof/Machine/Dispatch.lean ====
section
/-! DEFINITION. The meaning of every command: one arm per row of the opcode table. -/

namespace Sys2Proof.Machine

/-- The effect of a command on everything but the queue. -/
def exec (i : Instr) (s : State) : Host.Outcome State Fault Refusal :=
  match i with
  | .registerWrite w addr size v => Sys2Proof.Machine.execRegisterWrite w addr size v s
  | .broadcastWrite w addr v => Sys2Proof.Machine.execBroadcastWrite w addr v s
  | .pairHiWrite w addr v => Sys2Proof.Machine.execPairHiWrite w addr v s
  | .pairLoWrite w addr v => Sys2Proof.Machine.execPairLoWrite w addr v s
  | .pairLoRead addr size vf => Sys2Proof.Machine.execPairLoRead addr size vf s
  | .rcRead addr size vf => Sys2Proof.Machine.execRcRead addr size vf s
  | .errClr w page v => Sys2Proof.Machine.execErrClr w page v s
  | .pageFence w page v => Sys2Proof.Machine.execPageFence w page v s
  | .fenceComplete page => Sys2Proof.Machine.execFenceComplete page s
  | .quiesceReq w page v => Sys2Proof.Machine.execQuiesceReq w page v s
  | .quiesceResume w page v => Sys2Proof.Machine.execQuiesceResume w page v s
  | .unitQuiesced page => Sys2Proof.Machine.execUnitQuiesced page s
  | .pageEnable w page v => Sys2Proof.Machine.execPageEnable w page v s
  | .pageDisable w page v => Sys2Proof.Machine.execPageDisable w page v s
  | .intStatClear w page v same => Sys2Proof.Machine.execIntStatClear w page v same s
  | .intForce w page v => Sys2Proof.Machine.execIntForce w page v s
  | .ownerWrite w page v => Sys2Proof.Machine.execOwnerWrite w page v s
  | .ledgerSeal => Sys2Proof.Machine.execLedgerSeal s
  | .ctlNop d => Sys2Proof.Machine.execCtlNop d s
  | .ctlSync d => Sys2Proof.Machine.execCtlSync d s
  | .waitn d => Sys2Proof.Machine.execWaitn d s
  | .ctlFence d => Sys2Proof.Machine.execCtlFence d s
  | .setp d => Sys2Proof.Machine.execSetp d s
  | .stepEnd d => Sys2Proof.Machine.execStepEnd d s
  | .mmaFull d => Sys2Proof.Machine.execMmaFull d s
  | .mmaQuad d => Sys2Proof.Machine.execMmaQuad d s
  | .mmaBlock d => Sys2Proof.Machine.execMmaBlock d s
  | .mv d => Sys2Proof.Machine.execMv d s
  | .vecAdd d => Sys2Proof.Machine.execVecAdd d s
  | .vecSub d => Sys2Proof.Machine.execVecSub d s
  | .vecMul d => Sys2Proof.Machine.execVecMul d s
  | .vecFma d => Sys2Proof.Machine.execVecFma d s
  | .vecMin d => Sys2Proof.Machine.execVecMin d s
  | .vecMax d => Sys2Proof.Machine.execVecMax d s
  | .vecCmp d => Sys2Proof.Machine.execVecCmp d s
  | .vecSel d => Sys2Proof.Machine.execVecSel d s
  | .vecIadd d => Sys2Proof.Machine.execVecIadd d s
  | .vecIsub d => Sys2Proof.Machine.execVecIsub d s
  | .vecAnd d => Sys2Proof.Machine.execVecAnd d s
  | .vecOr d => Sys2Proof.Machine.execVecOr d s
  | .vecXor d => Sys2Proof.Machine.execVecXor d s
  | .vecShl d => Sys2Proof.Machine.execVecShl d s
  | .vecShr d => Sys2Proof.Machine.execVecShr d s
  | .vecRotl d => Sys2Proof.Machine.execVecRotl d s
  | .vecCvt d => Sys2Proof.Machine.execVecCvt d s
  | .vecExp2 d => Sys2Proof.Machine.execVecExp2 d s
  | .vecLn d => Sys2Proof.Machine.execVecLn d s
  | .vecRcp d => Sys2Proof.Machine.execVecRcp d s
  | .vecRsqrt d => Sys2Proof.Machine.execVecRsqrt d s
  | .vecRed d => Sys2Proof.Machine.execVecRed d s
  | .vecScan d => Sys2Proof.Machine.execVecScan d s
  | .vecLrscan d => Sys2Proof.Machine.execVecLrscan d s
  | .vecLrscanRev d => Sys2Proof.Machine.execVecLrscanRev d s
  | .vecLd d => Sys2Proof.Machine.execVecLd d s
  | .vecSt d => Sys2Proof.Machine.execVecSt d s
  | .ldslot d => Sys2Proof.Machine.execLdslot d s
  | .vecKcm d => Sys2Proof.Machine.execVecKcm d s
  | .crtSubmit d => Sys2Proof.Machine.execCrtSubmit d s
  | .atsSubmit d => Sys2Proof.Machine.execAtsSubmit d s
  | .updSubmit d => Sys2Proof.Machine.execUpdSubmit d s
  | .penTrigger d => Sys2Proof.Machine.execPenTrigger d s
  | .commandComplete hamlet tile u => Sys2Proof.Machine.execCommandComplete hamlet tile u s
  | .shadowRun hamlet tile idx mismatch => Sys2Proof.Machine.execShadowRun hamlet tile idx mismatch s
  | .nfFlagClear w page second v same => Sys2Proof.Machine.execNfFlagClear w page second v same s
  | .bndBoundWrite w page hi v => Sys2Proof.Machine.execBndBoundWrite w page hi v s
  | .bndKeyWrite w page v => Sys2Proof.Machine.execBndKeyWrite w page v s
  | .rngCntRead page => Sys2Proof.Machine.execRngCntRead page s
  | .stepRelease part => Sys2Proof.Machine.execStepRelease part s
  | .hamletStepBoundary hamlet => Sys2Proof.Machine.execHamletStepBoundary hamlet s
  | .stepHung hamlet tile => Sys2Proof.Machine.execStepHung hamlet tile s
  | .idleBoundaryTick part now => Sys2Proof.Machine.execIdleBoundaryTick part now s
  | .prologueComplete part => Sys2Proof.Machine.execPrologueComplete part s
  | .cartListStart hamlet => Sys2Proof.Machine.execCartListStart hamlet s
  | .cartCopy hamlet mem => Sys2Proof.Machine.execCartCopy hamlet mem s
  | .cartFill hamlet => Sys2Proof.Machine.execCartFill hamlet s
  | .cartSignal hamlet => Sys2Proof.Machine.execCartSignal hamlet s
  | .cartLink hamlet => Sys2Proof.Machine.execCartLink hamlet s
  | .crtFaultClear w page v => Sys2Proof.Machine.execCrtFaultClear w page v s
  | .attentionJobStart hamlet mem => Sys2Proof.Machine.execAttentionJobStart hamlet mem s
  | .atsFaultClear w page v => Sys2Proof.Machine.execAtsFaultClear w page v s
  | .tokenDraw slot pos logits => Sys2Proof.Machine.execTokenDraw slot pos logits s
  | .kcmTestStart w v => Sys2Proof.Machine.execKcmTestStart w v s
  | .kcmTestRun hamlet tile good => Sys2Proof.Machine.execKcmTestRun hamlet tile good s
  | .smpLastFaultClear w v => Sys2Proof.Machine.execSmpLastFaultClear w v s
  | .cmdqDoorbell fn viaPf off size v => Sys2Proof.Machine.execCmdqDoorbell fn viaPf off size v s
  | .hringDoorbell fn viaPf off size v => Sys2Proof.Machine.execHringDoorbell fn viaPf off size v s
  | .commandFetch fn entry => Sys2Proof.Machine.execCommandFetch fn entry s
  | .submit o cmd => Sys2Proof.Machine.execSubmit o cmd s
  | .append o cmd => Sys2Proof.Machine.execAppend o cmd s
  | .resume o cmd => Sys2Proof.Machine.execResume o cmd s
  | .pause o cmd => Sys2Proof.Machine.execPause o cmd s
  | .park o cmd => Sys2Proof.Machine.execPark o cmd s
  | .cancel o cmd => Sys2Proof.Machine.execCancel o cmd s
  | .release o cmd => Sys2Proof.Machine.execRelease o cmd s
  | .draft o cmd => Sys2Proof.Machine.execDraft o cmd s
  | .setprio o cmd => Sys2Proof.Machine.execSetprio o cmd s
  | .reward o cmd => Sys2Proof.Machine.execReward o cmd s
  | .environmentMessage qp hdr toks => Sys2Proof.Machine.execEnvironmentMessage qp hdr toks s
  | .qpError qp => Sys2Proof.Machine.execQpError qp s
  | .budgetRefill now => Sys2Proof.Machine.execBudgetRefill now s
  | .parkAfterExpiry slot now => Sys2Proof.Machine.execParkAfterExpiry slot now s
  | .parkedExpiry slot now => Sys2Proof.Machine.execParkedExpiry slot now s
  | .shipAccept side => Sys2Proof.Machine.execShipAccept side s
  | .shipCopyComplete slot tgtSlot => Sys2Proof.Machine.execShipCopyComplete slot tgtSlot s
  | .shipRefused slot now => Sys2Proof.Machine.execShipRefused slot now s
  | .shipRetry slot now => Sys2Proof.Machine.execShipRetry slot now s
  | .shipDeadline slot now => Sys2Proof.Machine.execShipDeadline slot now s
  | .spillComplete part => Sys2Proof.Machine.execSpillComplete part s
  | .reqLastRejClear w v => Sys2Proof.Machine.execReqLastRejClear w v s
  | .updateProgramStart hamlet unc => Sys2Proof.Machine.execUpdateProgramStart hamlet unc s
  | .uopLdt hamlet unc => Sys2Proof.Machine.execUopLdt hamlet unc s
  | .uopStt hamlet => Sys2Proof.Machine.execUopStt hamlet s
  | .uopLdh hamlet => Sys2Proof.Machine.execUopLdh hamlet s
  | .uopAdd hamlet => Sys2Proof.Machine.execUopAdd hamlet s
  | .uopSub hamlet => Sys2Proof.Machine.execUopSub hamlet s
  | .uopMul hamlet => Sys2Proof.Machine.execUopMul hamlet s
  | .uopFma hamlet => Sys2Proof.Machine.execUopFma hamlet s
  | .uopMin hamlet => Sys2Proof.Machine.execUopMin hamlet s
  | .uopMax hamlet => Sys2Proof.Machine.execUopMax hamlet s
  | .uopRsqrt hamlet => Sys2Proof.Machine.execUopRsqrt hamlet s
  | .uopRcp hamlet => Sys2Proof.Machine.execUopRcp hamlet s
  | .uopCvtw hamlet => Sys2Proof.Machine.execUopCvtw hamlet s
  | .uopNorm hamlet => Sys2Proof.Machine.execUopNorm hamlet s
  | .uopAmax hamlet => Sys2Proof.Machine.execUopAmax hamlet s
  | .uopEnd hamlet => Sys2Proof.Machine.execUopEnd hamlet s
  | .updFaultClear w page v => Sys2Proof.Machine.execUpdFaultClear w page v s
  | .vote hamlet => Sys2Proof.Machine.execVote hamlet s
  | .epochShardArrive hdr data src => Sys2Proof.Machine.execEpochShardArrive hdr data src s
  | .epochAck sub epoch pos => Sys2Proof.Machine.execEpochAck sub epoch pos s
  | .epochRecheck now => Sys2Proof.Machine.execEpochRecheck now s
  | .epochLoad w v => Sys2Proof.Machine.execEpochLoad w v s
  | .epochLoadComplete ok => Sys2Proof.Machine.execEpochLoadComplete ok s
  | .slotBaseWrite w slot size v => Sys2Proof.Machine.execSlotBaseWrite w slot size v s
  | .scrubPass ctrl rows => Sys2Proof.Machine.execScrubPass ctrl rows s
  | .pcRetire w page v => Sys2Proof.Machine.execPcRetire w page v s
  | .map w v => Sys2Proof.Machine.execMap w v s
  | .unmap w v => Sys2Proof.Machine.execUnmap w v s
  | .move w v => Sys2Proof.Machine.execMove w v s
  | .attr w v => Sys2Proof.Machine.execAttr w v s
  | .clrcnt w v => Sys2Proof.Machine.execClrcnt w v s
  | .farown w v => Sys2Proof.Machine.execFarown w v s
  | .mapCommandDone => Sys2Proof.Machine.execMapCommandDone s
  | .migrationComplete vpage => Sys2Proof.Machine.execMigrationComplete vpage s
  | .prefetchEntryStart part => Sys2Proof.Machine.execPrefetchEntryStart part s
  | .loftRead w v sectors bad => Sys2Proof.Machine.execLoftRead w v sectors bad s
  | .loftWrite w v => Sys2Proof.Machine.execLoftWrite w v s
  | .loftDelete w v => Sys2Proof.Machine.execLoftDelete w v s
  | .loftDir w v => Sys2Proof.Machine.execLoftDir w v s
  | .loftFetch w v data => Sys2Proof.Machine.execLoftFetch w v data s
  | .loftCommandDone => Sys2Proof.Machine.execLoftCommandDone s
  | .loftPatrol sectors lost => Sys2Proof.Machine.execLoftPatrol sectors lost s
  | .loftMemberFail m lost => Sys2Proof.Machine.execLoftMemberFail m lost s
  | .loftRebuildDone => Sys2Proof.Machine.execLoftRebuildDone s
  | .ntmErrClear w page v => Sys2Proof.Machine.execNtmErrClear w page v s
  | .laneBad port lane => Sys2Proof.Machine.execLaneBad port lane s
  | .ylkRetrain w port v => Sys2Proof.Machine.execYlkRetrain w port v s
  | .retrainComplete port good => Sys2Proof.Machine.execRetrainComplete port good s
  | .flitReceive port flit corr unc => Sys2Proof.Machine.execFlitReceive port flit corr unc s
  | .nak port expected => Sys2Proof.Machine.execNak port expected s
  | .retryLimit port seq => Sys2Proof.Machine.execRetryLimit port seq s
  | .load p => Sys2Proof.Machine.execLoad p s
  | .loadResp p => Sys2Proof.Machine.execLoadResp p s
  | .store p => Sys2Proof.Machine.execStore p s
  | .put p => Sys2Proof.Machine.execPut p s
  | .get p => Sys2Proof.Machine.execGet p s
  | .getResp p => Sys2Proof.Machine.execGetResp p s
  | .reducePut p => Sys2Proof.Machine.execReducePut p s
  | .ack p => Sys2Proof.Machine.execAck p s
  | .e2eResend dst vc seq now => Sys2Proof.Machine.execE2eResend dst vc seq now s
  | .portDown plane mod => Sys2Proof.Machine.execPortDown plane mod s
  | .portUp plane mod => Sys2Proof.Machine.execPortUp plane mod s
  | .d2dLaneRepair die dir => Sys2Proof.Machine.execD2dLaneRepair die dir s
  | .routerStall page port granted => Sys2Proof.Machine.execRouterStall page port granted s
  | .firingStart part chain => Sys2Proof.Machine.execFiringStart part chain s
  | .descPut part chain idx mem => Sys2Proof.Machine.execDescPut part chain idx mem s
  | .descGet part chain idx => Sys2Proof.Machine.execDescGet part chain idx s
  | .allreduce part chain idx => Sys2Proof.Machine.execAllreduce part chain idx s
  | .descSignal part chain idx => Sys2Proof.Machine.execDescSignal part chain idx s
  | .publish part chain idx => Sys2Proof.Machine.execPublish part chain idx s
  | .segmentCombine part chain idx seg => Sys2Proof.Machine.execSegmentCombine part chain idx seg s
  | .descriptorComplete part chain idx => Sys2Proof.Machine.execDescriptorComplete part chain idx s
  | .penFaultClear w v => Sys2Proof.Machine.execPenFaultClear w v s
  | .groupReform group replace => Sys2Proof.Machine.execGroupReform group replace s
  | .crierOriginate w v => Sys2Proof.Machine.execCrierOriginate w v s
  | .crierSend => Sys2Proof.Machine.execCrierSend s
  | .suspect p => Sys2Proof.Machine.execSuspect p s
  | .clear p => Sys2Proof.Machine.execClear p s
  | .dead p => Sys2Proof.Machine.execDead p s
  | .fenceModule p => Sys2Proof.Machine.execFenceModule p s
  | .fenceStep p => Sys2Proof.Machine.execFenceStep p s
  | .regWrite p => Sys2Proof.Machine.execRegWrite p s
  | .census p => Sys2Proof.Machine.execCensus p s
  | .flr fn => Sys2Proof.Machine.execFlr fn s
  | .flrComplete fn => Sys2Proof.Machine.execFlrComplete fn s
  | .functionEnable w fn v => Sys2Proof.Machine.execFunctionEnable w fn v s
  | .functionDisable w fn v => Sys2Proof.Machine.execFunctionDisable w fn v s
  | .ringBaseWrite w addr v => Sys2Proof.Machine.execRingBaseWrite w addr v s
  | .apertureAccess off write n data => Sys2Proof.Machine.execApertureAccess off write n data s
  | .vfApertureAccess fn off write n data => Sys2Proof.Machine.execVfApertureAccess fn off write n data s
  | .create w part v => Sys2Proof.Machine.execCreate w part v s
  | .destroy w part v => Sys2Proof.Machine.execDestroy w part v s
  | .destroyProceed part => Sys2Proof.Machine.execDestroyProceed part s
  | .loadImage w part v => Sys2Proof.Machine.execLoadImage w part v s
  | .reset w part v => Sys2Proof.Machine.execReset w part v s
  | .islFreqWrite w page v => Sys2Proof.Machine.execIslFreqWrite w page v s
  | .boundaryEvaluate hamlet bnd mvA mvB tA tB => Sys2Proof.Machine.execBoundaryEvaluate hamlet bnd mvA mvB tA tB s
  | .clampLower hamlet bnd mvA mvB tA tB => Sys2Proof.Machine.execClampLower hamlet bnd mvA mvB tA tB s
  | .droopCross hamlet isl mv => Sys2Proof.Machine.execDroopCross hamlet isl mv s
  | .stretchRelease hamlet isl => Sys2Proof.Machine.execStretchRelease hamlet isl s
  | .escalation hamlet isl => Sys2Proof.Machine.execEscalation hamlet isl s
  | .escalationLower hamlet isl => Sys2Proof.Machine.execEscalationLower hamlet isl s
  | .islandRestore hamlet isl => Sys2Proof.Machine.execIslandRestore hamlet isl s
  | .powerSample watts mv => Sys2Proof.Machine.execPowerSample watts mv s
  | .capStep => Sys2Proof.Machine.execCapStep s
  | .thermalLower hamlet isl temp => Sys2Proof.Machine.execThermalLower hamlet isl temp s
  | .thermalTrip hamlet isl temp => Sys2Proof.Machine.execThermalTrip hamlet isl temp s
  | .refLoss which => Sys2Proof.Machine.execRefLoss which s
  | .coldReset src b => Sys2Proof.Machine.execColdReset src b s
  | .warmReset src b => Sys2Proof.Machine.execWarmReset src b s
  | .hamletReset w v => Sys2Proof.Machine.execHamletReset w v s
  | .bootReady => Sys2Proof.Machine.execBootReady s
  | .svnCommit w v => Sys2Proof.Machine.execSvnCommit w v s
  | .bootFailClear w v => Sys2Proof.Machine.execBootFailClear w v s
  | .liveSwitch w v => Sys2Proof.Machine.execLiveSwitch w v s
  | .liveSwitchComplete bad => Sys2Proof.Machine.execLiveSwitchComplete bad s
  | .slotExtend w v => Sys2Proof.Machine.execSlotExtend w v s
  | .ownerEnrol w v => Sys2Proof.Machine.execOwnerEnrol w v s
  | .ownerRevoke w v => Sys2Proof.Machine.execOwnerRevoke w v s
  | .getVersion req => Sys2Proof.Machine.execGetVersion req s
  | .capabilities req => Sys2Proof.Machine.execCapabilities req s
  | .negotiateAlgorithms req => Sys2Proof.Machine.execNegotiateAlgorithms req s
  | .getDigests req => Sys2Proof.Machine.execGetDigests req s
  | .getCertificate req => Sys2Proof.Machine.execGetCertificate req s
  | .challenge req => Sys2Proof.Machine.execChallenge req s
  | .getMeasurements req => Sys2Proof.Machine.execGetMeasurements req s
  | .spdmUnsupported req => Sys2Proof.Machine.execSpdmUnsupported req s
  | .queryDeviceIdentifiers => Sys2Proof.Machine.execQueryDeviceIdentifiers s
  | .getFirmwareParameters => Sys2Proof.Machine.execGetFirmwareParameters s
  | .requestUpdate maxTransfer => Sys2Proof.Machine.execRequestUpdate maxTransfer s
  | .passComponentTable ident => Sys2Proof.Machine.execPassComponentTable ident s
  | .updateComponent ident size => Sys2Proof.Machine.execUpdateComponent ident size s
  | .requestFirmwareData off data => Sys2Proof.Machine.execRequestFirmwareData off data s
  | .transferComplete => Sys2Proof.Machine.execTransferComplete s
  | .verifyComplete => Sys2Proof.Machine.execVerifyComplete s
  | .applyComplete => Sys2Proof.Machine.execApplyComplete s
  | .activateFirmware selfContained => Sys2Proof.Machine.execActivateFirmware selfContained s
  | .getStatus => Sys2Proof.Machine.execGetStatus s
  | .cancelUpdate => Sys2Proof.Machine.execCancelUpdate s
  | .faultedStepEnd part failed => Sys2Proof.Machine.execFaultedStepEnd part failed s
  | .bbrMirror => Sys2Proof.Machine.execBbrMirror s
  | .tileTest hamlet tile pass => Sys2Proof.Machine.execTileTest hamlet tile pass s
  | .rasLastMmClear w v => Sys2Proof.Machine.execRasLastMmClear w v s
  | .heartbeatSend now => Sys2Proof.Machine.execHeartbeatSend now s
  | .heartbeat src mepoch seq => Sys2Proof.Machine.execHeartbeat src mepoch seq s
  | .echo src mepoch seq => Sys2Proof.Machine.execEcho src mepoch seq s
  | .heartbeatMiss mod now => Sys2Proof.Machine.execHeartbeatMiss mod now s
  | .reportExpiry mod now => Sys2Proof.Machine.execReportExpiry mod now s
  | .selfFence now => Sys2Proof.Machine.execSelfFence now s
  | .mbrIdWrite w v => Sys2Proof.Machine.execMbrIdWrite w v s
  | .mbrInit w v => Sys2Proof.Machine.execMbrInit w v s
  | .haltSample a b now => Sys2Proof.Machine.execHaltSample a b now s
  | .haltCheckpointDone => Sys2Proof.Machine.execHaltCheckpointDone s
  | .haltAck w v => Sys2Proof.Machine.execHaltAck w v s
  | .haltClear => Sys2Proof.Machine.execHaltClear s
  | .mirrorComplete => Sys2Proof.Machine.execMirrorComplete s
  | .ckpRecheck now => Sys2Proof.Machine.execCkpRecheck now s
  | .shardFlushComplete rank entries conflicts => Sys2Proof.Machine.execShardFlushComplete rank entries conflicts s
  | .manifestWrite => Sys2Proof.Machine.execManifestWrite s
  | .restoreStepDecide reports => Sys2Proof.Machine.execRestoreStepDecide reports s
  | .restoreLoad step shards complete => Sys2Proof.Machine.execRestoreLoad step shards complete s
  | .ckpRestore w v man shards => Sys2Proof.Machine.execCkpRestore w v man shards s
  | .counterSelectWrite w addr v => Sys2Proof.Machine.execCounterSelectWrite w addr v s
  | .counterClear w page v => Sys2Proof.Machine.execCounterClear w page v s
  | .censusStart w v => Sys2Proof.Machine.execCensusStart w v s
  | .censusMarker page => Sys2Proof.Machine.execCensusMarker page s
  | .censusDone => Sys2Proof.Machine.execCensusDone s
  | .vinLow => Sys2Proof.Machine.execVinLow s
  | .vinRestore b => Sys2Proof.Machine.execVinRestore b s
  | .auxLoss b => Sys2Proof.Machine.execAuxLoss b s
  | .perst b => Sys2Proof.Machine.execPerst b s
  | .swapRequest => Sys2Proof.Machine.execSwapRequest s
  | .swapCancel b => Sys2Proof.Machine.execSwapCancel b s
  | .spillRestoreComplete part => Sys2Proof.Machine.execSpillRestoreComplete part s
  | .ethernetLinkChange port up => Sys2Proof.Machine.execEthernetLinkChange port up s
  | .ptpMessage port lock now offset => Sys2Proof.Machine.execPtpMessage port lock now offset s
  | .referenceClockReturn which => Sys2Proof.Machine.execReferenceClockReturn which s
  | .pfcPauseFrame port prio quanta => Sys2Proof.Machine.execPfcPauseFrame port prio quanta s
  | .pcieLinkTraining width gen numvf => Sys2Proof.Machine.execPcieLinkTraining width gen numvf s

end Sys2Proof.Machine
end

