-- ==== Sys2Proof/Safety.lean ====
section
/-! DEFINITION. What counts as a sound state and as a safe run, and what a command may change, in the terms that the statements
use. -/

namespace Sys2Proof.Machine

/-- Every byte memory of the state is in its one canonical form. -/
def State.memOk (s : State) : Bool := memWf s.mem && memWf s.host && memWf s.mram

/-- The module has a meaning for a command in this state: its operands name units that the module has. -/
def State.canRun (s : State) (i : Instr) : Prop := ∃ t, exec i s = .next t

/-- A run of `k` steps that no step refuses. -/
def State.runsFor (s : State) (k : Nat) : Prop := ∃ t, Host.Core.run core k s = .next t

/-! ### Who may write what -/

/-- The module is READY and not in RECOVERY (R534, R535). -/
def State.up (s : State) : Bool := bit (reg s (pBoot + Off.bootStat)) 31 && !bit (reg s (pBoot + Off.bootStat)) 30

/-- A page that takes writes: it exists, of an enabled hamlet, and is not retired (R56, R66). -/
def State.pageOpen (s : State) (p : Nat) : Bool := pageExists p && pageLive s p && !pageRetired s p

/-- A well-formed class M writer. -/
def manager (w : Writer) : Bool := w.wf && decide (w.cls = .m)

/-- A manager's write to a page that takes it (R70). -/
def State.managed (s : State) (w : Writer) (p : Nat) : Bool := s.up && manager w && s.pageOpen p

/-! ### Frames -/

/-- Every stored register outside the places `l` is the same in `t` as in `s`. -/
def cellsSame (s t : State) (l : List Nat) : Prop := ∀ k, k ∉ l → getS t.regs k = getS s.regs k

/-- Module offset `a` lies in the ring slot of one of the next `n` ledger records. -/
def inNextRecords (s : State) (n a : Nat) : Prop :=
  s.ledger.ringUp = true ∧ ∃ j < n,
    let b := tableOff s (pLdg + Off.ldgRingBaseLo) + 64 * ((pair s (pLdg + Off.ldgHeadSeqLo) + 1 + j) % 2 ^ 64 % ringSlots)
    b ≤ a ∧ a < b + 64

/-- The LDG registers that writing a ledger record changes. -/
def ledgerCells : List Nat :=
  [pLdg + Off.ldgHeadSeqLo, pLdg + Off.ldgHeadSeqHi, pLdg + Off.ldgLost, pLdg + Off.intStat]

/-- From `s` to `t` only the registers at the places `l` changed, and what up to `n` ledger records of it change: the LDG
registers, the ledger, their ring slots and interrupt messages. -/
def ledgerOnly (s t : State) (n : Nat) (l : List Nat) : Prop :=
  t = { s with regs := t.regs, irqs := t.irqs, ledger := t.ledger, mem := t.mem } ∧
  cellsSame s t (l ++ ledgerCells) ∧
  ∀ a, ¬ inNextRecords s n a → rdB t.mem a = rdB s.mem a

/-- The place `k` belongs to an event counter of hamlet `h` or to a module counter, which count beside what a command does
(R614 to R617). -/
def counting (h k : Nat) : Prop :=
  pageOf (k % 2 ^ 29) = cntPg h ∨ (pMcn + Off.mcnMctrLo ≤ k ∧ k < pMcn + Off.mcnMctrLo + 64)

/-- Every stored register outside the places `l` and the counters is the same. -/
def cellsKept (s t : State) (h : Nat) (l : List Nat) : Prop :=
  ∀ k, k ∉ l → ¬ counting h k → getS t.regs k = getS s.regs k

/-- The registers that writing a black-box record changes, beside those of a CPER record (R581, R582, R585). -/
def bbrCells : List Nat :=
  [pBbr + Off.bbrHeadLo, pBbr + Off.bbrHeadHi, pBbr + Off.bbrLost, pBbr + Off.intStat, pRas + Off.rasCperHead, pRas + Off.intStat]

/-- The CPER ring is off (R585). -/
def State.cperOff (s : State) : Prop := regF s (pRas + Off.rasCperCfg) 4 0 = 0

/-- The ring slots of the next `n` ledger records lie outside the map table, the far ownership table and the access counts. -/
def State.tablesClear (s : State) (n : Nat) : Prop :=
  ∀ a, inNextRecords s n a →
    ∀ x ∈ [(Off.ftmUmapBaseLo, 8 * 2 ^ 21), (Off.ftmFownBaseLo, 851968), (Off.ftmAccBaseLo, 4 * 2 ^ 21)],
      a < tableOff s (pFtm0 + x.1) ∨ tableOff s (pFtm0 + x.1) + x.2 ≤ a

/-- The map table, the far ownership table and the access counts share no byte. -/
def State.tablesApart (s : State) : Prop :=
  let um := tableOff s (pFtm0 + Off.ftmUmapBaseLo)
  let fo := tableOff s (pFtm0 + Off.ftmFownBaseLo)
  let ac := tableOff s (pFtm0 + Off.ftmAccBaseLo)
  (um + 8 * 2 ^ 21 ≤ fo ∨ fo + 851968 ≤ um) ∧ (um + 8 * 2 ^ 21 ≤ ac ∨ ac + 4 * 2 ^ 21 ≤ um) ∧ (fo + 851968 ≤ ac ∨ ac + 4 * 2 ^ 21 ≤ fo)

/-- A manager writes GO of the map engine, which is free, with opcode `op` and one or more items set up (R389). -/
def State.mapGoes (s : State) (w : Writer) (v : W32) (op pg n arg : Nat) : Prop :=
  s.managed w pFtm0 = true ∧ bit v 0 = true ∧ bit (reg s (pFtm0 + Off.ftmMcmdStat)) 31 = false ∧
  bit (reg s (pFtm0 + Off.pageCtl)) 1 = false ∧ regF s (pFtm0 + Off.ftmMcmdOp) 7 0 = op ∧ regF s (pFtm0 + Off.ftmMcmdPage) 20 0 = pg ∧
  regF s (pFtm0 + Off.ftmMcmdCount) 21 0 = n ∧ (reg s (pFtm0 + Off.ftmMcmdArg)).toNat = arg ∧ s.tablesClear 1 ∧ s.tablesApart

/-- The classes of pages whose block-specific registers no definition restricts beyond R70. -/
def plainClasses : List Nat := [0x01, 0x02, 0x04, 0x05, 0x06, 0x41, 0x43, 0x48]

/-! ### Command streams -/

/-- The tile context of a logical tile. -/
def State.ctx (s : State) (h t : Nat) : Tile := getTile s (ctxKey s h t)

/-- The next command of the stream that `d` names is well formed, of class `cls` and opcode `op`, everything that it waits for
holds, and its reads meet no uncorrectable word: it dispatches (R112, R164, R167). -/
def State.sends (s : State) (d : Disp) (cls op : Nat) (w x : W128) : Prop :=
  d.wf = true ∧ d.unc = none ∧ fetchCmd s d.hamlet d.tile = some (w, x) ∧ cwClass w = cls ∧ cwOp w = op ∧
  mayDispatch s d.hamlet d.tile w = true ∧
  cmdBad (s.ctx d.hamlet d.tile) w x (fun i => getD (getStr s d.hamlet d.tile).params i 0) = false

/-- The rows that dispatch a stream's command: class, opcode and the command (R155 to R162). -/
def streamRows : List (Nat × Nat × (Disp → Instr)) :=
  [(0, 0, .ctlNop), (0, 1, .ctlSync), (0, 2, .waitn), (0, 3, .ctlFence), (0, 4, .setp), (0, 5, .stepEnd),
   (1, 1, .mmaFull), (1, 2, .mmaQuad), (1, 3, .mmaBlock), (2, 1, .mv),
   (3, 0x01, .vecAdd), (3, 0x02, .vecSub), (3, 0x03, .vecMul), (3, 0x04, .vecFma), (3, 0x05, .vecMin), (3, 0x06, .vecMax),
   (3, 0x07, .vecCmp), (3, 0x08, .vecSel), (3, 0x10, .vecIadd), (3, 0x11, .vecIsub), (3, 0x12, .vecAnd), (3, 0x13, .vecOr),
   (3, 0x14, .vecXor), (3, 0x15, .vecShl), (3, 0x16, .vecShr), (3, 0x17, .vecRotl), (3, 0x18, .vecCvt), (3, 0x20, .vecExp2),
   (3, 0x21, .vecLn), (3, 0x22, .vecRcp), (3, 0x23, .vecRsqrt), (3, 0x28, .vecRed), (3, 0x29, .vecScan), (3, 0x2A, .vecLrscan),
   (3, 0x2B, .vecLrscanRev), (3, 0x30, .vecLd), (3, 0x31, .vecSt), (3, 0x32, .ldslot), (3, 0x38, .vecKcm),
   (4, 1, .crtSubmit), (5, 1, .atsSubmit), (6, 1, .updSubmit), (7, 1, .penTrigger)]

/-- What the dispatch of a command of a tile's own units may change: the stream, the tile context, registers and interrupts; with
range checks or corrected errors also records and tile states; and its wait record. -/
def tileOnly (s t : State) (d : Disp) (w : W128) : Prop :=
  t = { s with streams := t.streams, tiles := t.tiles, regs := t.regs, irqs := t.irqs, mem := t.mem, mram := t.mram, hams := t.hams,
               freeCtr := t.freeCtr } ∧
  (∀ k, k ≠ ctxKey s d.hamlet d.tile → getTile t k = getTile s k) ∧
  (∀ h l, l < 16 → (h, l) ≠ (d.hamlet, d.tile) → getStr t h l = getStr s h l) ∧
  (cwRchk w = false →
    (∀ p, (getHam s d.hamlet).part = some p → bit (getPart s p).trCfg 31 = false) →
    t.mem = s.mem ∧ t.mram = s.mram ∧ t.hams = s.hams)

/-- Lane `i` of the second operand of a VEC command: SRCB, or IMM where MODE bit 3 is set (R160). -/
def vlaneB (tl : Tile) (v : VecCmd) (i : Nat) : W32 := if 8 ≤ v.mode then v.imm else vget tl v.b i

/-- The value of a pairwise tree at level `d` and lane `i` (R136). -/
def pairTree (f : W32 → W32 → W32) (v : Nat → W32) : Nat → Nat → W32
  | 0, i => v i
  | d + 1, i => f (pairTree f v d i) (pairTree f v d (i + 2 ^ d))

/-- Lane `i` after `d` levels of an inclusive scan (R137). -/
def scanAt {α : Type} (f : α → α → α) (v : Nat → α) : Nat → Nat → α
  | 0, i => v i
  | d + 1, i => if 2 ^ d ≤ i then f (scanAt f v d (i - 2 ^ d)) (scanAt f v d i) else scanAt f v d i

/-- Lane `i` of register `r` of a scan over consecutive registers, with the carry of lane 127 (R137). -/
def scanReg (f : W32 → W32 → W32) (v : Nat → Nat → W32) : Nat → Nat → W32
  | 0, i => scanAt f (v 0) 7 i
  | r + 1, i => f (scanReg f v r 127) (scanAt f (v (r + 1)) 7 i)

/-! ### The cart and the attention sequencer -/

/-- The cart of hamlet `h` is at a descriptor of opcode `op` that it may begin (R187, R189, R190). -/
def State.cartAt (s : State) (h op p : Nat) (r : CartRun) (d : CartDesc) : Prop :=
  h < 128 ∧ cartCur s h = some (r, d) ∧ (getHam s h).part = some p ∧ cartMay s h r = true ∧ cdOp d = op ∧ cdReserved d = false ∧
  (getHam s h).cart = some r

/-- The update streamer of hamlet `h` is at a micro-op of opcode `op` that R327 and R333 let it run. -/
def State.uopAt (s : State) (h op p : Nat) (r : UpdRun) (u : W64) : Prop :=
  h < 128 ∧ (getHam s h).upd = some r ∧ (getHam s h).part = some p ∧ partGoes s p = true ∧ u = curUop s r ∧ uoOp u = op ∧
  uopCause s r u = 0

/-- Lane `i` of slot `k` of a program. -/
def lane (r : UpdRun) (k i : Nat) : W32 := (slotGet r k).getD i 0

/-- Descriptor `i` of a chain is the one to start next, in firing `f`, and R466 finds nothing wrong with it. -/
def State.descAt (s : State) (p chain i op : Nat) (c : Chain) (f : Firing) (d : PenDesc) : Prop :=
  p < 32 ∧ chain < 4096 ∧ penGoes s p = true ∧ nextDesc s p chain i = some (c, f, d) ∧ pdOp d = op ∧ pdBad d = false ∧ rankBad s d = false

/-- Bytes `a` to `a + n − 1` as a unit of the hamlet reaches them are the near-tier bytes from module offset `off` on. -/
def nearSpan (s : State) (p h a n off : Nat) (write : Bool) : Prop :=
  off + n ≤ nearEnd ∧ ∀ k < n, resolve s p h (a + k) write = .mem (off + k) none

end Sys2Proof.Machine
end

