-- ==== Sys2Proof/Certificates/Slice0/Obligations.lean ====
section
/-! DEFINITION. The statements about the module, each to be proved. -/

open Sys2Proof Sys2Proof.Machine

/-! ### Steps and the queue -/

/-- A step runs the command at the front of the queue on the state with the queue's rest; this is the block's fetch. -/
def Obligations.StepRunsFrontOfQueue : Prop :=
  ∀ (c : Instr) (s : State) (rest : List Instr), s.pending = c :: rest → step s = exec c { s with pending := rest }

/-! ### Register pages and the ledger (02) -/

/-- REGISTER_WRITE, BROADCAST_WRITE, PAIR_HI_WRITE and PAIR_LO_WRITE as R57, R59, R70 and R651 give them, on registers that no
other rule restricts.

A write that R70 rejects leaves the register as it is, counts in ERR_CNT of the page and sets INT_STAT.ERR; a write to an
unassigned address and one of another size or alignment count in MOD.ERR_CNT (R56, R57, R70). -/
def Obligations.RegisterWindowWritesAndRejections : Prop :=
  (
  (∀ (s : State) (w : Writer) (a : Nat) (r : RegRow) (v : W32),
    s.managed w (pageOf a) = true → a < 0x20000000 → a % 4 = 0 → 0x100 ≤ a % 4096 → classOf (pageOf a) ∈ plainClasses →
    rowAt a = some r → r.kind = 0 → r.wr % 2 = 1 →
    ∃ t, exec (.registerWrite w a 4 (v.setWidth 64)) s = .next t ∧ reg t a = applyFields r (reg s a) v ∧
      ledgerOnly s t 1 [regKey s a, pageOf a + Off.ledgerSeq]) ∧
  (∀ (s : State) (w : Writer) (h : Nat) (v : W32),
    h < 32 → (∀ d < 4, s.managed w ((d + 1) * 0x2000000 + h * 0x40000 + 0x1B000) = true) →
    ∃ t, exec (.broadcastWrite w (0x1E000000 + h * 0x40000 + 0x1B000 + Off.intEn) v) s = .next t ∧
      (∀ d < 4, reg t ((d + 1) * 0x2000000 + h * 0x40000 + 0x1B000 + Off.intEn) = v) ∧
      ledgerOnly s t 4 ((List.range 4).flatMap (fun d =>
        [(d + 1) * 0x2000000 + h * 0x40000 + 0x1B000 + Off.intEn, (d + 1) * 0x2000000 + h * 0x40000 + 0x1B000 + Off.ledgerSeq]))) ∧
  (∀ (s : State) (w : Writer) (a : Nat) (v : W32),
    w.wf = true → a < 0x20000000 → a % 4 = 0 → isBcast a = true → classOf (pageOf (dieAddr 0 a)) ≠ 0x44 →
    exec (.broadcastWrite w a v) s = .next (errInc s pMod)) ∧
  (∀ (s : State) (w : Writer) (a : Nat) (r : RegRow) (v : W32),
    s.managed w (pageOf a) = true → a < 0x20000000 → a % 4 = 0 → 0x100 ≤ a % 4096 → classOf (pageOf a) ∈ plainClasses →
    rowAt a = some r → r.kind = 2 → r.wr % 2 = 1 →
    exec (.pairHiWrite w a v) s =
      .next { s with staged := putS s.staged (regKey s (a - 4)) (v &&& BitVec.ofNat 32 r.rw) }) ∧
  (∀ (s : State) (w : Writer) (a : Nat) (r : RegRow) (v : W32),
    s.managed w (pageOf a) = true → a < 0x20000000 → a % 4 = 0 → 0x100 ≤ a % 4096 → classOf (pageOf a) ∈ plainClasses →
    rowAt a = some r → r.kind = 1 → r.wr % 2 = 1 →
    ∃ t, exec (.pairLoWrite w a v) s = .next t ∧ reg t a = v &&& BitVec.ofNat 32 r.rw ∧
      reg t (a + 4) = getD s.staged (regKey s a) (reg s (a + 4)) ∧ getS t.staged (regKey s a) = none ∧
      ledgerOnly { s with staged := t.staged } t 2 [regKey s a, regKey s (a + 4), pageOf a + Off.ledgerSeq])) ∧
  (
  (∀ (s : State) (w : Writer) (a : Nat) (r : RegRow) (v : W32),
    w.wf = true → a < 0x20000000 → a % 4 = 0 → s.pageOpen (pageOf a) = true →
    (a % 4096 < 0x28 ∨ classOf (pageOf a) ∈ plainClasses) → rowAt a = some r → admits s w r a v = false →
    exec (.registerWrite w a 4 (v.setWidth 64)) s = .next (errInc s (pageOf a)) ∧
    reg (errInc s (pageOf a)) (pageOf a + Off.errCnt) = w32 (satAdd 32 (reg s (pageOf a + Off.errCnt)).toNat 1) ∧
    bit (reg (errInc s (pageOf a)) (pageOf a + Off.intStat)) 31 = true ∧
    cellsSame s (errInc s (pageOf a)) [pageOf a + Off.errCnt, pageOf a + Off.intStat]) ∧
  (∀ (s : State) (w : Writer) (a : Nat) (v : W32),
    w.wf = true → a < 0x20000000 → a % 4 = 0 → isBcast a = false → pageLive s (pageOf a) = false →
    exec (.registerWrite w a 4 (v.setWidth 64)) s = .next (errInc s pMod)) ∧
  (∀ (s : State) (w : Writer) (a size : Nat) (v : W64),
    w.wf = true → a < 0x20000000 → ¬ (size = 4 ∧ a % 4 = 0) → ¬ (size = 8 ∧ a % 8 = 0) →
    exec (.registerWrite w a size v) s = .next (errInc s pMod)))

/-- Reads: a LO register captures its HI register (R614), an RC field returns its value and goes to reset (R19), and RNG_CNT
returns the count and clears it (R140). A count that the spec leaves open reads as a free value (log entry 37). -/
def Obligations.ReadsCaptureAndClear : Prop :=
  (∀ (s : State) (a : Nat) (r : RegRow),
    a < 0x20000000 → a % 4 = 0 → pageLive s (pageOf a) = true → rowAt a = some r → r.cap = true → r.rc = 0 →
    getS s.capt (regKey s a) = none →
    exec (.pairLoRead a 4 none) s = .next { s with
      resp := bytesOf 4 (regView s a).toNat, freeCtr := s.freeCtr + (if openMask s a = 0 then 0 else 1024),
      capt := putS (delS s.capt (regKey s a)) (regKey s (a + 4)) (regView s (a + 4)) }) ∧
  (∀ (s : State) (a : Nat) (r : RegRow),
    a < 0x20000000 → a % 4 = 0 → pageLive s (pageOf a) = true → rowAt a = some r → r.cap = false → r.rc ≠ 0 →
    getS s.capt (regKey s a) = none →
    ∃ t, exec (.rcRead a 4 none) s = .next t ∧ t.resp = bytesOf 4 (regView s a).toNat ∧
      reg t a = (reg s a &&& ~~~(w32 r.rc)) ||| (resetOf a &&& w32 r.rc) ∧
      cellsSame s t [regKey s a] ∧ t = { s with regs := t.regs, capt := delS s.capt (regKey s a), resp := t.resp, freeCtr := t.freeCtr }) ∧
  (∀ (s : State) (p : Nat), tilePage p = true → pageLive s p = true →
    exec (.rngCntRead p) s =
      .next { setReg s (p + Off.tilRngCnt) 0 with resp := bytesOf 4 (reg s (p + Off.tilRngCnt)).toNat })

/-- PAGE_CTL (R60, R64, R65): ERR_CLR, FENCE and its completion, QUIESCE_REQ, the resume, the end of quiescing, ENABLE, and the
disable that is refused while the unit is not quiesced.

INT_STAT, INT_FORCE and OWNER (R67 to R71): a bit that the unit sets in the cycle of its clear stays 1, a forced bit that INT_EN
enables sends the page's interrupt, OWNER follows its writer's class and LOCK, and its change sets OWNER_CHG. -/
def Obligations.HeaderWrites : Prop :=
  (
  ∀ (s : State) (w : Writer) (p : Nat) (v : W32), s.managed w p = true →
    let ctl := reg s (p + Off.pageCtl)
    let kept := bit ctl 0 = true → bit v 0 = false → bit (pageStat s p) 3 = true
    let frame (t : State) := ledgerOnly s t 1 [p + Off.pageCtl, p + Off.pageStat, p + Off.errCnt, p + Off.intStat, p + Off.ledgerSeq]
    (bit v 3 = true → kept →
      ∃ t, exec (.errClr w p v) s = .next t ∧ reg t (p + Off.errCnt) = 0 ∧ frame t) ∧
    (bit v 3 = true → ¬ kept →
      ∃ t, exec (.errClr w p v) s = .next t ∧ reg t (p + Off.errCnt) = 1 ∧ bit (reg t (p + Off.pageCtl)) 0 = true ∧ frame t) ∧
    (bit v 2 = true →
      ∃ t, exec (.pageFence w p v) s = .next t ∧ bit (reg t (p + Off.pageStat)) 5 = true ∧ frame t) ∧
    (∃ t, exec (.fenceComplete p) s = .next t ∧ bit (reg t (p + Off.pageStat)) 5 = false ∧
      t = { s with regs := t.regs } ∧ cellsSame s t [p + Off.pageStat]) ∧
    (canQuiesce p = true → bit ctl 1 = false → bit v 1 = true → regF s (p + Off.pageStat) 2 0 ≠ 4 →
      ∃ t, exec (.quiesceReq w p v) s = .next t ∧ bit (reg t (p + Off.pageCtl)) 1 = true ∧
        regF t (p + Off.pageStat) 2 0 = 2 ∧ frame t) ∧
    (canQuiesce p = true → bit ctl 1 = true → bit v 1 = false → bit v 0 = true → regF s (p + Off.pageStat) 2 0 ≠ 4 →
      ∃ t, exec (.quiesceResume w p v) s = .next t ∧ bit (reg t (p + Off.pageCtl)) 1 = false ∧
        bit (reg t (p + Off.pageStat)) 3 = false ∧ regF t (p + Off.pageStat) 2 0 = 1 ∧ frame t) ∧
    (regF s (p + Off.pageStat) 2 0 = 2 → bit ctl 1 = true → unitIdle s p = true →
      ∃ t, exec (.unitQuiesced p) s = .next t ∧ regF t (p + Off.pageStat) 2 0 = 3 ∧ bit (reg t (p + Off.pageStat)) 3 = true ∧
        bit (reg t (p + Off.intStat)) 30 = true ∧ t = { s with regs := t.regs, irqs := t.irqs } ∧
        cellsSame s t [p + Off.pageStat, p + Off.intStat]) ∧
    (bit ctl 1 = false → bit v 1 = false → bit v 0 = true → regF s (p + Off.pageStat) 2 0 ≠ 4 →
      ∃ t, exec (.pageEnable w p v) s = .next t ∧ bit (reg t (p + Off.pageCtl)) 0 = true ∧
        regF t (p + Off.pageStat) 2 0 = 1 ∧ frame t) ∧
    (bit v 0 = false → bit (pageStat s p) 3 = true →
      ∃ t, exec (.pageDisable w p v) s = .next t ∧ bit (reg t (p + Off.pageCtl)) 0 = false ∧ frame t) ∧
    (¬ kept → bit v 3 = false →
      ∃ t, exec (.pageDisable w p v) s = .next t ∧ bit (reg t (p + Off.pageCtl)) 0 = true ∧
        reg t (p + Off.errCnt) = w32 (satAdd 32 (reg s (p + Off.errCnt)).toNat 1) ∧ frame t)) ∧
  (
  ∀ (s : State) (w : Writer) (p : Nat) (v same : W32), s.up = true → w.wf = true → s.pageOpen p = true → p ≠ pLdg →
    let own := reg s (p + Off.owner)
    let frame (t : State) := ledgerOnly s t 1 [p + Off.intStat, p + Off.intForce, p + Off.owner, p + Off.errCnt, p + Off.ledgerSeq]
    (w.cls = .m →
      ∃ t, exec (.intStatClear w p v same) s = .next t ∧
        reg t (p + Off.intStat) = (reg s (p + Off.intStat) &&& ~~~v) ||| same ∧ frame t) ∧
    (w.cls = .d → bit (reg s (pBoot + Off.bootStat)) 29 = true →
      ∃ t, exec (.intForce w p v) s = .next t ∧ reg t (p + Off.intStat) = reg s (p + Off.intStat) ||| v ∧
        (raised s p = false → v &&& reg s (p + Off.intEn) ≠ 0 → t.irqs.getLast? = some (intTarget s p)) ∧ frame t) ∧
    (w.cls = .m →
      ∃ t, exec (.ownerWrite w p v) s = .next t ∧ reg t (p + Off.owner) = (own &&& 0x7FFF0000) ||| (v &&& 0x8000FFFF) ∧
        (reg t (p + Off.owner) ≠ own → bit (reg t (p + Off.intStat)) 29 = true) ∧ frame t) ∧
    (w.cls = .f → bit own 31 = false →
      ∃ t, exec (.ownerWrite w p v) s = .next t ∧ reg t (p + Off.owner) = (own &&& 0x7FFF0000) ||| (v &&& 0xFFFF) ∧ frame t) ∧
    (w.cls = .f → bit own 31 = true → w.onM = true → bit v 31 = false →
      ∃ t, exec (.ownerWrite w p v) s = .next t ∧ reg t (p + Off.owner) = own &&& 0x7FFFFFFF ∧ frame t) ∧
    (w.cls = .f → bit own 31 = true → w.onM = false →
      ∃ t, exec (.ownerWrite w p v) s = .next t ∧ reg t (p + Off.owner) = own ∧
        reg t (p + Off.errCnt) = w32 (satAdd 32 (reg s (p + Off.errCnt)).toNat 1) ∧ frame t))

/-- A ledger record takes the next sequence number, names it in the page's LEDGER_SEQ, chains to the record before it and stands in
its slot of the ring (R73, R75, R79); LEDGER_SEAL writes the oldest seal that is due (R80). -/
def Obligations.LedgerRecordsChainAndSeal : Prop :=
  (∀ (s : State) (w : Writer) (flags a : Nat) (old new : W32), a < 0x20000000 → pageOf a ≠ pLdg →
    let seq := (pair s (pLdg + Off.ldgHeadSeqLo) + 1) % 2 ^ 64
    let body := ledgerBody s w seq flags a old new
    let chain := (sha384 (s.ledger.chain ++ body)).take 16
    let t := ledgerAdd s w flags a old new
    pair t (pLdg + Off.ldgHeadSeqLo) = seq ∧ reg t (pageOf a + Off.ledgerSeq) = w32 seq ∧ t.ledger.chain = chain ∧
    body.length = 48 ∧ chain.length = 16 ∧
    (s.ledger.ringUp = true →
      rdBytes t.mem (tableOff s (pLdg + Off.ldgRingBaseLo) + 64 * (seq % 1048576)) 64 = body ++ chain) ∧
    (seq % 4096 = 4095 → t.ledger.due = s.ledger.due ++ [(seq, chain)])) ∧
  (∀ (s : State) (n : Nat) (c : List Byte) (rest : List (Nat × List Byte)), s.ledger.due = (n, c) :: rest →
    ∃ t, exec .ledgerSeal s = .next t ∧ t.ledger.due = rest ∧ t.ledger.unsealed = n + 1 ∧
      pair t (pBbr + Off.bbrHeadLo) = (pair s (pBbr + Off.bbrHeadLo) + 4) % 2 ^ 64 ∧
      bit (reg t (pLdg + Off.intStat)) 2 = true ∧
      t = { s with regs := t.regs, irqs := t.irqs, ledger := t.ledger, mram := t.mram } ∧
      cellsSame s t [pBbr + Off.bbrHeadLo, pBbr + Off.bbrHeadHi, pBbr + Off.bbrLost, pBbr + Off.intStat, pLdg + Off.intStat])
/-! ### Command streams and the tile (03, 04, 05) -/

/-- The vector unit's lane operations (R99, R101, R134, R160, R650): each lane of DST takes the operation of the lanes of its
sources, the other registers, scratchpad and slots stay, and a NaN or Inf that arithmetic yields sets the stream's non-finite flag
(R100). SEL takes SRCA where the mask lane is not zero (the model's choice, log entry 15); a shift by 32 or more is a free value
and not stated (log entry 8). -/
def Obligations.VectorLaneResults : Prop :=
  ∀ (s : State) (d : Disp) (w x : W128),
    let tl := s.ctx d.hamlet d.tile
    let k := ctxKey s d.hamlet d.tile
    let v := vecCmd w
    let a := vget tl v.a
    let b := vlaneB tl v
    let c := vget tl v.c
    let kept (t : State) : Prop :=
      (∀ r < 64, r ≠ v.dst → ∀ i < 128, vget (getTile t k) r i = vget tl r i) ∧ (getTile t k).spad = tl.spad ∧
      (getTile t k).slotE = tl.slotE ∧ (getTile t k).slotS = tl.slotS ∧ (getTile t k).slotF = tl.slotF ∧ tileOnly s t d w
    let gives (op : Nat) (i : Disp → Instr) (fp : Bool) (f : Nat → W32) : Prop := s.sends d 3 op w x →
      ∃ t, exec (i d) s = .next t ∧ (∀ i < 128, vget (getTile t k) v.dst i = f i) ∧ kept t ∧
        (fp = true → (∃ i < 128, nonFinite (f i) = true) → bit (reg t (nfReg s d.hamlet d.tile)) 31 = true)
    gives 0x01 .vecAdd true (fun i => fadd (a i) (b i)) ∧
    gives 0x02 .vecSub true (fun i => fsub (a i) (b i)) ∧
    gives 0x03 .vecMul true (fun i => fmul (a i) (b i)) ∧
    gives 0x04 .vecFma true (fun i => ffma (a i) (b i) (c i)) ∧
    gives 0x05 .vecMin true (fun i => fmin (a i) (b i)) ∧
    gives 0x06 .vecMax true (fun i => fmax (a i) (b i)) ∧
    gives 0x07 .vecCmp false (fun i => vcmp v.mode (a i) (b i)) ∧
    gives 0x08 .vecSel false (fun i => if c i ≠ 0 then a i else b i) ∧
    gives 0x10 .vecIadd false (fun i => a i + b i) ∧
    gives 0x11 .vecIsub false (fun i => a i - b i) ∧
    gives 0x12 .vecAnd false (fun i => a i &&& b i) ∧
    gives 0x13 .vecOr false (fun i => a i ||| b i) ∧
    gives 0x14 .vecXor false (fun i => a i ^^^ b i) ∧
    gives 0x17 .vecRotl false (fun i => rotl (a i) ((b i).toNat % 32)) ∧
    gives 0x20 .vecExp2 true (fun i => fexp2 (a i)) ∧
    gives 0x21 .vecLn true (fun i => fln (a i)) ∧
    gives 0x22 .vecRcp true (fun i => frcp (a i)) ∧
    gives 0x23 .vecRsqrt true (fun i => frsqrt (a i)) ∧
    (s.sends d 3 0x15 w x → ∃ t, exec (.vecShl d) s = .next t ∧
      (∀ i < 128, (b i).toNat < 32 → vget (getTile t k) v.dst i = a i <<< (b i).toNat) ∧ kept t) ∧
    (s.sends d 3 0x16 w x → ∃ t, exec (.vecShr d) s = .next t ∧
      (∀ i < 128, (b i).toNat < 32 → vget (getTile t k) v.dst i = a i >>> (b i).toNat) ∧ kept t)

/-- The cross-lane operations of the vector unit: the pairwise tree of RED, the levels and the carry of SCAN, the pair combination
of LRSCAN forwards and backwards (R136 to R138), the keyed counter mix (R240), loads, stores, slot loads and conversion (R134,
R160, R161). RED's lanes above 0 are free values and not stated (log entry 8). -/
def Obligations.VectorCrossLaneResults : Prop :=
  ∀ (s : State) (d : Disp) (w x : W128),
    let tl := s.ctx d.hamlet d.tile
    let k := ctxKey s d.hamlet d.tile
    let v := vecCmd w
    let b := vlaneB tl v
    let ky := getStr s d.hamlet d.tile
    (s.sends d 3 0x28 w x → ∃ t, exec (.vecRed d) s = .next t ∧ tileOnly s t d w ∧
      vget (getTile t k) v.dst 0 = pairTree (redOp v.mode)
        (fun i => (List.range v.b).foldl (fun acc j => redOp v.mode acc (vget tl (v.a + 1 + j) i)) (vget tl v.a i)) 7 0) ∧
    (s.sends d 3 0x29 w x → ∃ t, exec (.vecScan d) s = .next t ∧ tileOnly s t d w ∧
      ∀ r ≤ v.b, ∀ i < 128, vget (getTile t k) (v.dst + r) i = scanReg (redOp v.mode) (fun j => vget tl (v.a + j)) r i) ∧
    (s.sends d 3 0x2A w x → ∃ t, exec (.vecLrscan d) s = .next t ∧ tileOnly s t d w ∧
      ∀ i < 128, vget (getTile t k) v.dst i =
        (scanAt (fun p q => (fmul q.1 p.1, ffma q.1 p.2 q.2)) (fun j => (vget tl v.a j, b j)) 7 i).2) ∧
    (s.sends d 3 0x2B w x → ∃ t, exec (.vecLrscanRev d) s = .next t ∧ tileOnly s t d w ∧
      ∀ i < 128, vget (getTile t k) v.dst (127 - i) =
        (scanAt (fun p q => (fmul q.1 p.1, ffma q.1 p.2 q.2)) (fun j => (vget tl v.a (127 - j), b (127 - j))) 7 i).2) ∧
    (s.sends d 3 0x38 w x → ∃ t, exec (.vecKcm d) s = .next t ∧ tileOnly s t d w ∧
      ∀ j < 4, ∀ i < 128, vget (getTile t k) (v.dst + j) i =
        (kcm ky.key0 ky.key1 (vget tl v.c i) (vget tl v.a i) (b i)).getD j 0) ∧
    (s.sends d 3 0x30 w x → ∃ t, exec (.vecLd d) s = .next t ∧ tileOnly s t d w ∧
      (∀ i < 128, vget (getTile t k) v.dst i = rd32 tl.spad (fld v.imm 17 0 + 4 * i)) ∧ (getTile t k).spad = tl.spad) ∧
    (s.sends d 3 0x31 w x → ∃ t, exec (.vecSt d) s = .next t ∧ tileOnly s t d w ∧
      (∀ i < 128, rd32 (getTile t k).spad (fld v.imm 17 0 + 4 * i) = vget tl v.a i) ∧
      (∀ c, c < fld v.imm 17 0 ∨ fld v.imm 17 0 + 512 ≤ c → rdB (getTile t k).spad c = rdB tl.spad c) ∧
      (getTile t k).vregs = tl.vregs) ∧
    (s.sends d 3 0x32 w x → ∃ t, exec (.ldslot d) s = .next t ∧ tileOnly s t d w ∧ getTile t k = ldslot tl v ∧
      (getTile t k).spad = tl.spad ∧ (getTile t k).vregs = tl.vregs) ∧
    (s.sends d 3 0x18 w x → ∃ t, exec (.vecCvt d) s = .next t ∧ tileOnly s t d w ∧
      (∀ i < 128, vget (getTile t k) v.dst i = (vcvt ky.key0 ky.key1 tl v).1.getD i 0) ∧ (getTile t k).spad = tl.spad)

/-- The grid and the matrix-vector path: each output is the accumulation of its row pair over K from C0 or +0, in the place that the
command names, and nothing else of the scratchpad changes (R90 to R96, R116, R121, R125, R128, R152 to R154). -/
def Obligations.MatrixProducts : Prop :=
  ∀ (s : State) (d : Disp) (w x : W128),
    let tl := s.ctx d.hamlet d.tile
    let k := ctxKey s d.hamlet d.tile
    let par := fun i => getD (getStr s d.hamlet d.tile).params i 0
    let out (t : State) (toRegs : Bool) (at_ n : Nat) (f : Nat → W32) : Prop :=
      if toRegs then
        (∀ e < n, vget (getTile t k) (at_ % 64 + e / 128) (e % 128) = f e) ∧ (getTile t k).spad = tl.spad
      else
        (∀ e < n, rd32 (getTile t k).spad (at_ + 4 * e) = f e) ∧
        (∀ c, c < at_ ∨ at_ + 4 * n ≤ c → rdB (getTile t k).spad c = rdB tl.spad c) ∧ (getTile t k).vregs = tl.vregs
    (s.sends d 1 1 w x →
      let p := mmaFull w x par
      ∃ t, exec (.mmaFull d) s = .next t ∧ tileOnly s t d w ∧ out t p.toRegs p.c (p.m * p.n) (fun e =>
        dot (rowRef tl.spad p.afmt p.a p.m p.k (e / p.n)) (rowRef tl.spad p.bfmt p.b p.n p.k (e % p.n)) p.k
          (match p.c0 with | some c => rd32 tl.spad (c + 4 * e) | none => 0))) ∧
    (s.sends d 1 2 w x → ∃ t, exec (.mmaQuad d) s = .next t ∧ tileOnly s t d w ∧
      getTile t k = (mmaSubs tl.spad w).foldl (fun c q => outTo c q.1.toRegs q.1.c (mmaVals tl.spad q.1)) tl) ∧
    (s.sends d 1 3 w x → ∃ t, exec (.mmaBlock d) s = .next t ∧ tileOnly s t d w ∧
      getTile t k = (mmaSubs tl.spad w).foldl (fun c q => outTo c q.1.toRegs q.1.c (mmaVals tl.spad q.1)) tl) ∧
    (s.sends d 2 1 w x →
      let c := mvCmd w x par
      ∃ t, exec (.mv d) s = .next t ∧ tileOnly s t d w ∧ out t c.toRegs c.y (c.rows * c.nvec) (fun e =>
        dot (rowRef tl.spad c.wfmt c.w c.rows c.k (e % c.rows)) (slotRef tl (e / c.rows) c) c.k
          (match c.y0 with | some a => rd32 tl.spad (a + 4 * e) | none => 0)))

/-- The control class and the submits: waits are taken together, the stream moves past the command, SETP writes its parameter,
STEP_END ends the step, a submitted job joins the end of its unit's queue, TRIGGER increments the START_CTR of its chain (R155, R156,
R162, R167, R175, R176, R191, R443). -/
def Obligations.StreamControlAndSubmits : Prop :=
  ∀ (s : State) (d : Disp) (w x : W128),
    let y := getStr s d.hamlet d.tile
    let after (t : State) := getStr t d.hamlet d.tile
    let took (t : State) : Prop := (after t).pos = y.pos + 1 ∧ (after t).lastOp = cwOper w ∧
      (∀ c < 64, getD (after t).sync c 0 = getD y.sync c 0 - waitSum (waitsOf w) c) ∧ t.tiles = s.tiles
    let rest (t : State) : Prop :=
      (∀ h l, l < 16 → (h, l) ≠ (d.hamlet, d.tile) → getStr t h l = getStr s h l)
    (s.sends d 0 0 w x → cwSigEn w = false → ∃ t, exec (.ctlNop d) s = .next t ∧ took t ∧ rest t ∧ tileOnly s t d w) ∧
    (s.sends d 0 1 w x → cwSigEn w = false → ∃ t, exec (.ctlSync d) s = .next t ∧ took t ∧ rest t ∧ tileOnly s t d w) ∧
    (s.sends d 0 1 w x → cwSigEn w = true → cwSigRem w = false →
      getD y.sync (cwSigIdx w) 0 - waitSum (waitsOf w) (cwSigIdx w) ≠ 65535 →
      ∃ t, exec (.ctlSync d) s = .next t ∧ rest t ∧
        getD (after t).sync (cwSigIdx w) 0 = getD y.sync (cwSigIdx w) 0 - waitSum (waitsOf w) (cwSigIdx w) + 1) ∧
    (s.sends d 0 2 w x → cwSigEn w = false →
      (∀ c < 64, waitSum (waitsOf w) c ≤ getD y.sync c 0) ∧
      ∃ t, exec (.waitn d) s = .next t ∧ took t ∧ rest t ∧ tileOnly s t d w) ∧
    (s.sends d 0 3 w x → cwSigEn w = false →
      y.inflight = [] ∧ ∃ t, exec (.ctlFence d) s = .next t ∧ took t ∧ rest t ∧ tileOnly s t d w) ∧
    (s.sends d 0 4 w x → cwSigEn w = false → ∃ t, exec (.setp d) s = .next t ∧ took t ∧ rest t ∧
      getD (after t).params (fld w 35 32) 0 = w32 (fld w 31 0) ∧
      (∀ i < 16, i ≠ fld w 35 32 → getD (after t).params i 0 = getD y.params i 0) ∧ tileOnly s t d w) ∧
    (s.sends d 0 5 w x → cwSigEn w = false → ∃ t, exec (.stepEnd d) s = .next t ∧ took t ∧ rest t ∧
      (after t).phase = .ended ∧ tileOnly s t d w) ∧
    (s.sends d 4 1 w x → ∃ t, exec (.crtSubmit d) s = .next t ∧ took t ∧ rest t ∧
      (getHam t d.hamlet).cartQ = (getHam s d.hamlet).cartQ ++ [⟨d.tile, fld w 31 0, w⟩] ∧ (after t).inflight.length = y.inflight.length + 1) ∧
    (s.sends d 5 1 w x → ∃ t, exec (.atsSubmit d) s = .next t ∧ took t ∧ rest t ∧
      (getHam t d.hamlet).atsQ = (getHam s d.hamlet).atsQ ++ [⟨d.tile, fld w 31 0, w⟩] ∧ (after t).inflight.length = y.inflight.length + 1) ∧
    (s.sends d 6 1 w x → ∃ t, exec (.updSubmit d) s = .next t ∧ took t ∧ rest t ∧
      (getHam t d.hamlet).updQ = (getHam s d.hamlet).updQ ++ [⟨d.tile, fld w 15 0, w⟩] ∧ (after t).inflight.length = y.inflight.length + 1) ∧
    (∀ (p : Nat) (c : Chain), s.sends d 7 1 w x → cwSigEn w = false → (getHam s d.hamlet).part = some p →
      bit (getPart s p).trCfg 31 = false → chainHdr s p (fld w 15 0) = some c → c.ctr ≤ 255 →
      getD (getPart s p).pctr c.ctr 0 ≠ 2 ^ 48 - 1 → ∃ t, exec (.penTrigger d) s = .next t ∧ took t ∧ rest t ∧
      getD (getPart t p).pctr c.ctr 0 = getD (getPart s p).pctr c.ctr 0 + 1 ∧
      (∀ k, k ≠ c.ctr → getD (getPart t p).pctr k 0 = getD (getPart s p).pctr k 0) ∧
      ∀ q, q ≠ p → getPart t q = getPart s q)

/-- A completed command leaves its unit and adds 1 to the counter that it signals; a counter at 65,535 stays and stops the stream
that owns it (R168, R169); a shadow changes nothing but counters while its results agree (R558).

A command that the rules reject moves no data, sends no signal and stops its stream: the tile is in FAULT with INT_STAT.SRC bit
4, and LAST_OP holds the operator (R164, R165). A command whose waits or unit do not let it dispatch leaves everything as it is
(R167). An uncorrectable scratchpad word that a dispatched command reads is delivered to no unit (R133). -/
def Obligations.CommandsCompleteAreRejectedOrWait : Prop :=
  (
  (∀ (s : State) (h t : Nat) (u : UnitK) (f : InFlight), h < 128 → t < 16 →
    let x := getStr s h t
    x.inflight.find? (ripe u) = some f → cwSigEn f.word = true → cwSigRem f.word = false →
    getD x.sync (cwSigIdx f.word) 0 ≠ 65535 →
    ∃ r, exec (.commandComplete h t u) s = .next r ∧
      (getStr r h t).inflight = dropFirst (ripe u) x.inflight ∧
      getD (getStr r h t).sync (cwSigIdx f.word) 0 = getD x.sync (cwSigIdx f.word) 0 + 1 ∧
      (∀ c, c ≠ cwSigIdx f.word → getD (getStr r h t).sync c 0 = getD x.sync c 0) ∧
      r = { s with streams := r.streams, hams := r.hams, sigOrd := s.sigOrd + 1 }) ∧
  (∀ (s : State) (h t : Nat) (u : UnitK) (f : InFlight), h < 128 → t < 16 →
    let x := getStr s h t
    x.inflight.find? (ripe u) = some f → cwSigEn f.word = true → cwSigRem f.word = false →
    getD x.sync (cwSigIdx f.word) 0 = 65535 →
    ∃ r, exec (.commandComplete h t u) s = .next r ∧ getD (getStr r h t).sync (cwSigIdx f.word) 0 = 65535 ∧
      (getStr r h t).phase = .stopped ∧ (getStr r h t).lastOp = x.lastOp ∧
      regF r (tilPg h (physOf s h t) + Off.pageStat) 2 0 = 4 ∧ bit (reg r (tilPg h (physOf s h t) + Off.intStat)) 5 = true) ∧
  (∀ (s : State) (h t i p : Nat), h < 128 → t < 16 → (getHam s h).part = some p → shadowed s p t i = true →
    i < (getStr s h t).gmv →
    ∃ r, exec (.shadowRun h t i false) s = .next r ∧ r = { s with regs := r.regs, irqs := r.irqs }) ∧
  (∀ (s : State) (h t i p : Nat), h < 128 → t < 16 → (getHam s h).part = some p → p < 32 → shadowed s p t i = true →
    i < (getStr s h t).gmv → (getPart s p).inStep = true → (getPart s p).cause = none →
    ∃ r, exec (.shadowRun h t i true) s = .next r ∧ ((getPart r p).cause.map (·.code)) = some 6 ∧
      bit (reg r (pRas + Off.rasLastMm)) 31 = true)) ∧
  (
  ∀ (s : State) (d : Disp) (w x : W128), ∀ row ∈ streamRows, d.wf = true → fetchCmd s d.hamlet d.tile = some (w, x) →
    cwClass w = row.1 → cwOp w = row.2.1 →
    let p := tilPg d.hamlet (physOf s d.hamlet d.tile)
    let bad := cmdBad (s.ctx d.hamlet d.tile) w x (fun i => getD (getStr s d.hamlet d.tile).params i 0)
    let y := getStr s d.hamlet d.tile
    let stopped (t : State) (src : Nat) : Prop :=
      t.tiles = s.tiles ∧ (getStr t d.hamlet d.tile).phase = .stopped ∧ (getStr t d.hamlet d.tile).inflight = y.inflight ∧
      (getStr t d.hamlet d.tile).lastOp = cwOper w ∧ regF t (p + Off.pageStat) 2 0 = 4 ∧ bit (reg t (p + Off.intStat)) src = true ∧
      (∀ h l, l < 16 → (h, l) ≠ (d.hamlet, d.tile) → getStr t h l = getStr s h l)
    (mayDispatch s d.hamlet d.tile w = false → exec (row.2.2 d) s = .next s) ∧
    (mayDispatch s d.hamlet d.tile w = true → bad = true →
      ∃ t, exec (row.2.2 d) s = .next t ∧ stopped t 4 ∧ (getStr t d.hamlet d.tile).pos = y.pos ∧
        (getStr t d.hamlet d.tile).sync = y.sync ∧ t.mem = s.mem) ∧
    (mayDispatch s d.hamlet d.tile w = true → bad = false → ∀ a, d.unc = some a →
      ∃ t, exec (row.2.2 d) s = .next t ∧ stopped t 3 ∧
        (bit (reg s (p + Off.tilSpadEaddr)) 31 = false → reg t (p + Off.tilSpadEaddr) = w32 (2 ^ 31 + a / 8 * 8))))

/-- The tile page's own writes and its non-finite registers: clearing FLAG returns LAYER and OPERATOR to reset, and a command that
sets the flag in the same cycle is recorded (R144); bounds are staged until BND_KEY is written, and crossed bounds turn the entry
OFF and count an error (R142, R143). -/
def Obligations.TilePageWrites : Prop :=
  ∀ (s : State) (w : Writer) (p : Nat) (v : W32), tilePage p = true → s.managed w p = true →
    let nf (second : Bool) := p + (if second then Off.tilNfB else Off.tilNfA)
    let bnd := regKey s (p + Off.tilBndLo)
    (∀ second, bit v 31 = true → bit (reg s (nf second)) 31 = true →
      ∃ t, exec (.nfFlagClear w p second v none) s = .next t ∧ reg t (nf second) = 0x0FFFF000 ∧
        ledgerOnly s t 1 [nf second, p + Off.ledgerSeq]) ∧
    (∀ second c, bit v 31 = true → bit (reg s (nf second)) 31 = true →
      ∃ t, exec (.nfFlagClear w p second v (some c)) s = .next t ∧ reg t (nf second) = setBit (c &&& 0x0FFFFFFF) 31 true ∧
        bit (reg t (p + Off.intStat)) 0 = true ∧ ledgerOnly s t 1 [nf second, p + Off.ledgerSeq, p + Off.intStat]) ∧
    (∃ t, exec (.bndBoundWrite w p false v) s = .next t ∧ getS t.bndStaged bnd = some v ∧
      reg t (p + Off.tilBndLo) = reg s (p + Off.tilBndLo)) ∧
    (∃ t, exec (.bndBoundWrite w p true v) s = .next t ∧ getS t.bndStaged (regKey s (p + Off.tilBndHi)) = some v ∧
      reg t (p + Off.tilBndHi) = reg s (p + Off.tilBndHi)) ∧
    (let lo := getD s.bndStaged bnd (reg s (p + Off.tilBndLo))
     let hi := getD s.bndStaged (regKey s (p + Off.tilBndHi)) (reg s (p + Off.tilBndHi))
     ∃ t, exec (.bndKeyWrite w p v) s = .next t ∧ reg t (p + Off.tilBndLo) = lo ∧ reg t (p + Off.tilBndHi) = hi ∧
       fld (reg t (p + Off.tilBndKey)) 15 0 = fld v 15 0 ∧
       fld (reg t (p + Off.tilBndKey)) 31 30 = (if flt hi lo then 0 else fld v 31 30) ∧
       reg t (p + Off.errCnt) = (if flt hi lo then w32 (satAdd 32 (reg s (p + Off.errCnt)).toNat 1) else reg s (p + Off.errCnt)))
/-! ### Steps of a partition (05) -/

/-- The release of a step numbers it, starts the body of every stream with the number in P0 and P1 and its counters kept, and
shows the number in HAM.STEP with its interrupt (R175, R176, R656); a release that is held leaves the step as it is.

A hamlet that is not the last of its partition to end its step only reaches its boundary (R175); a stream whose dispatch waits
beyond the step limit makes the step hung, with what it waits for (R174, R549); a learner's placement ends once every prologue
has run, and with it a RESET (R183, R503).

At the millisecond boundary of a generator that runs no step the command at the hub takes effect, and the request-table window
shows the entry as it then is (R275, R277). Stated for a PAUSE and a CREATED partition with no image. -/
def Obligations.StepsReleasedBoundedAndHung : Prop :=
  (
  ∀ (s : State) (p : Nat), p < 32 →
    let x := getPart s p
    let n := nextStep x
    (mayRelease s p = true → (x.learner = true ∨ (epochRelease s p n).2 = true) → (∀ h ∈ x.hams, h < 128) →
      ∃ t, exec (.stepRelease p) s = .next t ∧ (getPart t p).step = n ∧ (getPart t p).inStep = true ∧ (getPart t p).again = false ∧
        (∀ h ∈ x.hams, (getHam t h).bound = false ∧ pair t (hamPgOf h + Off.hamStepLo) = n % 2 ^ 64 ∧
          bit (reg t (hamPgOf h + Off.intStat)) 2 = true ∧
          ∀ l < 16, (getStr t h l).phase = .body ∧ (getStr t h l).pos = 0 ∧ (getStr t h l).sync = (getStr s h l).sync ∧
            getD (getStr t h l).params 0 0 = w32 n ∧ getD (getStr t h l).params 1 0 = w32 (n >>> 32)) ∧
        (∀ h l, l < 16 → h ∉ x.hams → getStr t h l = getStr s h l)) ∧
    (mayRelease s p = false → exec (.stepRelease p) s = .next s)) ∧
  (
  ∀ (s : State) (p h : Nat),
    let x := getPart s p
    let off := s.quar = false ∧ s.dark = false ∧ x.cause = none
    (∀ g ∈ x.hams, h < 128 → (getHam s h).part = some p → x.inStep = true → off → (getHam s h).bound = false → hamIdle s h = true →
      x.learner = true → (getHam s h).testBack = [] → (∀ q < 17, tileWorks s h q = true) → g ≠ h → (getHam s g).bound = false →
      ∃ t, exec (.hamletStepBoundary h) s = .next t ∧ getHam t h = { getHam s h with bound := true } ∧
        t = { s with hams := t.hams } ∧ ∀ k, k ≠ h → getHam t k = getHam s k) ∧
    (∀ l w y, h < 128 → l < 16 → (getHam s h).part = some p → fetchCmd s h l = some (w, y) → off → x.inStep = true →
      x.placing = false → mayDispatch s h l w = false →
      ∃ t, exec (.stepHung h l) s = .next t ∧
        getPart t p = { x with cause := some ⟨8, hamPgOf h, waitKind s h l w, 0, cwLayer w, cwOper w⟩ } ∧
        t = { s with parts := t.parts } ∧ ∀ k, k ≠ p → getPart t k = getPart s k) ∧
    (p < 32 → x.placing = true → off → x.learner = true → x.hams.all (hamIdle s) = true → x.st ≠ .resetting →
      ∃ t, exec (.prologueComplete p) s = .next t ∧ getPart t p = { x with placing := false } ∧
        (∀ k ∈ x.hams, (getHam t k).bound = true) ∧ t = { s with hams := t.hams, parts := t.parts }) ∧
    (p < 32 → x.placing = true → off → x.learner = true → x.hams.all (hamIdle s) = true → x.st = .resetting →
      ∃ t, exec (.prologueComplete p) s = .next t ∧ getPart t p = { x with placing := false, st := .running, cmd := 0 } ∧
        reg t (prtPg p + Off.prtCmdStat) = 0 ∧ bit (reg t (prtPg p + Off.intStat)) 0 = true ∧ bit (reg t (prtPg p + Off.intStat)) 1 = true)) ∧
  (
  ∀ (s : State) (p fn now at_ : Nat) (w : W256) (r : Req),
    let x := getPart s p
    let slot := rcSlot w
    p < 32 → x.learner = false → x.st = .created → x.inStep = false → x.resident = none → x.switchTo = none → x.batch = [] → x.charges = [] →
    x.gen.grnSize = 0 → x.orcQ = [] → x.qpErr = [] → s.live = none → (∀ q < 32, (getPart s q).commitWait = false) → s.ck = none →
    (∀ n < 3, slotSt s n ≠ 3) → (∀ n < 256, pcState s n ≠ 1) → s.farRet = [] → (reg s (pOrc + Off.orcParkAfter)).toNat = 0xFFFFFFFF →
    s.reqs = [(slot, r)] → r.st = stQueued → r.part = p → r.mute = false → rcOp w = 4 → cmdCause s fn w = 0 → s.hub = [.cmd fn w at_] →
    ∃ t, exec (.idleBoundaryTick p now) s = .next t ∧ t.hub = [] ∧ t.time = max s.time now ∧
      getReq t slot = { r with st := stPaused, pausedAt := t.time } ∧ getD t.reqWin slot Req.free = getReq t slot ∧ t.mem = s.mem)

/-! ### The cart, the attention sequencer, the sampler (05, 06, 07) -/

/-- Clearing the VALID bit of a fault register returns every field of it, and the address registers that belong to it, to reset
(R192, R236, R256, R279, R333, R380, R467, R534, R560). -/
def Obligations.ClearingValidResetsFaultRegister : Prop :=
  ∀ (s : State) (w : Writer) (v : W32),
    let clears (i : Instr) (p off : Nat) (also : List Nat) : Prop :=
      s.managed w p = true → bit v 31 = true → bit (reg s (p + off)) 31 = true →
      ∃ t, exec i s = .next t ∧ reg t (p + off) = resetOf (p + off) ∧ (∀ o ∈ also, reg t (p + o) = resetOf (p + o)) ∧
        ledgerOnly s t 1 ((p + off) :: (p + Off.ledgerSeq) :: also.map (p + ·))
    (∀ h < 128, clears (.crtFaultClear w (crtPg h) v) (crtPg h) Off.crtFault [Off.crtFaultAddrLo, Off.crtFaultAddrHi]) ∧
    (∀ h < 128, clears (.atsFaultClear w (atsPg h) v) (atsPg h) Off.atsFault []) ∧
    (∀ h < 128, clears (.updFaultClear w (updPg h) v) (updPg h) Off.updFault []) ∧
    (∀ n < 8, clears (.ntmErrClear w (ntmPg n) v) (ntmPg n) Off.ntmErrAddrHi [Off.ntmErrAddrLo]) ∧
    (∀ n < 8, clears (.ntmErrClear w (pFtm0 + 4096 * n) v) (pFtm0 + 4096 * n) Off.ftmErrAddrHi [Off.ftmErrAddrLo]) ∧
    clears (.smpLastFaultClear w v) pSmp Off.smpLastFault [] ∧
    clears (.reqLastRejClear w v) pReq Off.reqLastRej [] ∧
    clears (.penFaultClear w v) pPen Off.penFault [Off.penFaultAddrLo, Off.penFaultAddrHi] ∧
    clears (.bootFailClear w v) pBoot Off.bootFail [] ∧
    clears (.rasLastMmClear w v) pRas Off.rasLastMm []

/-- A waiting list starts in arrival order (R163, R191); SIGNAL raises its counter and the list goes on, LINK continues at the list
that NEXT names (R187); the descriptor is counted.

A descriptor that reaches outside its partition is refused with no byte moved (R190): cause 1 and its first bad byte are kept, the
waiting lists are gone and unsignalled, the submitting stream stops and its tile is in FAULT (R192). -/
def Obligations.CartListsRunAndRefuse : Prop :=
  (
  ∀ (s : State) (h p : Nat) (r : CartRun) (d : CartDesc),
    let x := getHam s h
    let on (r' : CartRun) : Hamlet := { x with cart := some r' }
    let counts : Prop := (reg s (crtPg h + Off.crtDesc)).toNat < 2 ^ 32 - 1
    (∀ j q a, h < 128 → x.cart = none → x.cartQ = j :: q → x.part = some p → x.cartOff = false → x.spill = 0 →
      partGoes s p = true → cartList s p j.idx = some a →
      ∃ t, exec (.cartListStart h) s = .next t ∧ getHam t h = { x with cartQ := q, cart := some ⟨j, j.idx, 0, a, false⟩ } ∧
        reg t (crtPg h + Off.crtCurList) = w32 j.idx ∧ (∀ g, g ≠ h → getHam t g = getHam s g) ∧
        t = { s with regs := t.regs, hams := t.hams } ∧ cellsSame s t [crtPg h + Off.crtCurList]) ∧
    (s.cartAt h 3 p r d → cdSigEn d = false → cdLast d = false → counts →
      ∃ t, exec (.cartSignal h) s = .next t ∧ getHam t h = on { r with desc := r.desc + 1, at_ := r.at_ + 64, await := false } ∧
        reg t (crtPg h + Off.crtDesc) = reg s (crtPg h + Off.crtDesc) + 1 ∧ t = { s with regs := t.regs, hams := t.hams } ∧
        (∀ g, g ≠ h → getHam t g = getHam s g) ∧ cellsSame s t [crtPg h + Off.crtDesc]) ∧
    (∀ g, s.cartAt h 3 p r d → cdSigEn d = true → cdLast d = false → bit (cdSigTarget d) 31 = false →
      lhamTo s p (fld (cdSigTarget d) 30 24) = some g →
      let tt := fld (cdSigTarget d) 23 20
      let c := fld (cdSigTarget d) 19 14
      getD (getStr s g tt).sync c 0 < 65535 →
      ∃ t, exec (.cartSignal h) s = .next t ∧ getD (getStr t g tt).sync c 0 = getD (getStr s g tt).sync c 0 + 1 ∧
        (∀ c', c' ≠ c → getD (getStr t g tt).sync c' 0 = getD (getStr s g tt).sync c' 0) ∧
        t = { s with regs := t.regs, hams := t.hams, streams := t.streams, sigOrd := s.sigOrd + 1 }) ∧
    (∀ a, s.cartAt h 4 p r d → cdSigEn d = false → cartList s p (cdNext d) = some a →
      ∃ t, exec (.cartLink h) s = .next t ∧ getHam t h = on { r with list := cdNext d, desc := 0, at_ := a } ∧
        reg t (crtPg h + Off.crtCurList) = w32 (cdNext d) ∧ t = { s with regs := t.regs, hams := t.hams } ∧
        (∀ g, g ≠ h → getHam t g = getHam s g) ∧ cellsSame s t [crtPg h + Off.crtDesc, crtPg h + Off.crtCurList])) ∧
  (
  ∀ (s : State) (h p a : Nat) (r : CartRun) (d : CartDesc), cdSizes d = true → r.job.tile < 16 →
    bit (reg s (crtPg h + Off.crtFault)) 31 = false →
    let refused (t : State) : Prop :=
      t.mem = s.mem ∧ t.tiles = s.tiles ∧ (getHam t h).store = (getHam s h).store ∧
      reg t (crtPg h + Off.crtFault) = w32 (2 ^ 31 + 2 ^ 24 + r.desc % 2 ^ 16) ∧
      reg t (crtPg h + Off.crtFaultAddrLo) = w32 a ∧ reg t (crtPg h + Off.crtFaultAddrHi) = w32 (a >>> 32) ∧
      bit (reg t (crtPg h + Off.intStat)) 0 = true ∧ (getHam t h).cartQ = [] ∧ (getHam t h).cart = none ∧
      (getHam t h).cartOff = true ∧ (getStr t h r.job.tile).phase = .stopped ∧
      regF t (tilPg h (physOf s h r.job.tile) + Off.pageStat) 2 0 = 4 ∧ (getPart t p).cause.isSome = true ∧
      (∀ g l, l < 16 → (g, l) ≠ (h, r.job.tile) → getStr t g l = getStr s g l) ∧
      t = { s with regs := t.regs, irqs := t.irqs, hams := t.hams, streams := t.streams, parts := t.parts } ∧
      cellsSame s t [crtPg h + Off.crtFault, crtPg h + Off.crtFaultAddrLo, crtPg h + Off.crtFaultAddrHi, crtPg h + Off.intStat,
        tilPg h (physOf s h r.job.tile) + Off.pageStat, tilPg h (physOf s h r.job.tile) + Off.intStat]
    (s.cartAt h 1 p r d → cdBad s p h d true = some a → ∃ t, exec (.cartCopy h .clean) s = .next t ∧ refused t) ∧
    (s.cartAt h 2 p r d → cdBad s p h d false = some a → ∃ t, exec (.cartFill h) s = .next t ∧ refused t))

/-- COPY moves ROWS rows of ROW_BYTES bytes and FILL writes its eight-byte pattern over them (R187); every byte outside the
destination rows is as before. Stated for rows of the near tier that do not overlap; the pattern starts anew at each row (the model's
choice, log entry 16). -/
def Obligations.CartMovesRows : Prop :=
  ∀ (s : State) (h p : Nat) (r : CartRun) (d : CartDesc) (so dO : Nat → Nat),
    let n := cdRowBytes d
    let k := cdRows d
    let near (f : Nat → Nat) (a pitch : Nat) (write : Bool) : Prop := ∀ i < k, nearSpan s p h (a + i * pitch) n (f i) write
    let apart (f g : Nat → Nat) : Prop := ∀ i < k, ∀ j < k, f i + n ≤ g j ∨ g j + n ≤ f i
    let alone (f : Nat → Nat) : Prop := ∀ i < k, ∀ j < k, i ≠ j → f i + n ≤ f j ∨ f j + n ≤ f i
    let goes (t : State) : Prop :=
      getHam t h = { getHam s h with cart := some { r with desc := r.desc + 1, at_ := r.at_ + 64, await := false } } ∧
      (∀ g, g ≠ h → getHam t g = getHam s g) ∧
      t = { s with regs := t.regs, irqs := t.irqs, hams := t.hams, mem := t.mem, poison := t.poison } ∧
      cellsKept s t h [crtPg h + Off.crtDesc, crtPg h + Off.crtBytesLo, crtPg h + Off.crtBytesHi] ∧
      (∀ a, (∀ i < k, a < dO i ∨ dO i + n ≤ a) → rdB t.mem a = rdB s.mem a)
    (s.cartAt h 1 p r d → cdSizes d = true → cdSigEn d = false → cdLast d = false → cartOpen s h = false →
      near so (cdSrc d) (cdSrcPitch d) false → near dO (cdDst d) (cdDstPitch d) true → apart so dO → alone dO →
      (∀ i < k, ∀ b < n, poisoned s (so i + b) 1 = none) →
      ∃ t, exec (.cartCopy h .clean) s = .next t ∧ (∀ i < k, ∀ b < n, rdB t.mem (dO i + b) = rdB s.mem (so i + b)) ∧ goes t) ∧
    (s.cartAt h 2 p r d → cdSizes d = true → cdSigEn d = false → cdLast d = false → cartOpen s h = false →
      near dO (cdDst d) (cdDstPitch d) true → alone dO →
      ∃ t, exec (.cartFill h) s = .next t ∧
        (∀ i < k, ∀ b < n, rdB t.mem (dO i + b) = BitVec.ofNat 8 (cdFill d >>> (8 * (b % 8)))) ∧ goes t)

/-- The attention sequencer takes its next job, works through the length table in order, and stays BUSY with the job's WORKERS until
its command completes (R193, R194, R206, R216); a job whose descriptor breaks R198 or R199 faults with cause 4 and discards the
waiting jobs (R235, R236).

An empty row gives +0 in every lane, −Inf as its log-sum-exp and a set mask bit (R225), and a row with a NaN or +Inf score
gives canonical NaNs (R226). A block none of whose keys is attended leaves the row as it is (R210, R220). -/
def Obligations.AttentionJobsAndRows : Prop :=
  (
  ∀ (s : State) (h p : Nat) (jb : Job) (q : List Job) (raw : BitVec 1024),
    let x := getHam s h
    let j := atsJob raw
    let s1 := setReg (setHam s h { x with atsQ := q }) (atsPg h + Off.atsCurJob) (w32 jb.idx)
    let n := (getD (getStr s h jb.tile).params j.nseqPar 0).toNat
    let bs := spanRead s1 p h j.lt (32 * n)
    let es := (List.range n).map (fun i => ltEntry (BitVec.ofNat 256 (ofBytes ((bs.drop (32 * i)).take 32))))
    let takes : Prop := h < 128 ∧ x.ats = none ∧ x.atsQ = jb :: q ∧ x.part = some p ∧ x.atsOff = false ∧ partGoes s p = true ∧
      atsJobAt s p jb.idx = some raw
    (takes → j.bad = false →
      (bitsSet (BitVec.ofNat 16 j.workers) 16).all (fun t => bit (tmap s h t) 31 && unitFree s h t .grid && unitFree s h t .mv) = true →
      spanLocal s1 p h j.lt (32 * n) false = none → (atsWork s1 p h jb j es none).2 = none →
      ∃ t, exec (.attentionJobStart h .clean) s = .next t ∧ (getHam t h).ats = some (jb, j.workers) ∧ (getHam t h).atsQ = q ∧
        reg t (atsPg h + Off.atsCurJob) = w32 jb.idx ∧ bit (reg t (atsPg h + Off.intStat)) 1 = true ∧
        t.mem = (atsWork s1 p h jb j es none).1.mem ∧ t.tiles = (atsWork s1 p h jb j es none).1.tiles ∧ t.parts = s.parts ∧ t.ledger = s.ledger) ∧
    (takes → j.bad = true → jb.tile < 16 → bit (reg s (atsPg h + Off.atsFault)) 31 = false →
      ∃ t, exec (.attentionJobStart h .clean) s = .next t ∧ t.mem = s.mem ∧ t.tiles = s.tiles ∧ (getHam t h).atsQ = [] ∧
        (getHam t h).ats = none ∧ (getHam t h).atsOff = true ∧ reg t (atsPg h + Off.atsFault) = 0x84000000 ∧
        (getStr t h jb.tile).phase = .stopped ∧ bit (reg t (atsPg h + Off.intStat)) 0 = true)) ∧
  (
  (∀ (s : State) (p h : Nat) (j : AtsJob) (e : LtEntry) (t qh : Nat),
    (∀ k ≤ e.lc + t, attends j e (e.lc + t) k = false) →
    attRow s p h j e t qh = (List.replicate j.d 0, 0xFF800000, true)) ∧
  (∀ (j : AtsJob) (r : AtsRow), r.bad = true → finishRow j r = (List.replicate j.d 0x7FC00000, 0x7FC00000, false)) ∧
  (∀ (s : State) (j : AtsJob) (e : LtEntry) (head qpos blk : Nat) (q : RowRef) (r : AtsRow),
    (∀ k < 64, attends j e qpos (64 * blk + k) = false) → walkBlock s j e head qpos q r blk = r))

/-- A draw is kept with its entry and counted in SMP.DRAWS; a draft stage's draw, in lane 1, is written to the draft buffer and counted
in NDRAFT (R244, R245); the known-answer test starts on every tile of the enabled hamlets and
ends when the last has run it, a failed tile recorded and SUSPECT (R253, R269, R270, R562).

With GREEDY set a faultless draw is the lowest index among the largest allowed logits, and its sampling log-probability is +0
(R251, R254, R258): no allowed logit is larger, and each allowed one before it is smaller. -/
def Obligations.TokensDrawn : Prop :=
  (
  ∀ (s : State),
    (∀ (slot pos : Nat) (logits : List W32) (e : LEnt), slot < 16384 →
      let r := getReq s slot
      let x := getPart s r.part
      entryOf s r.part slot = some e → x.inStep = true → inFlightReq r = true → (drawPositions r e).contains pos = true →
      e.draws.all (fun d => decide (d.pos ≠ pos)) = true → (drawAt e r pos logits).fault = 0 →
      ∃ t, exec (.tokenDraw slot pos logits) s = .next t ∧
        getPart t r.part = { x with batch := x.batch.map (fun y => if y.slot = slot then { y with draws := y.draws ++ [drawAt e r pos logits] } else y) } ∧
        (∀ p, p ≠ r.part → getPart t p = getPart s p) ∧ pair t (pSmp + Off.smpDrawsLo) = (pair s (pSmp + Off.smpDrawsLo) + 1) % 2 ^ 64 ∧
        t = { s with parts := t.parts, regs := t.regs } ∧ cellsSame s t [pSmp + Off.smpDrawsLo, pSmp + Off.smpDrawsHi]) ∧
    (∀ (slot pos : Nat) (logits : List W32) (e : LEnt), slot < 16384 →
      let r := getReq s slot
      let x := getPart s r.part
      let at_ := gOff (r.draftAddr + 4 * e.proposed)
      entryOf s r.part slot = some e → x.inStep = true → inFlightReq r = true → (drawPositions r e).contains pos = false → pos / 2 ^ 48 = 1 →
      r.draftAddr ≠ 0 → e.proposed < 15 → (drawAt e r pos logits).fault = 0 →
      ∃ t, exec (.tokenDraw slot pos logits) s = .next t ∧ rd32 t.mem at_ = w32 (drawAt e r pos logits).tok ∧
        getReq t slot = { r with ndraft := e.proposed + 1 } ∧ (∀ j, j ≠ slot → getReq t j = getReq s j) ∧
        pair t (pSmp + Off.smpDrawsLo) = (pair s (pSmp + Off.smpDrawsLo) + 1) % 2 ^ 64 ∧
        ∀ a, (a < at_ ∨ at_ + 4 ≤ a) → rdB t.mem a = rdB s.mem a) ∧
    (∀ (w : Writer) (v : W32), s.managed w pSmp = true → bit v 0 = true → s.kcmLeft = [] →
      ∃ t, exec (.kcmTestStart w v) s = .next t ∧ t.kcmLeft = kcmTiles s ∧ reg t (pSmp + Off.smpKcmStat) = 0 ∧
        ledgerOnly s { t with kcmLeft := s.kcmLeft } 1 [pSmp + Off.smpKcmTest, pSmp + Off.smpKcmStat, pSmp + Off.ledgerSeq]) ∧
    (∀ (h q : Nat), h < 128 → q < 17 → s.kcmLeft = [tileNo h q] → (getHam s h).bound = true →
      ∃ t, exec (.kcmTestRun h q true) s = .next t ∧ t.kcmLeft = [] ∧ bit (reg t (pSmp + Off.smpKcmStat)) 31 = true ∧
        bit (reg t (pSmp + Off.smpKcmStat)) 30 = bit (reg s (pSmp + Off.smpKcmStat)) 30 ∧
        t = { s with kcmLeft := t.kcmLeft, regs := t.regs, irqs := t.irqs } ∧
        cellsSame s t [pSmp + Off.smpKcmStat, pSmp + Off.intStat]) ∧
    (∀ (h q : Nat), h < 128 → q < 17 → s.kcmLeft.contains (tileNo h q) = true → (getHam s h).bound = true →
      bit (reg s (pSmp + Off.smpKcmStat)) 30 = false → tileSt s h q = 0 →
      ∃ t, exec (.kcmTestRun h q false) s = .next t ∧ t.kcmLeft = s.kcmLeft.filter (· ≠ tileNo h q) ∧
        bit (reg t (pSmp + Off.smpKcmStat)) 30 = true ∧ regF t (pSmp + Off.smpKcmStat) 11 0 = tileNo h q ∧
        tileSt t h q = 1 ∧ bit (reg t (pSmp + Off.intStat)) 1 = true ∧
        t = { s with kcmLeft := t.kcmLeft, regs := t.regs, irqs := t.irqs, hams := t.hams, mram := t.mram, mem := t.mem })) ∧
  (
  ∀ (e : LEnt) (r : Req) (pos : Nat) (logits : List W32),
    let d := drawAt e r pos logits
    let p := Profile.ofBytes (e.prof.getD [])
    let ok (i : Nat) : Prop := p.allow = true → allowBit e.allow i = true
    p.greedy = true → d.fault = 0 →
    d.tok < logits.length ∧ ok d.tok ∧ d.samp = 0 ∧
    (∀ i < logits.length, ok i → flt (logits.getD d.tok 0) (logits.getD i 0) = false) ∧
    (∀ i < d.tok, ok i → flt (logits.getD i 0) (logits.getD d.tok 0) = true))

/-! ### Requests (08) -/

/-- Between the steps of its partition a request command that passes every check of R279 has the effect of R278 on its slot, no other
slot changes, and every change of state goes by R276; PARK where the far pool cannot hold the frames changes nothing (R299). Stated
for requests without GRANARY; with it the records of R297 are written too. -/
def Obligations.RequestCommandsTakeEffect : Prop :=
  ∀ (s : State) (o : Origin) (w : W256) (p f : Nat),
    let slot := rcSlot w
    let r := getReq s slot
    let q := cmdReq s w
    let can (op : Nat) : Prop := o.fn ≤ 512 ∧ rcOp w = op ∧ mayIssue s o.fn = true ∧ cmdCause s o.fn w = 0 ∧ cmdFn s o.fn w = some f ∧
      itemPart s (.cmd o.fn w s.time) = some p ∧ (getPart s p).inStep = false ∧ s.hub = [] ∧ q.granary = false
    let does (i : Origin → W256 → Instr) (eff : State → Prop) : Prop :=
      ∃ t, exec (i o w) s = .next t ∧ eff t ∧ (∀ k, k ≠ slot → getReq t k = getReq s k) ∧ t.hub = [] ∧ t.parts = s.parts ∧
        t.streams = s.streams ∧ t.hams = s.hams ∧ t.ledger = s.ledger
    let resumed : Req := { (if r.st = stExpired then { r with lc := 0, lt := 0 } else r) with st := stQueued, fresh := true }
    let kept (t : State) : Prop := t.mem = s.mem ∧ t.kvUsed = s.kvUsed
    let near := poolIx 0 r.part
    let far := poolIx 1 r.part
    let priv := (granulesOf r).filter (fun g => let d := reqDesc s r g; bit d 63 && !bit d 61 && decide (gOff (descAddr d) < nearEnd))
    (can 1 → does .submit (fun t => getReq t slot = { reqOfImage (submitImage s w) with func := f, admitNo := s.admitSeq, st := stQueued } ∧
      t.admitSeq = s.admitSeq + 1 ∧ kept t)) ∧
    (can 2 → does .append (fun t => getReq t slot = { resumed with lk := r.lk + rcN w } ∧
      (∀ i < rcN w, rd32 t.mem (gOff (r.tokAddr + 4 * r.lk) + 4 * i) = rd32 s.mem (gOff (rcAddr w + 4 * i))) ∧
      (∀ a, a < gOff (r.tokAddr + 4 * r.lk) ∨ gOff (r.tokAddr + 4 * r.lk) + 4 * rcN w ≤ a → rdB t.mem a = rdB s.mem a))) ∧
    (can 3 → does .resume (fun t => getReq t slot = resumed ∧ kept t)) ∧
    (can 4 → does .pause (fun t => getReq t slot = { r with st := stPaused, pausedAt := s.time } ∧ kept t)) ∧
    (can 5 → (priv = [] ∨ kvBytes s near ≤ kvBytes s far) → (kvAlloc s far priv.length).isSome = true → does .park (fun t =>
      getReq t slot = { r with st := stParked, expiry := if r.ttl = 0xFFFFFFFF then 2 ^ 64 - 1 else (s.time + r.ttl * 1000000) % 2 ^ 64 })) ∧
    (can 5 → ((priv ≠ [] ∧ kvBytes s far < kvBytes s near) ∨ (kvAlloc s far priv.length).isSome = false) →
      exec (.park o w) s = .next s) ∧
    (can 6 → does .cancel (fun t => getReq t slot = { r with st := stDone, cause := 0x22 } ∧ kept t)) ∧
    (can 7 → does .release (fun t => getReq t slot = Req.free)) ∧
    (can 8 → does .draft (fun t => getReq t slot = { r with ndraft := rcN w } ∧
      (∀ i < 4 * rcN w, rdB t.mem (gOff r.draftAddr + i) = rdB s.mem (gOff (rcAddr w) + i)) ∧
      (∀ a, a < gOff r.draftAddr ∨ gOff r.draftAddr + 4 * rcN w ≤ a → rdB t.mem a = rdB s.mem a))) ∧
    (can 9 → does .setprio (fun t => getReq t slot = { r with prio := rcN w % 8, deadline := rcArg w } ∧ kept t)) ∧
    (can 10 → does .reward (fun t => getReq t slot = r ∧ kept t))

/-- A REWARD of a request with GRANARY set writes one record of KIND 2 with its channel, LK and value at HEAD, which counts one (R292,
R297), where the ring has room.

A command that fails a check changes no request: REQ.CMD_REJ counts it, REQ.LAST_REJ keeps the first with its cause and slot, and
INT_STAT.SRC bit 0 is set (R279); a command that comes while a step of its partition runs waits at the hub (R277). -/
def Obligations.RewardsRejectionsAndWaiting : Prop :=
  (
  ∀ (s : State) (o : Origin) (w : W256) (p f : Nat),
    let slot := rcSlot w
    let r := getReq s slot
    let g := (getPart s p).gen
    o.fn ≤ 512 → rcOp w = 10 → mayIssue s o.fn = true → cmdCause s o.fn w = 0 → cmdFn s o.fn w = some f →
    itemPart s (.cmd o.fn w s.time) = some p → (getPart s p).inStep = false → s.hub = [] → wantsGranary s r = true →
    (getPart s p).grnWait = [] → grnHead s p < g.tail + grnSize g → noRoom s r 1 = false →
    let at_ := gOff (g.grnBase + 32 * (grnHead s p % grnSize g))
    ∃ t, exec (.reward o w) s = .next t ∧ grnHead t p = (grnHead s p + 1) % 2 ^ 64 ∧ getReq t slot = r ∧
      rdBytes t.mem at_ 32 = rewardRec slot r (rcArg w / 2 ^ 32) (rcArg w % 2 ^ 32) ∧
      (∀ a, a < at_ ∨ at_ + 32 ≤ a → rdB t.mem a = rdB s.mem a) ∧ t.reqs = s.reqs ∧ t.streams = s.streams) ∧
  (
  ∀ (s : State) (o : Origin) (w : W256), ∀ row ∈ [(1, Instr.submit), (2, Instr.append), (3, Instr.resume), (4, Instr.pause),
      (5, Instr.park), (6, Instr.cancel), (7, Instr.release), (8, Instr.draft), (9, Instr.setprio), (10, Instr.reward)],
    o.fn ≤ 512 → rcOp w = row.1 → mayIssue s o.fn = true →
    (itemPart s (.cmd o.fn w s.time) = none ∨ (s.hub = [] ∧ ∀ p, itemPart s (.cmd o.fn w s.time) = some p → (getPart s p).inStep = false) →
      cmdCause s o.fn w ≠ 0 →
      ∃ t, exec (row.2 o w) s = .next t ∧ t.reqs = s.reqs ∧ t.mem = s.mem ∧ t.admitSeq = s.admitSeq ∧ t.hub = s.hub ∧ t.parts = s.parts ∧
        reg t (pReq + Off.reqCmdRej) = w32 (satAdd 32 (reg s (pReq + Off.reqCmdRej)).toNat 1) ∧
        bit (reg t (pReq + Off.intStat)) 0 = true ∧
        reg t (pReq + Off.reqLastRej) = (if bit (reg s (pReq + Off.reqLastRej)) 31 then reg s (pReq + Off.reqLastRej)
          else w32 (2 ^ 31 + cmdCause s o.fn w * 2 ^ 16 + rcSlot w % 16384))) ∧
    (∀ p, itemPart s (.cmd o.fn w s.time) = some p → (getPart s p).inStep = true →
      ∃ t, exec (row.2 o w) s = .next t ∧ t = { s with hub := s.hub ++ [.cmd o.fn w s.time] }))

/-- An environment message takes effect whole or is discarded and counted (R296); a queue pair in error waits for the boundary of each
partition that holds a request of it.

What module time does to requests: budgets refill up to BURST at whole seconds (R286), a PARKED request whose EXPIRY has come and
for which no resume waits loses its frames (R300), a PAUSED one whose PARK_AFTER has passed parks (R299). -/
def Obligations.MessagesAndTimeMoveRequests : Prop :=
  (
  ∀ (s : State) (qp : Nat) (h : W256) (ts : List W32), qp < 16384 →
    let slot := emSlot h
    let r := getReq s slot
    let now : Prop := s.hub = [] ∧ (getPart s r.part).inStep = false ∧ r.granary = false ∧
      itemPart s (.msg qp h ts s.time) = some r.part
    let other (t : State) : Prop := ∀ k, k ≠ slot → getReq t k = getReq s k
    (now → envOk s qp h ts = true → emFlags h = 1 →
      ∃ t, exec (.environmentMessage qp h ts) s = .next t ∧ other t ∧ (getReq t slot).lk = r.lk + emN h ∧
        (getReq t slot).st = stQueued ∧ (r.st = stExpired → (getReq t slot).lc = 0) ∧
        ∀ i < emN h, rd32 t.mem (gOff (r.tokAddr + 4 * r.lk) + 4 * i) = ts.getD i 0) ∧
    (now → envOk s qp h ts = true → emFlags h = 4 →
      ∃ t, exec (.environmentMessage qp h ts) s = .next t ∧ other t ∧ getReq t slot = { r with st := stDone, cause := 0x23 } ∧ t.mem = s.mem) ∧
    (now → envOk s qp h ts = false →
      ∃ t, exec (.environmentMessage qp h ts) s = .next t ∧ t = { s with regs := t.regs, irqs := t.irqs } ∧
        reg t (pOrc + Off.orcEnvDisc) = w32 (satAdd 32 (reg s (pOrc + Off.orcEnvDisc)).toNat 1) ∧
        bit (reg t (pOrc + Off.intStat)) 1 = true ∧ cellsSame s t [pOrc + Off.orcEnvDisc, pOrc + Off.intStat]) ∧
    (∃ t, exec (.qpError qp) s = .next t ∧ t = { s with parts := t.parts } ∧
      ∀ p < 32, (getPart t p).qpErr.contains qp =
        ((getPart s p).qpErr.contains qp || (slotsOf s p).any (fun i => decide ((getReq s i).envQp = 32768 + qp))))) ∧
  (
  ∀ (s : State) (now : Nat),
    (let k := now / 1000000000 - s.time / 1000000000
     k ≠ 0 → ∃ t, exec (.budgetRefill now) s = .next t ∧ t.time = max s.time now ∧ t.reqs = s.reqs ∧
      (∀ n < 512, ∀ c < 4, fnOn s n = true →
        budBal t (4 * n + c) = min (budBurst s (4 * n + c)) (budBal s (4 * n + c) + k * budRate s (4 * n + c))) ∧
      (∀ n < 512, ∀ c < 4, fnOn s n = false → budBal t (4 * n + c) = budBal s (4 * n + c)) ∧
      (∀ a, a < budAt s 0 ∨ budAt s 2048 ≤ a → rdB t.mem a = rdB s.mem a)) ∧
    (∀ slot < 16384,
      let r := getReq s slot
      r.st = stParked → r.expiry ≠ 2 ^ 64 - 1 → r.expiry ≤ now → resumeWaits s slot r.expiry = false →
      ∃ t, exec (.parkedExpiry slot now) s = .next t ∧ getReq t slot = { r with st := stExpired } ∧ t.time = max s.time now ∧
        bit (reg t (pReq + Off.intStat)) 2 = true ∧ ∀ k, k ≠ slot → getReq t k = getReq s k) ∧
    (∀ slot < 16384,
      let r := getReq s slot
      let k := (reg s (pOrc + Off.orcParkAfter)).toNat
      r.st = stPaused → k ≠ 0xFFFFFFFF → r.pausedAt + k * 1000000 ≤ now →
      (∀ g ∈ granulesOf r, bit (reqDesc s r g) 63 = false) →
      ∃ t, exec (.parkAfterExpiry slot now) s = .next t ∧ t.time = max s.time now ∧
        getReq t slot = { r with st := stParked, expiry := if r.ttl = 0xFFFFFFFF then 2 ^ 64 - 1 else (max s.time now + r.ttl * 1000000) % 2 ^ 64 } ∧
        (∀ k, k ≠ slot → getReq t k = getReq s k) ∧ t.mem = s.mem))

/-- Shipping (R303 to R305): the target takes a slot and frames or refuses; the copy's end queues the request there with SHIP invalid and
frees it here; a refused offer is made again after 1 ms; past DEADLINE the request is FAULTED with CAUSE 0x10. -/
def Obligations.ShippingMovesRequests : Prop :=
  ∀ (s : State) (now : Nat),
    (∀ (e : W1024) (src k p slot : Nat), src < 65536 → k < 16384 → p < 32 →
      let fn := recF e 2 2
      let lc := recF e 8 4
      fn < 512 → fnOn s fn = true → assigned s fn p = true → poolOf s p = some 2 → freeSlot s fn = some slot →
      (kvAlloc s (poolIx 0 p) (ceilDiv lc 16)).isSome = true →
      ∃ t x, exec (.shipAccept (.target e src k p)) s = .next t ∧ getS t.shipIn slot = some x ∧ x.src = src ∧ x.srcSlot = k ∧
        x.req.tokAddr = recF e 0x70 8 ∧ x.req.ship / 2 ^ 31 % 2 = 0 ∧ x.req.lc = lc ∧ t.reqs = s.reqs ∧
        t.out = s.out ++ [.shipReply src k (some slot)]) ∧
    (∀ (e : W1024) (src k p : Nat), src < 65536 → k < 16384 → p < 32 → poolOf s p ≠ some 2 →
      exec (.shipAccept (.target e src k p)) s = .next { s with out := s.out ++ [.shipReply src k none] }) ∧
    (∀ k tgt fs, k < 16384 → tgt < 16384 → (getReq s k).st = stShipped → (getReq s k).accepted = none → shipMod (getReq s k) ≠ modId s →
      ∃ t, exec (.shipAccept (.source k tgt fs)) s = .next t ∧
        getReq t k = { getReq s k with accepted := some tgt, retryAt := none } ∧ t.mem = s.mem ∧ ∀ j, j ≠ k → getReq t j = getReq s j) ∧
    (∀ k tgt, k < 16384 → tgt < 16384 → (getReq s k).st = stShipped → (getReq s k).accepted = some tgt → getS s.shipIn tgt = none →
      (s.fab.unacked.any (fun u => decide (u.owner = .ship k))) = false →
      ∃ t, exec (.shipCopyComplete k tgt) s = .next t ∧ getReq t k = Req.free ∧ ∀ j, j ≠ k → getReq t j = getReq s j) ∧
    (∀ k tgt x, k < 16384 → tgt < 16384 → k ≠ tgt → getS s.shipIn tgt = some x → x.srcSlot = k → (getReq s k).st ≠ stShipped →
      x.req.granary = false →
      ∃ t, exec (.shipCopyComplete k tgt) s = .next t ∧ getReq t tgt = { x.req with st := stQueued } ∧ getS t.shipIn tgt = none ∧
        ∀ j, j ≠ tgt → getReq t j = getReq s j) ∧
    (∀ k < 16384,
      let r := getReq s k
      r.st = stShipped →
      (r.accepted = none → ∃ t, exec (.shipRefused k now) s = .next t ∧ getReq t k = { r with retryAt := some (max s.time now + 1000000) } ∧
        t = { s with reqs := t.reqs, time := max s.time now } ∧ ∀ j, j ≠ k → getReq t j = getReq s j) ∧
      (∀ at_, r.retryAt = some at_ → at_ ≤ now → ∃ t, exec (.shipRetry k now) s = .next t ∧ getReq t k = { r with retryAt := none } ∧
        t.out = s.out ++ [.shipOffer (shipMod r) (shipPart r) k] ∧ t = { s with reqs := t.reqs, time := max s.time now, out := t.out } ∧
        ∀ j, j ≠ k → getReq t j = getReq s j) ∧
      (r.accepted = none → r.deadline ≤ now → r.granary = false → ∃ t, exec (.shipDeadline k now) s = .next t ∧
        getReq t k = { r with st := stFaulted, cause := 0x10, retryAt := none } ∧ bit (reg t (pReq + Off.intStat)) 3 = true ∧ t.mem = s.mem ∧
        ∀ j, j ≠ k → getReq t j = getReq s j))

/-- The step formed at a boundary keeps TOKMAX and SEQMAX, every entry carries a token, and no request is taken twice (R282).

The tokens that an entry commits are its draws from the first on (R261, R287): never more than the room that LMAX leaves, all but
the last accepted drafts, and none after an EOS or EOT token. -/
def Obligations.BatchFormedAndCommitted : Prop :=
  (
  ∀ (s : State) (p : Nat), (s.reqs.map (·.1)).Nodup →
    let g := (getPart s p).gen
    let b := (getPart (formBatch s p) p).batch
    b.length ≤ g.seqmax ∧ (b.map (·.nq)).sum ≤ g.tokmax ∧ ((b.filter (·.chunk)).map (·.nq)).sum ≤ g.chunk ∧
    (∀ e ∈ b, 1 ≤ e.nq ∧ (e.chunk = true → e.nq ≤ 16384)) ∧ (b.map (·.slot)).Nodup) ∧
  (
  ∀ (r : Req) (room : Nat) (l : List (Draw × Option Nat)),
    let ts := (newToks r room l).1
    ts.length ≤ room ∧ ts.map (·.draw) = (l.map (·.1)).take ts.length ∧
    (∀ i < ts.length, ∀ x, l[i]? = some x → x.1.fault = 0) ∧
    (∀ i, i + 1 < ts.length → ∀ x, l[i]? = some x → x.2 = some x.1.tok ∧ x.1.tok ≠ r.eos ∧ x.1.tok ≠ r.eot))

/-! ### The update streamer and the learner's boundary (09) -/

/-- The next waiting program starts when its indices, its tensor set and its reads hold: it leaves the queue, borrows its workers'
vector units, takes its hyper-parameter block, and an NF gradient status sets update-NF (R163, R326, R330 to R332).

END goes on with the next chunk, or after the last one writes the norms entry and gives the vector units back (R327, R329, R334);
VOTE writes the local vote word, bit 0 the OR of bits 3 to 1 (R337). Stated for tables in the near tier. -/
def Obligations.ProgramsStartEndAndVote : Prop :=
  (
  ∀ (s : State) (h p pa sa : Nat) (j : Job) (q : List Job),
    let x := getHam s h
    let hp := x.updHp + 256 * updHpIx j.word
    let gs := gradStatus s sa
    let g : Bool := bit ((spanRead s p h gs 4).headD 0) 0
    h < 128 → x.upd = none → x.updQ = j :: q → x.part = some p → x.updOff = false → partGoes s p = true → updProg j.word ≠ 0xFFFF →
    progAt s p (updProg j.word) = some pa → setAt s p (updSet j.word) = some sa → vuBusy s h (tsWorkers s sa) = false →
    1 ≤ rdNat s.mem pa 8 → rdNat s.mem pa 8 ≤ 256 → setBad s h sa = false → updReadBad s p h hp 256 false = none →
    updReadBad s p h gs 4 false = none →
    ∃ t r, exec (.updateProgramStart h false) s = .next t ∧
      getHam t h = { x with updQ := q, upd := some r, gradNf := x.gradNf || g, updNf := x.updNf || g,
                            borrow := workerTiles s h (tsWorkers s sa) } ∧
      r = { r with job := j, uopsAt := pa + 8, count := rdNat s.mem pa 8, setAt := sa, chunk := 0, uop := 0, slots := [], acc := [],
                   gradNf := g } ∧
      r.hp = f32s s p h hp 64 ∧ regF t (updPg h + Off.updStat) 15 0 = updProg j.word ∧
      t = { s with hams := t.hams, regs := t.regs, irqs := t.irqs, freeCtr := t.freeCtr } ∧
      ∀ k, k ≠ h → getHam t k = getHam s k) ∧
  (
  ∀ (s : State) (h p : Nat),
    let x := getHam s h
    (∀ r u, s.uopAt h 0x3F p r u → 128 * (r.chunk + 1) < tsNelem s r.setAt →
      ∃ t r', exec (.uopEnd h) s = .next t ∧ getHam t h = { x with upd := some r' } ∧
        r' = { r with chunk := r.chunk + 1, uop := 0, slots := [], free := r'.free } ∧ t = { s with hams := t.hams, freeCtr := t.freeCtr }) ∧
    (∀ r u off,
      let a := x.updNorm + 32 * (tsNorm s r.setAt + x.updCnt * ((getPart s p).step % 2))
      s.uopAt h 0x3F p r u → tsNelem s r.setAt ≤ 128 * (r.chunk + 1) → nearSpan s p h a 32 off true →
      ∃ t, exec (.uopEnd h) s = .next t ∧ rdBytes t.mem off 32 = normsEntry s r (getPart s p).step ∧
        (∀ b, b < off ∨ off + 32 ≤ b → rdB t.mem b = rdB s.mem b) ∧
        getHam t h = { x with upd := none, borrow := [], norms := x.norms ++ [a] } ∧
        t = { s with hams := t.hams, streams := t.streams, tiles := t.tiles, mem := t.mem, regs := t.regs, poison := t.poison,
                     freeCtr := t.freeCtr }) ∧
    (∀ j q off, h < 128 → x.upd = none → x.updQ = j :: q → x.part = some p → x.updOff = false → partGoes s p = true →
      updProg j.word = 0xFFFF → mirPending s p = false → nearSpan s p h x.updVote 4 off true →
      ∃ t, exec (.vote h) s = .next t ∧ rd32 t.mem off = w32 (localVote s h) ∧ (getHam t h).vote = localVote s h ∧
        (getHam t h).updQ = q ∧ (∀ b, b < off ∨ off + 4 ≤ b → rdB t.mem b = rdB s.mem b) ∧
        (localVote s h % 2 = 1 ↔ (anyNf s h || x.gradNf || x.updNf) = true)))

/-- The lane operations of update programs: D takes the operation of A, B and C in every lane by R99 and R101, LDH the hyper-parameter
word, LDT the chunk of its tensor with +0 beyond NELEM; the other slots and the accumulators stay (R326, R327). -/
def Obligations.MicroOpsWriteSlots : Prop :=
  ∀ (s : State) (h p : Nat) (r : UpdRun) (u : W64),
    let a := lane r (uoA u)
    let b := lane r (uoB u)
    let c := lane r (uoC u)
    let gives (t : State) (f : Nat → W32) : Prop :=
      ∃ r', getHam t h = { getHam s h with upd := some r' } ∧ r' = { r with uop := r.uop + 1, slots := r'.slots } ∧
        (∀ i < 128, lane r' (uoD u) i = f i) ∧ (∀ k < 16, k ≠ uoD u → ∀ i < 128, lane r' k i = lane r k i) ∧
        (∀ k, k ≠ h → getHam t k = getHam s k)
    let does (i : Nat → Instr) (op : Nat) (f : Nat → W32) : Prop :=
      s.uopAt h op p r u → ∃ t, exec (i h) s = .next t ∧ gives t f ∧ t = { s with hams := t.hams }
    does .uopLdh 0x03 (fun _ => r.hp.getD (uoIdx u) 0) ∧
    does .uopAdd 0x10 (fun i => fadd (a i) (b i)) ∧ does .uopSub 0x11 (fun i => fsub (a i) (b i)) ∧
    does .uopMul 0x12 (fun i => fmul (a i) (b i)) ∧ does .uopFma 0x13 (fun i => ffma (a i) (b i) (c i)) ∧
    does .uopMin 0x14 (fun i => fmin (a i) (b i)) ∧ does .uopMax 0x15 (fun i => fmax (a i) (b i)) ∧
    does .uopRsqrt 0x20 (fun i => frsqrt (a i)) ∧ does .uopRcp 0x21 (fun i => frcp (a i)) ∧
    (let at_ := (if uoIdx u = 4 then tsGrad s r.setAt else tsC s r.setAt (uoIdx u)) + 512 * r.chunk
     let n := chunkLen s r
     s.uopAt h 0x01 p r u → updReadBad s p h at_ (4 * n) false = none →
      ∃ t, exec (.uopLdt h false) s = .next t ∧ t = { s with hams := t.hams, regs := t.regs, mem := t.mem } ∧
        gives t (fun i => if i < n then (f32s s p h at_ n).getD i 0 else 0))

/-- What update programs write and count: STT the chunk to the P view, CVTW the working copy in its format with the stochastic words of
R328, NORM and AMAX their accumulators over the chunk's elements; a NaN or Inf among the values sets update-NF (R324, R327 to R329,
R332). Stated for destinations in the near tier. -/
def Obligations.MicroOpsWritePendingViews : Prop :=
  ∀ (s : State) (h p : Nat) (r : UpdRun) (u : W64),
    let x := getHam s h
    let n := chunkLen s r
    let vs := (slotGet r (uoA u)).take n
    let on (t : State) (bad : Bool) : Prop :=
      getHam t h = { x with upd := some { r with uop := r.uop + 1, nf := r.nf || bad }, updNf := x.updNf || bad }
    let acc (t : State) (k : Nat) (f : W32 → W32 → W32) : Prop :=
      ∃ r', getHam t h = { x with upd := some r' } ∧ r' = { r with uop := r.uop + 1, acc := r'.acc } ∧
        (∀ i < n, getD r'.acc (k * 128 + i) 0 = f (getD r.acc (k * 128 + i) 0) (lane r (uoA u) i)) ∧
        (∀ m, m < k * 128 ∨ k * 128 + n ≤ m → getD r'.acc m 0 = getD r.acc m 0) ∧ t = { s with hams := t.hams }
    (∀ off, s.uopAt h 0x02 p r u → nearSpan s p h (tsP s r.setAt (uoIdx u) + 512 * r.chunk) (4 * n) off true →
      ∃ t, exec (.uopStt h) s = .next t ∧ on t (vs.any nonFinite) ∧ (∀ i < n, rd32 t.mem (off + 4 * i) = lane r (uoA u) i) ∧
        (∀ a, a < off ∨ off + 4 * n ≤ a → rdB t.mem a = rdB s.mem a) ∧
        t = { s with hams := t.hams, mem := t.mem, regs := t.regs, irqs := t.irqs, poison := t.poison }) ∧
    (∀ oe os,
      let k := uoIdx u - 5
      let wf := tsWfmt s r.setAt k
      let y := getStr s h r.job.tile
      let e := cvtwBytes (wf % 16) vs (cvtwWords y.key0 y.key1 (getPart s p).step (tsLayer s r.setAt) wf (128 * r.chunk) vs.length)
      let le := e.1.length
      let ls := e.2.length
      s.uopAt h 0x30 p r u → nearSpan s p h (tsWork s r.setAt k + 16 * fmtBits (wf % 16) * r.chunk) le oe true →
      nearSpan s p h (tsWork s r.setAt k + roundUp (ceilDiv (tsNelem s r.setAt * fmtBits (wf % 16)) 8) 128 + 4 * r.chunk) ls os true →
      (oe + le ≤ os ∨ os + ls ≤ oe) →
      ∃ t, exec (.uopCvtw h) s = .next t ∧ on t (vs.any nonFinite) ∧ rdBytes t.mem oe le = e.1 ∧ rdBytes t.mem os ls = e.2 ∧
        (∀ a, (a < oe ∨ oe + le ≤ a) → (a < os ∨ os + ls ≤ a) → rdB t.mem a = rdB s.mem a) ∧
        t = { s with hams := t.hams, mem := t.mem, regs := t.regs, irqs := t.irqs, poison := t.poison }) ∧
    (s.uopAt h 0x38 p r u → ∃ t, exec (.uopNorm h) s = .next t ∧ acc t (uoIdx u) (fun c v => ffma v v c)) ∧
    (s.uopAt h 0x39 p r u → ∃ t, exec (.uopAmax h) s = .next t ∧ acc t 3 (fun c v => fmax c (fabs v)))

/-- A group word with bit 0 set skips the learner step: no view changes, UPD.SKIPS counts it and OUTCOME says so; the exchange of a commit
swaps the backings of two pages and nothing else of their entries, so that a second exchange undoes it (R339, R340). -/
def Obligations.SkipsAndExchanges : Prop :=
  (∀ (s : State) (h p e g : Nat),
    let x := getPart s p
    h < 128 → (getHam s h).part = some p → x.hams = [h] → x.learner = true → x.inStep = true → x.cause = none → s.quar = false →
    s.dark = false → (getHam s h).bound = false → hamIdle s h = true → (getHam s h).testBack = [] → (∀ q < 17, tileWorks s h q = true) →
    x.subs = [e] → s.live = none → groupWord s p h = some g → g % 2 = 1 → (getHam s h).norms = [] → (getHam s h).vote < 16 →
    ∃ t, exec (.hamletStepBoundary h) s = .next t ∧ t.mem = s.mem ∧ (getPart t p).inStep = false ∧ (getPart t p).commits = x.commits ∧
      reg t (updPg h + Off.updSkips) = w32 (satAdd 32 (reg s (updPg h + Off.updSkips)).toNat 1) ∧
      regF t (updPg h + Off.updOutcome) 31 28 = 9 ∧ regF t (updPg h + Off.updOutcome) 19 16 = g ∧
      pair t (updPg h + Off.updOutStepLo) = x.step % 2 ^ 64 ∧ bit (reg t (updPg h + Off.intStat)) 1 = true) ∧
  (∀ a b : W64,
    let y := swapEntries a b
    swapEntries y.1 y.2 = (a, b) ∧ fld y.1 62 62 = fld b 62 62 ∧ fld y.1 19 0 = fld b 19 0 ∧ bit y.1 58 = bit b 58 ∧
    bit y.1 63 = bit a 63 ∧ fld y.1 57 53 = fld a 57 53 ∧ fld y.1 61 59 = fld a 61 59 ∧ fld y.1 52 20 = fld a 52 20)
/-! ### Weight epochs (10) -/

/-- A shard of an epoch (R353 to R356): a first one takes an EMPTY slot and its bytes go to OFFSET; the slot is READY when it is the only
shard, else LOADING; a duplicate is counted and acknowledged, a stale or foreign one refused with no slot taken. -/
def Obligations.EpochShardsArrive : Prop :=
  ∀ (s : State) (h : W1024) (data : List Byte) (src n : Nat), src < 65536 →
    let e := shEpoch h
    let fresh : Prop := ∀ m < 3, epochOf s m = e → slotSt s m = 0 ∨ slotSt s m = 4
    let good : Prop := shBad h data.length = false ∧ shMep h = s.mepoch ∧ epochStale s e (shSw h) = false
    (∀ ps, fresh → good → emptySlot s = some n → slotPending s none = false → shOff h + shLen h ≤ slotSize s n * frameBytes →
      slotPages s n (shOff h) data.length = some ps → bit (reg s (pEpo + Off.epoCfg)) 16 = false →
      ∃ t, exec (.epochShardArrive h data src) s = .next t ∧ epochOf t n = e ∧ slotSt t n = (if shN h = 1 then 2 else 1) ∧
        regF t (slotStat n) 12 0 = 1 ∧ t.lastEpoch = some e ∧ t.lastSw = some (shSw h) ∧
        (shN h = 1 → bit (reg t (pEpo + Off.intStat)) 0 = true) ∧ (∀ m < 3, m ≠ n → slotSt t m = slotSt s m ∧ epochOf t m = epochOf s m) ∧
        t.mem = (ps.foldl (fun s x => memWrite s x.2.1 ((data.drop x.1).take x.2.2)) s).mem) ∧
    (n < 3 → epochOf s n = e → e ≠ noEpoch → (slotSt s n = 2 ∨ slotSt s n = 3) → (∀ m < 3, epochOf s m = e → slotSt s m ≠ 1) →
      ∃ t, exec (.epochShardArrive h data src) s = .next t ∧ t.mem = s.mem ∧ t.slots = s.slots ∧
        reg t (pEpo + Off.epoDup) = w32 (satAdd 32 (reg s (pEpo + Off.epoDup)).toNat 1) ∧ ∀ m < 3, reg t (slotStat m) = reg s (slotStat m)) ∧
    (fresh → ¬ good →
      ∃ t, exec (.epochShardArrive h data src) s = .next t ∧ t.mem = s.mem ∧ t.slots = s.slots ∧ t.lastEpoch = s.lastEpoch ∧
        reg t (pEpo + Off.epoRefused) = w32 (satAdd 32 (reg s (pEpo + Off.epoRefused)).toNat 1) ∧
        bit (reg t (pEpo + Off.intStat)) 4 = true ∧ ∀ m < 3, reg t (slotStat m) = reg s (slotStat m))

/-- A recheck pass leaves a clean module as it is but for the step it is clean to, and makes a slot with a failed shard BAD (R358); an
acknowledgement ends a subscriber's hold of the commits (R352).

In deterministic mode a step that is due under a newer epoch which has not become READY is held and counted once (R359, R370); a READY
epoch whose SWITCH_STEP has come is taken up at the release, so that it is current and its slot ACTIVE (R361). -/
def Obligations.EpochRechecksHoldsAndTakeUps : Prop :=
  (
  ∀ (s : State) (now : Nat),
    let k := regF s (pEpo + Off.epoCfg) 15 0
    let live (n : Nat) : Prop := slotSt s n = 2 ∨ slotSt s n = 3
    (k ≠ 0 → s.recheckAt ≤ now → (∀ n < 3, live n → slotClean s n = true) →
      ∃ t, exec (.epochRecheck now) s = .next t ∧ t = { s with parts := t.parts, time := max s.time now, recheckAt := now + k * 1000000000 }) ∧
    (∀ n < 3, k ≠ 0 → s.recheckAt ≤ now → live n → slotClean s n = false → (∀ m < 3, m ≠ n → ¬ live m) →
      ∃ t, exec (.epochRecheck now) s = .next t ∧ slotSt t n = 4 ∧ bit (reg t (pEpo + Off.intStat)) 3 = true ∧
        bit (reg t (pEpo + Off.intStat)) 1 = true ∧ epochOf t n = epochOf s n ∧ t.parts = s.parts ∧ t.recheckAt = now + k * 1000000000) ∧
    (∀ (sub epoch p c : Nat) (pos : Bool), s.pubs = [(p, c, epoch, [sub])] → (∀ q < 32, (getPart s q).commitWait = false) →
      ∃ t, exec (.epochAck sub epoch pos) s = .next t ∧ t = { s with pubs := [] })) ∧
  (
  ∀ (s : State) (p n : Nat), p < 32 → mayRelease s p = true → (getPart s p).learner = false →
    let x := getPart s p
    let k := nextStep x
    let cur := curEpoch s p
    let cfg := regAt s (pEpo + Off.epoPCfg) p
    cur ≠ noEpoch → (∀ m < 3, slotSt s m = 4 → epochOf s m ≠ cur) → n < 3 → cur < epochOf s n → epochOf s n ≠ noEpoch →
    (getSlot s n).swstep ≤ k → bit cfg 31 = false → (∀ m < 3, m ≠ n → epochOf s m = noEpoch ∨ epochOf s m ≤ cur) →
    (slotSt s n = 1 → x.epHeld = false →
      ∃ t, exec (.stepRelease p) s = .next t ∧ (getPart t p).inStep = false ∧ (getPart t p).step = x.step ∧ (getPart t p).epHeld = true ∧
        curEpoch t p = cur ∧ regAt t (pEpo + Off.epoPHolds) p = w32 (satAdd 32 (regAt s (pEpo + Off.epoPHolds) p).toNat 1) ∧
        t = { s with parts := t.parts, regs := t.regs, irqs := t.irqs }) ∧
    (slotSt s n = 2 → ∃ t, exec (.stepRelease p) s = .next t ∧ (getPart t p).inStep = true ∧ curEpoch t p = epochOf s n ∧ slotSt t n = 3))

/-- A load from the loft (R366): the write of START takes a slot, LOADING with BASE; the object's bytes make it READY, and a failed check
BAD. A write of a slot's base or size is refused while the slot holds an epoch, and empties a BAD slot (R348, R369). -/
def Obligations.EpochLoadsAndSlotRegisters : Prop :=
  ∀ (s : State) (w : Writer) (v : W32) (n : Nat), n < 3 →
    let e := (reg s (pEpo + Off.epoLoadEpoch)).toNat
    let obj := (reg s (pEpo + Off.epoLoadObj)).toNat
    let base (size : Bool) := pEpo + (if size then Off.epoSSize else Off.epoSBase) + 16 * n
    let kept (size : Bool) : W32 := v &&& (if size then 0xFFFF#32 else 0x7FFFFFF#32)
    (s.managed w pEpo = true → bit v 0 = true → (∀ m < 3, epochOf s m ≠ e) → e ≠ noEpoch → emptySlot s = some n → slotPending s none = false →
      epochStale s e (pair s (pEpo + Off.epoLoadSwLo)) = false → (getObj s obj).isSome = true →
      ∃ t, exec (.epochLoad w v) s = .next t ∧ slotSt t n = 1 ∧ bit (reg t (slotStat n)) 28 = true ∧ epochOf t n = e ∧
        t.epLoad = some (obj, n) ∧ (getSlot t n).nshard = 1 ∧ (getSlot t n).swstep = pair s (pEpo + Off.epoLoadSwLo)) ∧
    (∀ o ps, s.epLoad = some (obj, n) → slotSt s n = 1 → getObj s obj = some o → o.st = 0 → o.len ≠ 0 → o.len ≤ slotSize s n * frameBytes →
      (objBytes o).length = o.len → slotPages s n 0 o.len = some ps → (getSlot s n).nshard = 1 → (getSlot s n).fetch = [] →
      epochUsed s (epochOf s n) = false →
      (∃ t, exec (.epochLoadComplete true) s = .next t ∧ slotSt t n = 2 ∧ t.epLoad = none ∧ epochOf t n = epochOf s n ∧
        t.mem = (ps.foldl (fun s x => memWrite s x.2.1 (((objBytes o).drop x.1).take x.2.2)) s).mem) ∧
      (∃ t, exec (.epochLoadComplete false) s = .next t ∧ slotSt t n = 4 ∧ t.epLoad = none ∧ bit (reg t (pEpo + Off.intStat)) 1 = true)) ∧
    (∀ size, s.managed w pEpo = true → slotSt s n = 0 →
      ∃ t, exec (.slotBaseWrite w n size v) s = .next t ∧ reg t (base size) = kept size ∧ ledgerOnly s t 1 [base size, pEpo + Off.ledgerSeq]) ∧
    (s.managed w pEpo = true → slotSt s n = 4 →
      ∃ t, exec (.slotBaseWrite w n false v) s = .next t ∧ reg t (base false) = kept false ∧ slotSt t n = 0 ∧ epochOf t n = noEpoch) ∧
    (∀ size, s.managed w pEpo = true → (slotSt s n = 1 ∨ slotSt s n = 2 ∨ slotSt s n = 3) →
      ∃ t, exec (.slotBaseWrite w n size v) s = .next t ∧ reg t (base size) = reg s (base size) ∧
        reg t (pEpo + Off.errCnt) = w32 (satAdd 32 (reg s (pEpo + Off.errCnt)).toNat 1) ∧ t = { s with regs := t.regs, irqs := t.irqs } ∧
        cellsSame s t [pEpo + Off.errCnt, pEpo + Off.intStat])

/-! ### Memory and the map engine (11) -/

/-- A scrub pass over one row (R379, R383, R384): below the threshold it only counts the corrected lines; at it the row is repaired from a
spare row, counted and reported, with every byte of memory and every poisoned line as before; without a spare row an ACTIVE
pseudo-channel with no unified page becomes RETIRING, or RETIRED where it holds nothing, as it does when class M writes NTM.RETIRE.
Stated while the CPER ring is off. -/
def Obligations.ScrubRepairAndRetirement : Prop :=
  ∀ (s : State) (c n : Nat) (r : RowErr) (w : Writer) (v : W32),
    let thr := regF s (scrubReg c Off.ntmRepair Off.ftmRepair) 15 8
    let ecc := scrubReg c Off.ntmEccCorr Off.ftmEccCorr
    let reps := scrubReg c Off.ntmRepairs Off.ftmRepairs
    let due := r.uncs = [] ∧ 0 < thr ∧ thr ≤ r.corr
    let runs := (Instr.scrubPass c [r]).wf = true ∧ regF s (scrubReg c Off.ntmRepair Off.ftmRepair) 7 0 ≠ 0 ∧ rowIn c r = true ∧ s.cperOff
    let single (n : Nat) := pcState s n = 0 ∧ pcOwner s n = none ∧ (∀ x ∈ mapped s, ¬ (x.2.1 = 0 ∧ x.2.2 / 768 = n)) ∧
      ∀ k < 256, pcState s k ≠ 1
    let retired (t : State) (n : Nat) := pcState t n = (if pcEmpty s n then 2 else 1) ∧ bit (reg t (ntmPg (n / 32) + Off.intStat)) 2 = true ∧
      (pcEmpty s n = true → bit (reg t (ntmPg (n / 32) + Off.intStat)) 3 = true) ∧ ∀ k < 256, k ≠ n → pcState t k = pcState s k
    (runs → r.uncs = [] → (thr = 0 ∨ r.corr < thr) →
      exec (.scrubPass c [r]) s = .next (bump s ecc r.corr)) ∧
    (runs → due → r.spares ≠ 0 →
      ∃ t, exec (.scrubPass c [r]) s = .next t ∧ reg t ecc = w32 (satAdd 32 (reg s ecc).toNat r.corr) ∧
        reg t reps = w32 (satAdd 32 (reg s reps).toNat 1) ∧ bit (reg t (scrubPage c + Off.intStat)) 1 = true ∧
        t = { s with regs := t.regs, irqs := t.irqs, mram := t.mram } ∧
        cellsSame s t ([ecc, reps, scrubPage c + Off.intStat, pcStat (r.at_ / pcBytes)] ++ bbrCells) ∧
        (c < 8 → pcState t (r.at_ / pcBytes) = pcState s (r.at_ / pcBytes) ∧ regF t (pcStat (r.at_ / pcBytes)) 15 8 ≤ r.spares - 1)) ∧
    (runs → due → r.spares = 0 → c < 8 → single (r.at_ / pcBytes) →
      ∃ t, exec (.scrubPass c [r]) s = .next t ∧ retired t (r.at_ / pcBytes) ∧
        t = { s with regs := t.regs, irqs := t.irqs, mram := t.mram }) ∧
    (n < 256 → s.managed w (ntmPg (n / 32)) = true → bit v 8 = true → fld v 4 0 = n % 32 → single n → s.cperOff → s.tablesClear 1 →
      ∃ t, exec (.pcRetire w (ntmPg (n / 32)) v) s = .next t ∧ retired t n ∧
        t = { s with regs := t.regs, irqs := t.irqs, mram := t.mram, ledger := t.ledger, mem := t.mem } ∧
        ∀ a, ¬ inNextRecords s 1 a → rdB t.mem a = rdB s.mem a)

/-- The map commands on their items (R389, R390): BUSY is set, the command keeps its RESULT for its end; MAP backs the page with the frame
that R390 takes, reading zero, with its access count 0; UNMAP clears VALID; MOVE starts the migration of a page that is in the other
tier; ATTR sets RO and PIN; CLRCNT clears the counts; FAROWN writes the ownership entries. A command that fails a check leaves every
entry as it is. MAP and MOVE are stated for one item. -/
def Obligations.MapCommandsRun : Prop :=
  ∀ (s : State) (w : Writer) (v : W32) (pg n arg : Nat),
    let um := tableOff s (pFtm0 + Off.ftmUmapBaseLo)
    let fo := tableOff s (pFtm0 + Off.ftmFownBaseLo)
    let ac := tableOff s (pFtm0 + Off.ftmAccBaseLo)
    let tier := arg / 2 ^ 31 % 2
    let busy (t : State) (op res : Nat) := reg t (pFtm0 + Off.ftmMcmdStat) = 0x80000000#32 ∧ t.mcmd = some (op, pg, n, res) ∧
      t = { s with regs := t.regs, irqs := t.irqs, ledger := t.ledger, mem := t.mem, mcmd := t.mcmd, migs := t.migs, migWait := t.migWait,
                   poison := t.poison } ∧
      cellsSame s t ([pFtm0 + Off.ftmMcmdGo, pFtm0 + Off.ftmMcmdStat, pFtm0 + Off.ledgerSeq] ++ ledgerCells)
    let others (t : State) (base lo len : Nat) := ∀ a, ¬ inNextRecords s 1 a → (a < base + lo ∨ base + lo + len ≤ a) → rdB t.mem a = rdB s.mem a
    let ok (op : Nat) := s.mapGoes w v op pg n arg ∧ mapCheck s op pg n arg = 0
    (∀ f, ok 1 → n = 1 → takeFrame s (if arg / 2 ^ 29 % 2 = 1 then none else some (arg % 32)) tier pg = some f →
      ∃ t, exec (.map w v) s = .next t ∧ busy t 1 0 ∧ mapEntry t pg = newEntry arg f ∧
        (∀ i < frameBytes, rdB t.mem (frameOff tier f + i) = 0) ∧ rdNat t.mem (ac + 4 * pg) 4 = 0 ∧
        (∀ a, ¬ inNextRecords s 1 a → (a < um + 8 * pg ∨ um + 8 * pg + 8 ≤ a) → (a < ac + 4 * pg ∨ ac + 4 * pg + 4 ≤ a) →
          (a < frameOff tier f ∨ frameOff tier f + frameBytes ≤ a) → rdB t.mem a = rdB s.mem a)) ∧
    (ok 1 → n = 1 → takeFrame s (if arg / 2 ^ 29 % 2 = 1 then none else some (arg % 32)) tier pg = none →
      ∃ t, exec (.map w v) s = .next t ∧ busy t 1 3 ∧ others t um 0 0) ∧
    (ok 2 → (∀ k < 256, pcState s k ≠ 1) →
      ∃ t, exec (.unmap w v) s = .next t ∧ busy t 2 0 ∧ others t um (8 * pg) (8 * n) ∧
        (∀ u, pg ≤ u → u < pg + n → mapEntry t u = setEBit (setEBit (mapEntry s u) 63 false) 58 false) ∧
        ∀ m ∈ t.migs, m.1 < pg ∨ pg + n ≤ m.1) ∧
    (∀ f, ok 3 → n = 1 → bit (mapEntry s pg) 58 = false → fld (mapEntry s pg) 62 62 ≠ tier →
      takeFrame s (entryOwner (mapEntry s pg)) tier pg = some f →
      ∃ t, exec (.move w v) s = .next t ∧ busy t 3 0 ∧ t.migs = s.migs ++ [(pg, tier, f)] ∧
        mapEntry t pg = setEBit (mapEntry s pg) 58 true ∧ others t um (8 * pg) 8) ∧
    (ok 4 → ∃ t, exec (.attr w v) s = .next t ∧ busy t 4 0 ∧ others t um (8 * pg) (8 * n) ∧
      ∀ u, pg ≤ u → u < pg + n →
        mapEntry t u = setEBit (setEBit (mapEntry s u) 61 (arg / 2 ^ 30 % 2 = 1)) 59 (arg / 2 ^ 28 % 2 = 1)) ∧
    (ok 5 → ∃ t, exec (.clrcnt w v) s = .next t ∧ busy t 5 0 ∧ others t ac (4 * pg) (4 * n) ∧
      ∀ i < 4 * n, rdB t.mem (ac + 4 * pg + i) = 0) ∧
    (ok 6 → ∃ t, exec (.farown w v) s = .next t ∧ busy t 6 0 ∧ others t fo pg n ∧
      ∀ f, pg ≤ f → f < pg + n →
        farOwn t f = BitVec.ofNat 8 (arg / 2 ^ 31 % 2 * 128 + arg / 2 ^ 29 % 2 * 64 + arg % 32)) ∧
    (∀ row ∈ [(1, Instr.map), (2, .unmap), (3, .move), (4, .attr), (5, .clrcnt), (6, .farown)],
      s.mapGoes w v row.1 pg n arg → mapCheck s row.1 pg n arg ≠ 0 →
      ∃ t, exec (row.2 w v) s = .next t ∧ busy t row.1 (mapCheck s row.1 pg n arg) ∧ others t um 0 0 ∧ t.migs = s.migs ∧
        t.migWait = s.migWait ∧ t.poison = s.poison)

/-- A map command ends with its RESULT and an interrupt (R389); a migration ends with the page's entry naming the new frame, MIG 0, and the
new frame holding what the old one held (R393); an entry of the prefetch schedule starts once its counter has reached THRESH and asks
for its page, and not before (R397). -/
def Obligations.MapCommandsAndMigrationsEnd : Prop :=
  ∀ (s : State) (u tier f p op pg n res : Nat),
    let e := mapEntry s u
    let src := pageOff e 0
    let dst := frameOff tier f
    let um := tableOff s (pFtm0 + Off.ftmUmapBaseLo)
    let x := getPart s p
    let a := pfAt s p x.pfNext
    let first := rdNat s.mem a 4
    let ctr := rdNat s.mem (a + 8) 2
    let due := rdNat s.mem (a + 12) 4 ≤ getD x.pctr ctr 0 - getD x.pctr0 ctr 0
    let moving := op = 3 ∧ ∃ m ∈ s.migs, pg ≤ m.1 ∧ m.1 < pg + n
    (s.mcmd = some (op, pg, n, res) → moving → exec .mapCommandDone s = .next s) ∧
    (s.mcmd = some (op, pg, n, res) → ¬ moving →
      ∃ t, exec .mapCommandDone s = .next t ∧ t.mcmd = none ∧ reg t (pFtm0 + Off.ftmMcmdStat) = w32 res ∧
        bit (reg t (pFtm0 + Off.intStat)) 5 = true ∧ t = { s with regs := t.regs, irqs := t.irqs, mcmd := none } ∧
        cellsSame s t [pFtm0 + Off.ftmMcmdStat, pFtm0 + Off.intStat]) ∧
    (u < 2 ^ 21 → s.migs.find? (fun m => decide (m.1 = u)) = some (u, tier, f) → (∀ m ∈ s.migWait, m.1 ≠ u ∧ m.1 < 2 ^ 21 ∧ bit (mapEntry s m.1) 58 = true) → memWf s.mem = true → tier < 2 → f < 2 ^ 20 →
      (src + frameBytes ≤ dst ∨ dst + frameBytes ≤ src) → (dst + frameBytes ≤ um ∨ um + 8 * 2 ^ 21 ≤ dst) → (∀ k < 256, pcState s k ≠ 1) →
      ∃ t, exec (.migrationComplete u) s = .next t ∧ t.migs = s.migs.filter (fun m => decide (m.1 ≠ u)) ∧
        bit (mapEntry t u) 58 = false ∧ pageOff (mapEntry t u) 0 = dst ∧
        (∀ i, i ∉ [58, 62] → 20 ≤ i → bit (mapEntry t u) i = bit e i) ∧
        (∀ i < frameBytes, rdB t.mem (dst + i) = rdB s.mem (src + i)) ∧
        (∀ b, (b < dst ∨ dst + frameBytes ≤ b) → (b < um + 8 * u ∨ um + 8 * u + 8 ≤ b) → rdB t.mem b = rdB s.mem b) ∧
        pair t (pFtm0 + Off.ftmMigLo) = (pair s (pFtm0 + Off.ftmMigLo) + 1) % 2 ^ 64) ∧
    (p < 32 → x.inStep = true → x.pfNext < x.pfCnt → pfOk s a = true → ¬ due → exec (.prefetchEntryStart p) s = .next s) ∧
    (p < 32 → x.inStep = true → x.pfNext < x.pfCnt → pfOk s a = true → due → rdNat s.mem (a + 4) 2 = 1 → rdNat s.mem (a + 6) 1 = 1 →
      bit (mapEntry s first) 63 = true → bit (mapEntry s first) 62 = true → bit (mapEntry s first) 59 = false →
      bit (mapEntry s first) 58 = false → entryOwner (mapEntry s first) = some p →
      (∀ g, takeFrame s (some p) 0 first = some g →
        ∃ t, exec (.prefetchEntryStart p) s = .next t ∧ t.migs = s.migs ++ [(first, 0, g)] ∧ getPart t p = { x with pfNext := x.pfNext + 1 } ∧
          mapEntry t first = setEBit (mapEntry s first) 58 true ∧ t.regs = s.regs) ∧
      (takeFrame s (some p) 0 first = none →
        ∃ t, exec (.prefetchEntryStart p) s = .next t ∧ t.migs = s.migs ∧ t.mem = s.mem ∧ getPart t p = { x with pfNext := x.pfNext + 1 } ∧
          reg t (pFtm0 + Off.ftmPfNoroom) = w32 (satAdd 32 (reg s (pFtm0 + Off.ftmPfNoroom)).toNat 1) ∧
          bit (reg t (pFtm0 + Off.intStat)) 6 = true))

/-- Loft commands (R403 to R405, R411): READ stores the object's bytes, or makes an object LOST whose digest fails twice; WRITE makes the
object WRITING with the digest of the bytes; DELETE removes it; DIR stores the directory; FETCH is FETCHING while bytes with its digest
come; a FAILED loft answers 7. Each keeps its RESULT for the end of the command. -/
def Obligations.LoftCommandsRun : Prop :=
  ∀ (s : State) (w : Writer) (v : W32) (off sectors : Nat) (o : LoftObj) (data : List Byte),
    let obj := (reg s (pLft + Off.lftCmdObj)).toNat
    let a := pair s (pLft + Off.lftCmdAddrLo)
    let n := pair s (pLft + Off.lftCmdLenLo)
    let k := min n o.len
    let cmd := reg s (pLft + Off.lftCmd)
    let free := s.managed w pLft = true ∧ bit v 0 = true ∧ bit (reg s (pLft + Off.lftCmdStat)) 31 = false ∧
      bit (reg s (pLft + Off.pageCtl)) 1 = false
    let goes (op : Nat) := free ∧ regF s (pLft + Off.lftCmd) 31 24 = op ∧ loftState s ≠ 3
    let dir := (s.loft.flatMap (fun e => dirEntry e.1 e.2)).take n
    let runs (i : Instr) (op res : Nat) (d : List Byte) (eff : State → Prop) := ∃ t, exec i s = .next t ∧ eff t ∧
      t.lcmd = some ⟨op, obj, res, d⟩ ∧ reg t (pLft + Off.lftCmdStat) = 0x80000000#32 ∧
      t = { s with regs := t.regs, irqs := t.irqs, ledger := t.ledger, mem := t.mem, mram := t.mram, poison := t.poison, loft := t.loft,
                   lcmd := t.lcmd }
    let stored (t : State) (lo len : Nat) := ∀ b, ¬ inNextRecords s 1 b → (b < lo ∨ lo + len ≤ b) → rdB t.mem b = rdB s.mem b
    (goes 1 → getObj s obj = some o → o.st = 0 → loftSpan s a k = some off →
      (∀ bad < 2, runs (.loftRead w v sectors bad) 1 0 [] (fun t => rdBytes t.mem off k = rdBytes o.data 0 k ∧ t.loft = s.loft ∧
        reg t (pLft + Off.lftSectErr) = w32 (satAdd 32 (reg s (pLft + Off.lftSectErr)).toNat sectors) ∧ stored t off k)) ∧
      (s.cperOff → runs (.loftRead w v sectors 2) 1 3 [] (fun t => getObj t obj = some { o with st := 2, data := [] } ∧
        (∀ j, j ≠ obj → getObj t j = getObj s j) ∧ reg t (pLft + Off.lftLost) = w32 (satAdd 32 (reg s (pLft + Off.lftLost)).toNat 1) ∧
        bit (reg t (pLft + Off.intStat)) 2 = true ∧ stored t 0 0))) ∧
    (goes 1 → (getObj s obj).map (·.st) ≠ some 0 →
      runs (.loftRead w v sectors 0) 1 (if (getObj s obj).map (·.st) = some 2 then 2 else 1) [] (fun t => t.loft = s.loft ∧ stored t 0 0)) ∧
    (goes 2 → obj ≠ 0 → obj ≠ 0xFFFFFFFF → (getObj s obj = none ∨ (getObj s obj).map (·.st) = some 2) →
      loftUsed s + n ≤ loftCap (loftLive s) → loftSpan s a n = some off → (∀ i < n, ¬ inNextRecords s 1 (off + i)) →
      runs (.loftWrite w v) 2 0 [] (fun t => stored t 0 0 ∧ (∀ j, j ≠ obj → getObj t j = getObj s j) ∧
        getObj t obj = some { typ := fld cmd 23 16, st := 1, fetchable := bit cmd 0, len := n, created := 0,
                              digest := sha384 (rdBytes s.mem off n), data := wrBytes [] 0 (rdBytes s.mem off n) })) ∧
    (goes 3 → (getObj s obj).isSome = true →
      runs (.loftDelete w v) 3 0 [] (fun t => getObj t obj = none ∧ (∀ j, j ≠ obj → getObj t j = getObj s j) ∧ stored t 0 0)) ∧
    (goes 4 → loftSpan s a dir.length = some off →
      runs (.loftDir w v) 4 0 [] (fun t => rdBytes t.mem off dir.length = dir ∧ t.loft = s.loft ∧ stored t off dir.length)) ∧
    (goes 5 → getObj s obj = some o → o.fetchable = true → data.length = o.len → sha384 data = o.digest →
      runs (.loftFetch w v data) 5 0 data (fun t => getObj t obj = some { o with st := 3 } ∧ stored t 0 0)) ∧
    (∀ row ∈ [(1, Instr.loftRead w v 0 0), (2, .loftWrite w v), (3, .loftDelete w v), (4, .loftDir w v), (5, .loftFetch w v [])],
      free → regF s (pLft + Off.lftCmd) 31 24 = row.1 → loftState s = 3 → runs row.2 row.1 7 [] (fun t => t.loft = s.loft ∧ stored t 0 0))

/-- A loft command ends: a written or fetched object is VALID, RESULT shows, an interrupt is set (R404, R411). A patrol pass counts its
sectors and makes the objects of a lost stripe LOST (R406, R407, R411). A member's failure starts a rebuild, or fails the loft below
four members with every object LOST (R402, R408); the rebuild's end leaves it DEGRADED or whole. -/
def Obligations.LoftEndsPatrolsAndRebuilds : Prop :=
  ∀ (s : State) (c : LoftCmd) (o : LoftObj) (m sectors k : Nat),
    let st := pLft + Off.lftStat
    (s.lcmd = some c → getObj s c.obj = some o → c.res = 0 → (c.op = 2 ∧ o.st = 1) ∨ (c.op = 5 ∧ o.st = 3) →
      ∃ t, exec .loftCommandDone s = .next t ∧
        getObj t c.obj = some { o with st := 0, created := s.time, data := if c.op = 5 then wrBytes [] 0 c.data else o.data } ∧
        t.lcmd = none ∧ reg t (pLft + Off.lftCmdStat) = 0 ∧ bit (reg t (pLft + Off.intStat)) 3 = true ∧ t.mem = s.mem ∧
        t = { s with regs := t.regs, irqs := t.irqs, loft := t.loft, lcmd := none }) ∧
    (s.lcmd = some c → c.op = 1 →
      ∃ t, exec .loftCommandDone s = .next t ∧ t.loft = s.loft ∧ t.lcmd = none ∧ reg t (pLft + Off.lftCmdStat) = w32 c.res ∧
        bit (reg t (pLft + Off.intStat)) 3 = true) ∧
    (regF s (pLft + Off.lftCfg) 15 8 ≠ 0 → loftState s ≠ 3 →
      (∃ t, exec (.loftPatrol sectors []) s = .next t ∧
        reg t (pLft + Off.lftSectErr) = w32 (satAdd 32 (reg s (pLft + Off.lftSectErr)).toNat sectors) ∧ t = { s with regs := t.regs } ∧
        cellsSame s t [pLft + Off.lftSectErr, pLft + Off.lftCap, pLft + Off.lftUsed]) ∧
      (getObj s k = some o → o.st ≠ 2 →
        ∃ t, exec (.loftPatrol sectors [⟨k, m⟩]) s = .next t ∧ getObj t k = some { o with st := 2, data := [] } ∧
          (∀ j, j ≠ k → getObj t j = getObj s j) ∧ reg t (pLft + Off.lftLost) = w32 (satAdd 32 (reg s (pLft + Off.lftLost)).toNat 1) ∧
          bit (reg t (pLft + Off.intStat)) 2 = true)) ∧
    (m < 10 → bit (reg s st) m = true → 5 ≤ loftLive s → loftUsed s ≤ loftCap (loftLive s - 1) →
      ∃ t, exec (.loftMemberFail m []) s = .next t ∧ bit (reg t st) m = false ∧ loftState t = 2 ∧ loftLive t = loftLive s - 1 ∧
        regF t st 19 16 = loftLive s - 1 ∧ bit (reg t (pLft + Off.intStat)) 0 = true ∧ t.loft = s.loft ∧
        reg t (pLft + Off.lftTodo) = w32 (ceilDiv (loftUsed s) (2 ^ 30))) ∧
    (m < 10 → bit (reg s st) m = true → loftLive s = 4 → keysUp s.loft = true →
      ∃ t, exec (.loftMemberFail m []) s = .next t ∧ bit (reg t st) m = false ∧ loftState t = 3 ∧ (∀ e ∈ t.loft, e.2.st = 2) ∧
        ∀ j, (getObj t j).isSome = (getObj s j).isSome) ∧
    (loftState s = 2 →
      ∃ t, exec .loftRebuildDone s = .next t ∧ loftState t = (if loftLive s = 10 then 0 else 1) ∧ reg t (pLft + Off.lftTodo) = 0 ∧
        bit (reg t (pLft + Off.intStat)) 1 = true ∧ t = { s with regs := t.regs, irqs := t.irqs } ∧
        cellsSame s t [st, pLft + Off.lftTodo, pLft + Off.intStat])

/-- Image switches of a shared partition (R308, R309): once every cart has spilled, a free slot holds the live state of the outgoing image
and the restore of the incoming one begins; once every cart has read it back, its streams and scratchpads are those of the slot, the
slot is free and the image resident. -/
def Obligations.SpillsAndRestores : Prop :=
  ∀ (s : State) (p i img n : Nat) (y : Spill) (im : Image), p < 32 →
    let x := getPart s p
    x.hams.Nodup → (∀ h ∈ x.hams, h < 128) → x.switchTo = some n →
    (freeSpill x = some i → x.resident = some img → allSpill s p 1 = true → n ≠ img → (spillSlotOf x n).isSome = true →
      ∃ t, exec (.spillComplete p) s = .next t ∧
        getPart t p = { x with spills := putS x.spills i (spillOf s p img) } ∧
        (∀ h ∈ x.hams, getHam t h = { getHam s h with spill := 2 } ∧ bit (reg t (crtPg h + Off.intStat)) 1 = true ∧
          reg t (crtPg h + Off.crtSpills) = w32 (satAdd 32 (reg s (crtPg h + Off.crtSpills)).toNat 1)) ∧
        (∀ h, h ∉ x.hams → getHam t h = getHam s h) ∧ t.streams = s.streams ∧ t.tiles = s.tiles ∧ t.mem = s.mem) ∧
    (spillSlotOf x n = some (i, y) → getS x.images n = some im → allSpill s p 2 = true → (y.lhams.map (·.1)).Nodup →
      (∀ hl ∈ y.lhams, hl.1 < 128) → (∀ e ∈ s.reqs, imgOf s e.2.func = n) →
      ∃ t, exec (.spillRestoreComplete p) s = .next t ∧
        (getPart t p).switchTo = none ∧ (getPart t p).resident = some n ∧ (getPart t p).spills = delS x.spills i ∧
        (getPart t p).step = y.step ∧ (getPart t p).pctr = y.pctr ∧ (getPart t p).firings = y.firings ∧
        (∀ hl ∈ y.lhams, (getHam t hl.1).lham = hl.2 ∧ (getHam t hl.1).spill = 0 ∧ (getHam t hl.1).bound = true ∧
          ∀ l < 16, getStr t hl.1 l = getD y.streams (hl.2 * 16 + l) Stream.init ∧
            (bit (tmap t hl.1 l) 31 = true → (getTile t (ctxKey t hl.1 l)).spad = getD y.spads (hl.2 * 16 + l) [])) ∧
        ∀ h ∈ x.hams, bit (reg t (crtPg h + Off.intStat)) 2 = true)
/-! ### The fabric (12) -/

/-- Ports and their links: a bad lane and a write of RETRAIN put the port into TRAINING (R416); training ends at width 4, 2 or FAILED by
the good lanes (R415); a flit whose CRC fails is counted, not taken, and answered once by a NAK (R419); an in-order HEAD flit is taken
and its payload begins the packet of its VC (R418); a NAK resends from the expected SEQ on in order, counted (R419); a SEQ resent
RETRY_MAX times retrains the port (R420). -/
def Obligations.PortsTrainAndResend : Prop :=
  ∀ (s : State) (w : Writer) (v : W32) (p l good q corr : Nat) (bs : List Byte), p < 16 →
    let st := ylkPg p + Off.ylkStat
    let int := ylkPg p + Off.intStat
    let up := portState s p = 2 ∨ portState s p = 3
    let k := getLink s p
    let n := (bitsSet (BitVec.ofNat 5 good) 5).length
    let regsOnly (t : State) (c : List Nat) := t = { s with regs := t.regs, irqs := t.irqs } ∧ cellsSame s t c
    let onLink (t : State) := (∀ i, i ≠ p → getLink t i = getLink s i) ∧
      t = { s with regs := t.regs, irqs := t.irqs, fab := { s.fab with links := t.fab.links, flits := t.fab.flits } }
    let again := k.buf.dropWhile (fun f => decide (f.seq ≠ q))
    let h := flitHead bs
    (l < 5 → up → bit (reg s st) (15 + l) = true →
      ∃ t, exec (.laneBad p l) s = .next t ∧ portState t p = 1 ∧ bit (reg t st) (15 + l) = false ∧ bit (reg t int) 0 = true ∧
        regF t st 23 20 = 0 ∧ regsOnly t [st, int]) ∧
    (l < 5 → ¬ up ∨ bit (reg s st) (15 + l) = false → exec (.laneBad p l) s = .next s) ∧
    (s.managed w (ylkPg p) = true → bit v 0 = true →
      ∃ t, exec (.ylkRetrain w p v) s = .next t ∧ portState t p = 1 ∧
        ledgerOnly s t 1 [ylkPg p + Off.ylkCfg, st, int, ylkPg p + Off.ledgerSeq]) ∧
    (good < 32 → portState s p < 2 → k.wait = [] →
      ∃ t, exec (.retrainComplete p good) s = .next t ∧ portState t p = (if 4 ≤ n then 2 else if 2 ≤ n then 3 else 4) ∧
        regF t st 23 20 = (if 4 ≤ n then 4 else if 2 ≤ n then 2 else 0) ∧ regF t st 19 15 = good ∧
        bit (reg t st) 14 = (decide (4 ≤ n) && decide (good % 16 ≠ 15)) ∧ bit (reg t int) 0 = true ∧ regsOnly t [st, int]) ∧
    (bs.length = 256 → up → flitGood bs = false →
      ∃ t, exec (.flitReceive p bs corr 0) s = .next t ∧ onLink t ∧ (getLink t p).exp = k.exp ∧ (getLink t p).nak = true ∧
        (getLink t p).asm = k.asm ∧ reg t (ylkPg p + Off.ylkCrcErr) = w32 (satAdd 32 (reg s (ylkPg p + Off.ylkCrcErr)).toNat 1) ∧
        (k.nak = true → t.fab.flits = s.fab.flits) ∧
        (k.nak = false → ∃ f, t.fab.flits = s.fab.flits ++ [(p, f)] ∧ f.typ = 5 ∧ f.payload.take 4 = [0x01, 0x00] ++ bytesOf 2 k.exp)) ∧
    (bs.length = 256 → up → flitGood bs = true → h.typ = 1 → h.seq = k.exp → k.wait = [] →
      ∃ t, exec (.flitReceive p bs corr 0) s = .next t ∧ onLink t ∧ (getLink t p).exp = (k.exp + 1) % 1024 ∧ (getLink t p).nak = false ∧
        getS (getLink t p).asm h.vc = some (bs.drop 8)) ∧
    (q < 1024 → k.buf ≠ [] → k.buf.head?.map (·.seq) = some q →
      ∃ t, exec (.nak p q) s = .next t ∧ onLink t ∧ t.fab.flits = s.fab.flits ++ again.map (fun f => (p, f)) ∧
        (getLink t p).tries = k.tries + 1 ∧ (getLink t p).buf = k.buf ∧
        reg t (ylkPg p + Off.ylkRetry) = w32 (satAdd 32 (reg s (ylkPg p + Off.ylkRetry)).toNat again.length)) ∧
    (q < 1024 → k.buf.head?.map (·.seq) = some q → retryMax s p ≤ k.tries →
      ∃ t, exec (.retryLimit p q) s = .next t ∧ portState t p = 1 ∧ bit (reg t int) 2 = true ∧ onLink t ∧ (getLink t p).buf = k.buf)

/-- A packet of another membership epoch is dropped and counted (R425, R655), a duplicate only acknowledged (R427), an ORDERED one
before its turn held (R428); a refused STORE changes no memory and is acknowledged with TAG bit 31 (R429). -/
def Obligations.PacketsDroppedHeldAndRefused : Prop :=
  ∀ (s : State) (k : Packet) (pl : Nat), s.quar = false → k.wf = true →
    ∀ row ∈ [(1, Instr.load), (2, .loadResp), (3, .store), (4, .put), (5, .get), (6, .getResp), (7, .reducePut)],
    (row.1 ≠ 1 → row.1 ≠ 5 → k.data.length = k.len) →
    let win := rxWin s (k.src * 8 + k.vc)
    let ack (tag : Nat) : Packet := ⟨k.src, modId s, s.mepoch, 8, 0, 0, k.part, k.seq, tag, k.vc, [], 1, pl⟩
    (k.mepoch ≠ s.mepoch →
      (serialAfter k.mepoch s.mepoch = true → exec (row.2 k) s = .next (bump s (ylkPg k.port + Off.ylkAheadDrop) 1)) ∧
      (serialAfter k.mepoch s.mepoch = false →
        ∃ t, exec (row.2 k) s = .next t ∧
          reg t (ylkPg k.port + Off.ylkStaleDrop) = w32 (satAdd 32 (reg s (ylkPg k.port + Off.ylkStaleDrop)).toNat 1) ∧
          bit (reg t (ylkPg k.port + Off.intStat)) 3 = true ∧ t = { s with regs := t.regs, irqs := t.irqs } ∧
          cellsSame s t [ylkPg k.port + Off.ylkStaleDrop, ylkPg k.port + Off.intStat])) ∧
    (k.mepoch = s.mepoch → rxSeen win k.seq = true → choosePlane s k.src false = some pl →
      ∃ t, exec (row.2 k) s = .next t ∧ t.fab.outbox = s.fab.outbox ++ [(pl, ack 1)] ∧ t.mem = s.mem ∧ t.parts = s.parts ∧
        t = { s with fab := t.fab, regs := t.regs }) ∧
    (k.mepoch = s.mepoch → rxSeen win k.seq = false → k.flags % 2 = 1 → k.seq ≠ win.low →
      (∀ x ∈ s.fab.held, ¬ (x.src = k.src ∧ x.vc = k.vc ∧ x.seq = k.seq)) →
      exec (row.2 k) s = .next { s with fab := { s.fab with held := s.fab.held ++ [{ k with op := row.1 }] } }) ∧
    (row.1 = 3 → k.mepoch = s.mepoch → rxSeen win k.seq = false → k.flags % 2 = 0 → peerOk s k.part k.src = false → s.fab.held = [] →
      choosePlane s k.src false = some pl →
      ∃ t, exec (.store k) s = .next t ∧ t.mem = s.mem ∧ t.fab.outbox = s.fab.outbox ++ [(pl, ack (2 ^ 31 + 1))] ∧
        reg t (pPen + Off.penRefused) = w32 (satAdd 32 (reg s (pPen + Off.penRefused)).toNat 1))

/-- The effect of an admitted packet on near-tier memory (R427 to R430, R451 to R454, R458): STORE and PUT write their data, and PUT then
counts at RCTR; LOAD and GET answer with the bytes; LOAD_RESP and GET_RESP write where the unit wanted them; a contribution of REDUCE_PUT
lands in its slot. Each is marked as applied and acknowledged. A PUT on VC5 writes the frames of a shipment accepted from its source and
else is refused (the model's choice, log entry 49). -/
def Obligations.PacketsTakeEffect : Prop :=
  ∀ (s : State) (k : Packet) (pl off base rw : Nat) (want : Want) (c : Chain) (old : Nat × Bool),
    let rt := pair s (pYlk0 + Off.ylkRtBaseLo) % 2 ^ 50
    let x := getPart s k.part
    let o48 := k.addr % 2 ^ 48
    let ack : Packet := ⟨k.src, modId s, s.mepoch, 8, 0, 0, k.part, k.seq, 1, k.vc, [], 1, pl⟩
    let comes := s.quar = false ∧ k.wf = true ∧ k.mepoch = s.mepoch ∧ rxSeen (rxWin s (k.src * 8 + k.vc)) k.seq = false ∧
      (k.flags % 2 = 0 ∨ k.seq = (rxWin s (k.src * 8 + k.vc)).low) ∧ s.fab.held = [] ∧ choosePlane s k.src false = some pl
    let clear := k.data.length = k.len ∧ (off + k.len ≤ rt ∨ rt + 2 ^ 18 ≤ off)
    let done (t : State) := t.fab.outbox = s.fab.outbox ++ [(pl, ack)] ∧ 
      ((rxWin s (k.src * 8 + k.vc)).above = [] → (rxWin s (k.src * 8 + k.vc)).low < 2 ^ 32 → rxSeen (rxWin t (k.src * 8 + k.vc)) k.seq = true) ∧
      rdBytes t.mem off k.len = k.data ∧ ∀ a, (a < off ∨ off + k.len ≤ a) → rdB t.mem a = rdB s.mem a
    let counted (t : State) := reg t (pPen + Off.penRxPkt) = w32 (satAdd 32 (reg s (pPen + Off.penRxPkt)).toNat 1)
    let answers (t : State) (op flags tag : Nat) := ∃ pl2,
      t.fab.outbox = s.fab.outbox ++ [(pl, ⟨k.src, modId s, s.mepoch, op, flags, k.len, k.part, getD s.fab.seq (k.src * 8 + 1) 0, tag, k.addr,
          rdBytes s.mem off k.len, 1, pl⟩), (pl2, { ack with port := pl2 })] ∧ t.mem = s.mem ∧ t.parts = s.parts
    (comes → clear → peerOk s k.part k.src = true → k.addr < 2 ^ 52 → nearSpan s k.part 128 k.addr k.len off true →
      ∃ t, exec (.store k) s = .next t ∧ done t ∧ t.parts = s.parts) ∧
    (comes → clear → k.vc ≠ 5 → k.addr / 2 ^ 48 < 0x3FD → region s k.part (k.addr / 2 ^ 48) = some (base, rw) → rw / 2 ^ 62 % 2 = 1 →
      o48 + k.len ≤ rw % 2 ^ 48 → peerOk s k.part k.src = true → nearSpan s k.part 128 (base + o48) k.len off true →
      (k.tag % 65536 < 256 → getD x.pctr (k.tag % 65536) 0 < 2 ^ 48 - 1) →
      ∃ t, exec (.put k) s = .next t ∧ done t ∧ counted t ∧
        (∀ i, getD (getPart t k.part).pctr i 0 = getD x.pctr i 0 + (if k.tag % 65536 < 256 ∧ i = k.tag % 65536 then 1 else 0))) ∧
    (comes → k.vc = 5 → (shipAdmits s k.src k.addr k.len = true → clear → off = gOff k.addr → ∃ t, exec (.put k) s = .next t ∧ done t ∧ t.parts = s.parts) ∧
      (shipAdmits s k.src k.addr k.len = false → k.data.length = k.len → ∃ t, exec (.put k) s = .next t ∧ t.mem = s.mem ∧ t.parts = s.parts ∧
        t.fab.outbox = s.fab.outbox ++ [(pl, { ack with tag := 2 ^ 31 + 1 })] ∧
        reg t (pPen + Off.penRefused) = w32 (satAdd 32 (reg s (pPen + Off.penRefused)).toNat 1))) ∧
    (comes → peerOk s k.part k.src = true → k.addr < 2 ^ 52 → nearSpan s k.part 128 k.addr k.len off false →
      spanPoison s k.part 128 k.addr k.len = none → ∃ t, exec (.load k) s = .next t ∧ answers t 2 0 k.tag) ∧
    (comes → k.addr / 2 ^ 48 < 0x3FD → region s k.part (k.addr / 2 ^ 48) = some (base, rw) → rw / 2 ^ 61 % 2 = 1 →
      o48 + k.len ≤ rw % 2 ^ 48 → peerOk s k.part k.src = true → nearSpan s k.part 128 (base + o48) k.len off false →
      spanPoison s k.part 128 (base + o48) k.len = none → k.flags % 2 = 0 →
      ∃ t, exec (.get k) s = .next t ∧ answers t 6 0 0 ∧ counted t) ∧
    (comes → clear → s.fab.wants = [want] → want.tag = k.tag → want.dst = k.src → want.h < 128 → (getHam s want.h).cart = none →
      nearSpan s want.part want.h want.addr k.len off true →
      ∃ t, exec (.loadResp k) s = .next t ∧ done t ∧ t.fab.wants = []) ∧
    (comes → clear → s.fab.wants = [want] → want.raddr = k.addr → want.dst = k.src → want.h = 128 →
      nearSpan s want.part want.h want.addr k.len off true →
      ∃ t, exec (.getResp k) s = .next t ∧ done t ∧ counted t ∧ t.fab.wants = []) ∧
    (let chain := k.addr / 2 ^ 52
     let i := k.addr / 2 ^ 46 % 64
     let q := k.addr / 2 ^ 41 % 2
     let j := k.addr / 2 ^ 42 % 16
     let d := chainDesc s c i
     let g := arrKey chain i q j (k.addr % 2 ^ 40 / pdSeg d)
     comes → clear → peerOk s k.part k.src = true → chainHdr s k.part chain = some c → i < c.ndesc → pdOp d = 3 → pdBad d = false →
     k.addr / 2 ^ 40 % 2 = 0 → j < pdArity d → k.addr % 2 ^ 40 + k.len ≤ pdLen d → getD x.arrived g (0, false) = old →
     nearSpan s k.part 128 (slotAt d q j + k.addr % 2 ^ 40) k.len off true →
     ∃ t, exec (.reducePut k) s = .next t ∧ done t ∧ counted t ∧
       getD (getPart t k.part).arrived g (0, false) = (old.1 + k.len, old.2 || decide (k.flags / 2 % 2 = 1)))

/-- An ACK ends the wait for the packets that it names (R427); a packet unacknowledged after TMO_US goes again with RETX set, or after TRIES
sends its destination is reported unreachable; port notices, stalls and failing die-to-die lanes are recorded (R433, R437, R438). -/
def Obligations.AcksResendsAndNotices : Prop :=
  ∀ (s : State) (k : Packet) (u : Sent) (pl m vc q now die dir page port : Nat),
    let e := reg s (pYlk0 + Off.ylkE2e)
    let tmo := 1000 * max 1 (fld e 15 0)
    let tries := max 1 (fld e 31 28)
    let named (y : Sent) : Bool := decide (y.pkt.dst = k.src) && decide (y.pkt.vc = k.addr % 8) &&
      decide ((y.pkt.seq + 2 ^ 32 - k.seq) % 2 ^ 32 < k.tag % 65536)
    let due := s.quar = false ∧ vc < 8 ∧ s.fab.unacked = [u] ∧ u.pkt.dst = m ∧ u.pkt.vc = vc ∧ u.pkt.seq = q ∧ u.sentAt + tmo ≤ now
    let k' : Packet := { u.pkt with flags := u.pkt.flags % 4 + 4, mepoch := s.mepoch }
    let d2d := d2dPg die
    let st := d2d + Off.d2dStat
    let bad := getD s.d2dBad (die * 2 + dir) 0
    (s.quar = false → k.wf = true → k.mepoch = s.mepoch → k.tag < 2 ^ 31 → s.mirrors = [] → (∀ y ∈ s.fab.unacked, y.owner = .none) →
      exec (.ack k) s = .next { s with fab := { s.fab with unacked := s.fab.unacked.filter (fun y => !named y) } }) ∧
    (s.quar = false → vc < 8 → (∀ y ∈ s.fab.unacked, ¬ (y.pkt.dst = m ∧ y.pkt.vc = vc ∧ y.pkt.seq = q)) →
      exec (.e2eResend m vc q now) s = .next s) ∧
    (due → u.sends < tries → otherPlane s m u.plane (decide (k'.flags % 2 = 1)) = some pl →
      ∃ t, exec (.e2eResend m vc q now) s = .next t ∧ t.fab.outbox = s.fab.outbox ++ [(pl, { k' with port := pl })] ∧
        t.fab.unacked = [{ u with sentAt := now, sends := u.sends + 1, plane := pl, pkt := k' }] ∧ t.time = max s.time now ∧ t.mem = s.mem) ∧
    (due → tries ≤ u.sends → u.owner = .none →
      ∃ t, exec (.e2eResend m vc q now) s = .next t ∧ t.out = s.out ++ [.unreach m] ∧ t.fab.unacked = [] ∧ t.fab.outbox = s.fab.outbox) ∧
    (pl < 16 → m < 65536 →
      (∃ t, exec (.portDown pl m) s = .next t ∧ planeLive t m pl = false ∧ t = { s with fab := { s.fab with down := t.fab.down } } ∧
        ∀ y, y ≠ (pl, m) → (y ∈ t.fab.down ↔ y ∈ s.fab.down)) ∧
      (∃ t, exec (.portUp pl m) s = .next t ∧ (pl, m) ∉ t.fab.down ∧ t = { s with fab := { s.fab with down := t.fab.down } } ∧
        ∀ y, y ≠ (pl, m) → (y ∈ t.fab.down ↔ y ∈ s.fab.down))) ∧
    (die < 4 → dir < 2 → (regF s st 31 29 = 2 ∨ regF s st 31 29 = 3) →
      ∃ t, exec (.d2dLaneRepair die dir) s = .next t ∧ getD t.d2dBad (die * 2 + dir) 0 = bad + 1 ∧
        (bad < 4 → reg t (d2d + Off.d2dRepairs) = w32 (satAdd 32 (reg s (d2d + Off.d2dRepairs)).toNat 1) ∧ regF t st 31 29 = regF s st 31 29) ∧
        (4 ≤ bad → bad < 36 → regF t st 31 29 = 3 ∧ regF t st 15 8 = 32) ∧ (36 ≤ bad → regF t st 31 29 = 4 ∧ regF t st 15 8 = 0) ∧
        t = { s with regs := t.regs, irqs := t.irqs, d2dBad := t.d2dBad } ∧ cellsSame s t [st, d2d + Off.d2dRepairs, d2d + Off.intStat]) ∧
    (hamletPage 0x1F page = true → port < 22 →
      ∃ t, exec (.routerStall page port []) s = .next t ∧ reg t (page + Off.netStall) = setBit (reg s (page + Off.netStall)) port true ∧
        bit (reg t (page + Off.intStat)) 0 = true ∧ t = { s with regs := t.regs, irqs := t.irqs } ∧
        cellsSame s t [page + Off.netStall, page + Off.intStat])
/-! ### The port engine and the crier (13) -/

/-- Chains of a partition: firing k begins once START_CTR holds k × START_N (R445), and not before; a PUT of one packet reads its region and
sends it on VC2, a GET asks for its bytes on VC0 (R454), an ALLREDUCE only starts, a SIGNAL completes as it starts (R447), a PUBLISH to
one subscriber sends header and shard on VC4 (R351); a descriptor completes when its packets are acknowledged, and the firing with its
last one (R446). PUT, GET and PUBLISH are stated for one packet. -/
def Obligations.ChainsFireAndMoveData : Prop :=
  ∀ (s : State) (p chain i pl off : Nat) (c : Chain) (f : Firing) (d : PenDesc),
    let x := getPart s p
    let k := getD x.fired chain 0 + (x.firings.filter (fun g => decide (g.chain = chain))).length + 1
    let f' : Firing := { f with started := i + 1 }
    let go : List Firing := x.firings.map (fun g => if g.chain = f.chain ∧ g.k = f.k then f' else g)
    let started (t : State) := getPart t p = { x with firings := go } ∧ ∀ q, q ≠ p → getPart t q = getPart s q
    let peer := grpMember s (pdGroup d) (pdPeer d)
    let ord : Nat := if pdFlag d 4 then 1 else 0
    let one := pdLen d ≤ 4096 ∧ s.quar = false
    let sent (n : Nat) (t : State) := reg t (pPen + Off.penTxPkt) = w32 (satAdd 32 (reg s (pPen + Off.penTxPkt)).toNat n) ∧ t.mem = s.mem
    let pkt (dst op fl tag vc : Nat) (addr : Nat) (len : Nat) (data : List Byte) : Packet :=
      ⟨dst, modId s, s.mepoch, op, fl, len, p, getD s.fab.seq (dst * 8 + vc) 0, tag, addr, data, vc, pl⟩
    let startable := p < 32 ∧ chain < 4096 ∧ penGoes s p = true ∧ chainHdr s p chain = some c ∧ hdrBad c = false ∧ publishes s c = false ∧
      x.chainOff.contains chain = false ∧ (x.firings.filter (fun g => decide (g.chain = chain))).length < 2 ∧
      (chainGroups s c).any (grpStale s) = false
    let waits := p < 32 ∧ chain < 4096 ∧ s.quar = false ∧ chainHdr s p chain = some c ∧ chainDesc s c i = d ∧ pdOp d = 1 ∧ pdBad d = false ∧
      x.firings = [f] ∧ f.chain = chain ∧ i < f.started ∧ i ∉ f.done ∧ pdFlag d 3 = false
    (startable → k * c.n ≤ getD x.pctr c.ctr 0 →
      ∃ t, exec (.firingStart p chain) s = .next t ∧ t = { s with parts := t.parts } ∧ (∀ q, q ≠ p → getPart t q = getPart s q) ∧
        getPart t p = { x with firings := x.firings ++ [⟨chain, k, 0, [], [], [], [], [], 0, 0⟩] }) ∧
    (startable → getD x.pctr c.ctr 0 < k * c.n → exec (.firingStart p chain) s = .next s) ∧
    (s.descAt p chain i 1 c f d → one → nearSpan s p 128 (pdSrc d) (pdLen d) off false → spanPoison s p 128 (pdSrc d) (pdLen d) = none →
      choosePlane s peer (decide (ord = 1)) = some pl →
      ∃ t, exec (.descPut p chain i MemOutcome.clean) s = .next t ∧ started t ∧ sent 1 t ∧ t.fab.outbox = s.fab.outbox ++
        [(pl, pkt peer 4 ord (pdRctr d) 2 (pdDst d / 2 ^ 48 * 2 ^ 48 + pdDst d % 2 ^ 48) (pdLen d) (rdBytes s.mem off (pdLen d)))] ∧
        t.fab.unacked.getLast?.map (·.owner) = some (.pen p chain f.k i)) ∧
    (s.descAt p chain i 2 c f d → one → nearSpan s p 128 (pdDst d) (pdLen d) off true → choosePlane s peer (decide (ord = 1)) = some pl →
      ∃ t, exec (.descGet p chain i) s = .next t ∧ started t ∧ sent 1 t ∧ t.fab.outbox = s.fab.outbox ++
        [(pl, pkt peer 5 ord 0 0 (pdSrc d / 2 ^ 48 * 2 ^ 48 + pdSrc d % 2 ^ 48) (pdLen d) [])] ∧
        t.fab.wants = s.fab.wants ++ [⟨0, peer, p, 128, pdDst d, pdLen d, pdSrc d / 2 ^ 48 * 2 ^ 48 + pdSrc d % 2 ^ 48, .pen p chain f.k i⟩]) ∧
    (s.descAt p chain i 3 c f d → penBad s p (pdSrc d) (pdLen d) false = none → penBad s p (pdDst d) (pdLen d) true = none →
      penBad s p (pdDst d + lenR d) 4 true = none → penBad s p (pdSlots d) (2 * pdArity d * lenR d) true = none →
      ∃ t, exec (.allreduce p chain i) s = .next t ∧ started t ∧ t = { s with parts := t.parts }) ∧
    (s.descAt p chain i 4 c f d → pdFlag d 3 = false → f.done.length + 1 < c.ndesc → i ∉ f.done →
      (x.firings.filter (fun g => decide (g.chain = f.chain ∧ g.k = f.k))).length = 1 →
      ∃ t, exec (.descSignal p chain i) s = .next t ∧ t = { s with parts := t.parts } ∧ (∀ q, q ≠ p → getPart t q = getPart s q) ∧
        ∃ g ∈ (getPart t p).firings, g = { f' with done := insN f.done i }) ∧
    (∀ m, s.descAt p chain i 5 c f d → s.quar = false → pdLen d ≤ 3968 → nearSpan s p 128 (pdSrc d) (pdLen d) off false →
      spanPoison s p 128 (pdSrc d) (pdLen d) = none → grpMembers s (pdPeer d) = [m] → choosePlane s m false = some pl →
      ∃ t, exec (.publish p chain i) s = .next t ∧ started t ∧ sent 1 t ∧ t.fab.outbox = s.fab.outbox ++
        [(pl, pkt m 4 0 0xFFFF 4 (0x3FF * 2 ^ 48) (128 + pdLen d)
          (pubHeader s f' d (rdBytes s.mem off (pdLen d)) ++ rdBytes s.mem off (pdLen d)))]) ∧
    (waits → descQuiet s (.pen p chain f.k i) = false → exec (.descriptorComplete p chain i) s = .next s) ∧
    (waits → descQuiet s (.pen p chain f.k i) = true →
      ∃ t, exec (.descriptorComplete p chain i) s = .next t ∧ t = { s with parts := t.parts } ∧
        getPart t p = (if c.ndesc ≤ f.done.length + 1 then { x with firings := [], fired := putS x.fired chain f.k }
                       else { x with firings := [{ f with done := insN f.done i }] }))

/-- A node combines a segment once every child's slot is complete, own contribution first, then the children in ascending index (R456): the
root writes the result to DST, another node sends it to its parent. A STALE group is rewritten by its POLICY (R463). Stated for regions
of the near tier and a segment of at most one packet. -/
def Obligations.SegmentsCombineAndGroupsReform : Prop :=
  ∀ (s : State) (p chain i g pl q : Nat) (f : Firing) (d : PenDesc) (at_ : Nat → Nat),
    let n := segLen d g
    let off := g * pdSeg d
    let kids := childrenOf s d g
    let places := (pdSrc d + off) :: kids.map (fun y => slotAt d (f.k % 2) y.1 + off)
    let word (a e : Nat) : W32 := rd32 s.mem (at_ a + 4 * e)
    let res (e : Nat) : W32 := (kids.map (fun y => word (slotAt d (f.k % 2) y.1 + off) e)).foldl (ropApply (pdRop d)) (word (pdSrc d + off) e)
    let ready := p < 32 ∧ chain < 4096 ∧ penRuns s p = true ∧ combinable s p chain i g = some (f, d) ∧ n ≤ 4096 ∧ n % 4 = 0 ∧
      (∀ a ∈ places, nearSpan s p 128 a n (at_ a) false ∧ spanPoison s p 128 a n = none)
    let v := relRank s d g
    let a := grpAt s q
    let ms := grpMembers s q
    (ready → v = 0 → nearSpan s p 128 (pdDst d + off) n (at_ (pdDst d + off)) true →
      ∃ t, exec (.segmentCombine p chain i g) s = .next t ∧ (∀ e < n / 4, rd32 t.mem (at_ (pdDst d + off) + 4 * e) = res e) ∧
        (∀ b, (b < at_ (pdDst d + off) ∨ at_ (pdDst d + off) + n ≤ b) → rdB t.mem b = rdB s.mem b) ∧
        ∀ y ∈ kids, getS (getPart t p).arrived (arrKey chain i (f.k % 2) y.1 g) = none) ∧
    (ready → 0 < v → 0 < n → s.quar = false → choosePlane s (grpMember s (pdGroup d) (absRank s d g ((v - 1) / pdArity d))) false = some pl →
      ∃ t, exec (.segmentCombine p chain i g) s = .next t ∧ t.mem = s.mem ∧ ∃ k, t.fab.outbox = s.fab.outbox ++ [(pl, k)] ∧
        k.dst = grpMember s (pdGroup d) (absRank s d g ((v - 1) / pdArity d)) ∧ k.op = 7 ∧ k.vc = 3 ∧
        k.addr = redAddr f.chain i ((v - 1) % pdArity d) (f.k % 2) false off ∧ ∀ e < n / 4, BitVec.ofNat 32 (ofBytes ((k.data.drop (4 * e)).take 4)) = res e) ∧
    (q < 64 → grpStale s q = false → exec (.groupReform q false) s = .next s) ∧
    (q < 64 → grpStale s q = true → grpShrinks s q = false → s.deaths = [] → s.mepoch < 65536 → ms.length = grpN s q →
      (∀ r < grpN s q, grpList s q + 2 * r + 2 ≤ a ∨ a + 32 ≤ grpList s q + 2 * r) → ms.findIdx? (fun m => decide (m = modId s)) = some (grpRank s q) →
      ∃ t, exec (.groupReform q false) s = .next t ∧ grpStale t q = false ∧ grpEpoch t q = s.mepoch ∧ grpN t q = grpN s q ∧
        grpRank t q = grpRank s q ∧ grpMembers t q = ms ∧ t = { s with mem := t.mem }) ∧
    (∀ dead e, q < 64 → grpStale s q = true → grpShrinks s q = true → s.deaths = [(e, dead, 0xFFFE)] → serialAfter e (grpEpoch s q) = true →
      dead ∈ ms → ms.Nodup → s.mepoch < 65536 →
      (∀ r < grpN s q, grpList s q + 2 * r + 2 ≤ a ∨ a + 32 ≤ grpList s q + 2 * r) →
      ∃ t, exec (.groupReform q false) s = .next t ∧ grpStale t q = false ∧ grpN t q = grpN s q - 1 ∧
        grpMembers t q = ms.filter (fun m => decide (m ≠ dead)))
/-! ### The host interface and the partitions (14) -/

/-- Doorbells, fetches and ring registers: every doorbell write is counted (R61); a producer count at most 2^CQ_LOG2 ahead of CMDQ_CONS and
a consumer count at most HRING_PROD are accepted, any other write is ignored and counted (R489); the room made takes a waiting STATUS
record, written to the ring with the count after it (R487, R488); the next entry of the function whose doorbell came first is fetched,
advances CMDQ_CONS and reaches the hub (R486); a new CMDQ_BASE or RINGS sets the counts to 0 and discards what was fetched (R490). -/
def Obligations.DoorbellsFetchesAndRings : Prop :=
  ∀ (s : State) (w : Writer) (v : W32) (fn off size k p : Nat) (viaPf : Bool) (e : W256) (r : List Byte),
    let pg := dbPage fn viaPf
    let c := fncPg fn
    let prod := hrProd s fn
    let base := pair s (c + Off.fncHringBaseLo)
    let fits := fn ≤ 0x200 ∧ size = 4 ∧ dbOn s fn = true
    let counted (t : State) := reg t (pg + Off.fncDbWrites) = w32 (satAdd 32 (reg s (pg + Off.fncDbWrites)).toNat 1)
    let item := HubItem.cmd fn e s.time
    (∀ row ∈ [Instr.cmdqDoorbell, Instr.hringDoorbell],
      (fits → dbTarget fn viaPf off = some 0 → regF s (c + Off.fncRings) 4 0 = k → 0 < k → (v - cqCons s fn).toNat ≤ 2 ^ k →
        ∃ t, exec (row fn viaPf off size v) s = .next t ∧ counted t ∧ getD t.cqProd fn 0 = v ∧ (fn ∈ t.cqOrder ↔ v ≠ cqCons s fn) ∧
          t = { s with regs := t.regs, cqProd := t.cqProd, cqOrder := t.cqOrder } ∧ cellsSame s t [pg + Off.fncDbWrites]) ∧
      (fits → dbTarget fn viaPf off = some 1 → hrLog s fn = k → 0 < k → (v - reg s (c + Off.fncHringCons)).toNat ≤ hrUsed s fn →
        (getD s.hrWait fn [] = [] →
          ∃ t, exec (row fn viaPf off size v) s = .next t ∧ counted t ∧ reg t (c + Off.fncHringCons) = v ∧ t.host = s.host ∧
            t = { s with regs := t.regs, hrWait := t.hrWait } ∧ cellsSame s t [pg + Off.fncDbWrites, c + Off.fncHringCons]) ∧
        (getD s.hrWait fn [] = [r] → r.length = 32 → (prod - v).toNat < 2 ^ k →
          ∃ t, exec (row fn viaPf off size v) s = .next t ∧ counted t ∧ hrProd t fn = prod + 1 ∧ getD t.hrWait fn [] = [] ∧
            rdBytes t.host (base + 32 * (prod.toNat % 2 ^ k)) 32 = r ∧ rdNat t.host (base + 32 * 2 ^ k) 4 = (prod + 1).toNat ∧
            (∀ a, (a < base + 32 * (prod.toNat % 2 ^ k) ∨ base + 32 * (prod.toNat % 2 ^ k) + 32 ≤ a) →
              (a < base + 32 * 2 ^ k ∨ base + 32 * 2 ^ k + 4 ≤ a) → rdB t.host a = rdB s.host a) ∧
            t.irqs = s.irqs ++ [(fn, if fn = 0x200 then 0 else 1)])) ∧
      (fn ≤ 0x200 → (size ≠ 4 ∨ dbTarget fn viaPf off = none ∨ dbOn s fn = false ∨ (dbTarget fn viaPf off = some 0 ∧ regF s (c + Off.fncRings) 4 0 = 0) ∨
          (dbTarget fn viaPf off = some 0 ∧ 2 ^ regF s (c + Off.fncRings) 4 0 < (v - cqCons s fn).toNat) ∨
          (dbTarget fn viaPf off = some 1 ∧ (hrLog s fn = 0 ∨ hrUsed s fn < (v - reg s (c + Off.fncHringCons)).toNat))) →
        ∃ t, exec (row fn viaPf off size v) s = .next t ∧ counted t ∧
          reg t (pg + Off.fncDbBad) = w32 (satAdd 32 (reg s (pg + Off.fncDbBad)).toNat 1) ∧ (pg ≠ pPci → bit (reg t (pg + Off.intStat)) 2 = true) ∧
          t = { s with regs := t.regs, irqs := t.irqs } ∧ cellsSame s t [pg + Off.fncDbWrites, pg + Off.fncDbBad, pg + Off.intStat])) ∧
    (fn ≤ 0x200 → s.cqOrder.head? = some fn → dbOn s fn = true → cqCons s fn ≠ cqProdOf s fn → itemPart s item = some p →
      ∃ t, exec (.commandFetch fn e) s = .next t ∧ cqCons t fn = cqCons s fn + 1 ∧ t.hub = s.hub ++ [item] ∧
        t.cqOrder = (if cqCons s fn + 1 = cqProdOf s fn then s.cqOrder.filter (· ≠ fn) else s.cqOrder) ∧
        t = { s with regs := t.regs, hub := t.hub, cqOrder := t.cqOrder } ∧ cellsSame s t [c + Off.fncCmdqCons]) ∧
    (fn ≤ 0x200 → (s.cqOrder.head? ≠ some fn ∨ dbOn s fn = false ∨ cqCons s fn = cqProdOf s fn) → exec (.commandFetch fn e) s = .next s) ∧
    (fn ≤ 0x200 → s.managed w c = true →
      (∃ t, exec (.ringBaseWrite w (c + Off.fncCmdqBaseLo) v) s = .next t ∧ cqCons t fn = 0 ∧ cqProdOf t fn = 0 ∧ fn ∉ t.cqOrder ∧
        t.hub = s.hub.filter (fun i => match i with | .cmd f _ _ => decide (f ≠ fn) | _ => true) ∧ hrProd t fn = prod ∧ t.host = s.host ∧
        pair t (c + Off.fncCmdqBaseLo) = v.toNat + 2 ^ 32 * (getD s.staged (c + Off.fncCmdqBaseLo) (reg s (c + Off.fncCmdqBaseLo + 4))).toNat) ∧
      (getD s.hrWait fn [] = [] → fld v 4 0 ≠ regF s (c + Off.fncRings) 4 0 → fld v 12 8 ≠ hrLog s fn →
        ∃ t, exec (.ringBaseWrite w (c + Off.fncRings) v) s = .next t ∧ cqCons t fn = 0 ∧ hrProd t fn = 0 ∧ reg t (c + Off.fncHringCons) = 0 ∧
          hrLog t fn = fld v 12 8 ∧ regF t (c + Off.fncRings) 4 0 = fld v 4 0 ∧ t.host = s.host))

/-- Functions: ENABLE is taken where NumVFs reaches the function and no slot range overlaps (R480, R482), fills its budgets (R285) and
gives it its page; it is kept while requests stand (R480). FLR stops the rings, returns SEED, bases and counts to reset and silences the
requests (R501), FLR_COMPLETE ends it. BAR4 reaches every assigned offset (R478), BAR2 a VALID allocation, WRITABLE for a write (R483,
R484); what is refused is counted, reads zeros and writes nothing. The memory is stated for unpoisoned lines. -/
def Obligations.FunctionsResetsAndApertures : Prop :=
  ∀ (s : State) (w : Writer) (v : W32) (n off len : Nat) (data : List Byte),
    let c := fncPg n
    let managed := n < 512 ∧ s.managed w c = true
    let on (t : State) := bit (reg t (c + Off.fncCfg)) 31
    let err (t : State) := reg t (c + Off.errCnt) = w32 (satAdd 32 (reg s (c + Off.errCnt)).toNat 1)
    let pend (t : State) := bit (reg t (c + Off.fncStat)) 31
    let a := regF s (pPci + Off.pciAperBase) 13 0 * 2 ^ 36 + off
    let inside (b m : Nat) := (b + m ≤ nearEnd ∨ (farBase ≤ b ∧ b + m ≤ farEnd)) ∧ ∀ i < m, poisoned s (b + i) 1 = none
    let outside (b m : Nat) := ∀ i < m, assignedOff (b + i) = false
    let wrote (t : State) (b : Nat) := t = { s with mem := t.mem, poison := t.poison, regs := t.regs } ∧ cellsKept s t 128 [] ∧
      ∀ x, rdB t.mem x = if b ≤ x ∧ x < b + data.length then data.getD (x - b) 0 else rdB s.mem x
    let entry := allocEntry s n (off / 0x10000000)
    let o := off % 0x10000000
    let b := gOff entry.1 + o
    let small := len ≤ 4096 ∧ data.length ≤ 4096 ∧ 0 < len ∧ 0 < data.length
    let pf := off < 68719476736 ∧ small
    let vf := n < 512 ∧ off < 17179869184 ∧ small
    let refused (t : State) (pgReg : Nat) := reg t pgReg = w32 (satAdd 32 (reg s pgReg).toNat 1) ∧ t = { s with regs := t.regs, resp := t.resp } ∧
      cellsSame s t [pgReg]
    (managed → bit v 31 = true → on s = false → n < numVfs s → slotsOverlap s n (reg s (c + Off.fncSlots)) = false →
      (∀ j < 64, ¬ inNextRecords s 1 (budAt s (4 * n) + j)) →
      ∃ t, exec (.functionEnable w n v) s = .next t ∧ on t = true ∧ regF t (c + Off.owner) 9 0 = n ∧
        (∀ k < 4, budBal t (4 * n + k) = budBurst s (4 * n + k)) ∧ t.reqs = s.reqs ∧ t.parts = s.parts ∧ t.streams = s.streams) ∧
    (managed → bit v 31 = true → on s = false → numVfs s ≤ n → ∃ t, exec (.functionEnable w n v) s = .next t ∧ on t = false ∧ err t) ∧
    (managed → bit v 31 = true → on s = false → n < numVfs s → slotsOverlap s n (reg s (c + Off.fncSlots)) = true →
      exec (.functionEnable w n v) s = .next (errInc s c)) ∧
    (managed → bit v 31 = false → on s = true → activeOf s n = 0 →
      ∃ t, exec (.functionDisable w n v) s = .next t ∧ on t = false ∧ regF t (c + Off.owner) 9 0 = 0x3FF ∧
        ledgerOnly s t 1 [c + Off.fncCfg, c + Off.owner, c + Off.intStat, c + Off.ledgerSeq]) ∧
    (managed → bit v 31 = false → on s = true → activeOf s n ≠ 0 → ∃ t, exec (.functionDisable w n v) s = .next t ∧ on t = true ∧ err t) ∧
    (n < 512 → pend s = false →
      ∃ t, exec (.flr n) s = .next t ∧ pend t = true ∧ (∀ o ∈ [Off.fncSeedLo, Off.fncCmdqBaseLo, Off.fncHringBaseLo], pair t (c + o) = 0) ∧
        (∀ o ∈ [Off.fncRings, Off.fncCmdqCons, Off.fncHringProd, Off.fncHringCons], reg t (c + o) = 0) ∧ getD t.hrWait n [] = [] ∧
        n ∉ t.cqOrder ∧ dbOn t n = false ∧ t.mem = s.mem ∧ t.parts = s.parts ∧ t.host = s.host ∧ reg t (c + Off.fncCfg) = reg s (c + Off.fncCfg) ∧
        t.hub = s.hub.filter (fun i => match i with | .cmd f _ _ => decide (f ≠ n) | _ => true) ∧
        t.reqs = s.reqs.map (fun e => if e.2.func = n ∧ e.2.st ≠ stFree then (e.1, { e.2 with mute := true }) else e)) ∧
    (n < 512 → pend s = true → exec (.flr n) s = .next s) ∧
    (n < 512 → pend s = true → ∃ t, exec (.flrComplete n) s = .next t ∧ pend t = false ∧ bit (reg t (c + Off.intStat)) 0 = true ∧
      t = { s with regs := t.regs, irqs := t.irqs } ∧ cellsSame s t [c + Off.fncStat, c + Off.intStat]) ∧
    (pf → inside a len → ∃ t, exec (.apertureAccess off false len data) s = .next t ∧ t.resp = rdBytes s.mem a len ∧
      t = { s with resp := t.resp, freeCtr := t.freeCtr }) ∧
    (pf → inside a data.length → ∃ t, exec (.apertureAccess off true len data) s = .next t ∧ wrote t a) ∧
    (pf → outside a len → ∃ t, exec (.apertureAccess off false len data) s = .next t ∧ t.resp = List.replicate len 0 ∧
      reg t (pPci + Off.pciAperErr) = w32 (satAdd 32 (reg s (pPci + Off.pciAperErr)).toNat 1) ∧ t.mem = s.mem) ∧
    (pf → outside a data.length → ∃ t, exec (.apertureAccess off true len data) s = .next t ∧ refused t (pPci + Off.pciAperErr)) ∧
    (vf → entry.2.2 % 2 = 1 → o + len ≤ entry.2.1 → inside b len →
      ∃ t, exec (.vfApertureAccess n off false len data) s = .next t ∧ t.resp = rdBytes s.mem b len ∧ t = { s with resp := t.resp, freeCtr := t.freeCtr }) ∧
    (vf → entry.2.2 % 4 = 3 → o + data.length ≤ entry.2.1 → inside b data.length →
      ∃ t, exec (.vfApertureAccess n off true len data) s = .next t ∧ wrote t b) ∧
    (vf → (entry.2.2 % 2 = 0 ∨ entry.2.1 < o + len) →
      ∃ t, exec (.vfApertureAccess n off false len data) s = .next t ∧ refused t (c + Off.fncAperErr) ∧ t.resp = List.replicate len 0) ∧
    (vf → (entry.2.2 % 4 ≠ 3 ∨ entry.2.1 < o + data.length) →
      ∃ t, exec (.vfApertureAccess n off true len data) s = .next t ∧ refused t (c + Off.fncAperErr) ∧ t.resp = s.resp)

/-- Partition commands, at a write of GO (R494): BUSY ignores another; CREATE takes free hamlets and pseudo-channels and becomes their owner
(R495), and reports the first check that fails (R659); LOAD_IMAGE registers a checked image of a shared generator, which is then RUNNING
(R497); DESTROY is BUSY until the boundary and then leaves zeroed channels and a FREE partition (R499); RESET empties a running partition
at once and reloads its image, without touching memory or requests (R503). `g` is the state after the ledger record of the write;
CREATE is stated without spill slots, RESET for no step in flight and no learner commit held. -/
def Obligations.PartitionCommandsRun : Prop :=
  ∀ (s : State) (w : Writer) (v : W32) (p i op : Nat) (im : Image),
    let c := prtPg p
    let g := (writePlain w (c + Off.prtGo) v s).st
    let x := getPart s p
    let goes (o : Nat) := p < 32 ∧ s.managed w c = true ∧ bit v 0 = true ∧ regF s (c + Off.prtCmd) 31 24 = o ∧ x.cmd = 0
    let row (o : Nat) : Option (Writer → Nat → W32 → Instr) :=
      match o with | 1 => some .create | 2 => some .destroy | 3 => some .loadImage | 4 => some .reset | _ => none
    let ended (t : State) (r : Nat) := reg t (c + Off.prtCmdStat) = w32 r ∧ bit (reg t (c + Off.intStat)) 0 = true ∧ (getPart t p).cmd = 0
    let nothing (t : State) := t = { g with regs := t.regs, irqs := t.irqs, parts := t.parts } ∧ getPart t p = x ∧
      (∀ q, q ≠ p → getPart t q = getPart s q) ∧ cellsSame g t [c + Off.prtCmdStat, c + Off.intStat]
    let hams := askHams g p
    let pcs := askPcs g p
    let ways := reg g (c + Off.prtWays)
    let created := x.st = .free ∧ askSpill g p = 0 ∧ (askLearner g p = true ∨ askPool g p ≠ 3)
    let base := gOff (pair g (c + Off.prtImgBaseLo))
    let um := tableOff s (pFtm0 + Off.ftmUmapBaseLo)
    (∀ r, row op = some r → p < 32 → s.managed w c = true → bit v 0 = true → regF s (c + Off.prtCmd) 31 24 = op → x.cmd ≠ 0 →
      ∃ t, exec (r w p v) s = .next t ∧ reg t (c + Off.errCnt) = w32 (satAdd 32 (reg s (c + Off.errCnt)).toNat 1) ∧ t.parts = s.parts ∧
        ledgerOnly s t 1 [c + Off.errCnt, c + Off.intStat, c + Off.ledgerSeq]) ∧
    (goes 1 → created → hams ≠ [] → (∀ h ∈ hams, hamFree g h = true) → (∀ n ∈ pcs, pcFree g n = true) → ways ≠ 0 → reqNames g p = false →
      ∃ t, exec (.create w p v) s = .next t ∧ ended t 0 ∧ t.mem = g.mem ∧ (∀ q, q ≠ p → getPart t q = getPart s q) ∧
        (let y := getPart t p
         y.st = .created ∧ y.learner = askLearner g p ∧ y.exclusive = askExcl g p ∧ y.hams = hams ∧ y.pcs = pcs ∧ y.ways = ways ∧
           y.spillSlots = 0 ∧ y.images = [] ∧ y.resident = none ∧ y.inStep = false) ∧
        (∀ h ∈ hams, (getHam t h).part = some p ∧ reg t (hstPg h + Off.hstWays) = ways ∧ ∀ b ∈ hamPages h, regF t (b + Off.owner) 15 10 = 32 + p) ∧
        (∀ n ∈ pcs, pcOwner t n = some p)) ∧
    (goes 1 → ∀ r, r = (if x.st ≠ .free then 1 else if 4 < askSpill g p ∨ (askLearner g p = false ∧ askPool g p = 3) ∨
          (askSpill g p ≠ 0 ∧ (askLearner g p = true ∨ askExcl g p = true)) then 8
        else if hams = [] ∨ ∃ h ∈ hams, hamFree g h = false then 2 else if ∃ n ∈ pcs, pcFree g n = false then 3 else if ways = 0 then 4
        else if reqNames g p = true then 5 else 0) → r ≠ 0 →
      ∃ t, exec (.create w p v) s = .next t ∧ ended t r ∧ nothing t) ∧
    (goes 3 → multiImage x = true → (x.st = .created ∨ x.st = .running) → i = regF s (c + Off.prtCmd) 2 0 → x.resident ≠ some i → x.switchTo ≠ some i →
      spillSlotOf x i = none → imageOk g p base = true → imgInside g p base = true → base % 256 = 0 →
      ∃ t, exec (.loadImage w p v) s = .next t ∧ ended t 0 ∧ t.mem = g.mem ∧ (∀ q, q ≠ p → getPart t q = getPart s q) ∧
        getPart t p = { x with images := putS x.images i ⟨base, u64 g (base + 0x18)⟩, st := .running }) ∧
    (goes 3 → multiImage x = true → (x.st = .created ∨ x.st = .running) → i = regF s (c + Off.prtCmd) 2 0 →
      (x.resident = some i ∨ (spillSlotOf x i).isSome = true) → ∃ t, exec (.loadImage w p v) s = .next t ∧ ended t 1 ∧ nothing t) ∧
    (goes 2 → (x.st = .created ∨ x.st = .running) → reqNames g p = false →
      ∃ t, exec (.destroy w p v) s = .next t ∧ reg t (c + Off.prtCmdStat) = 0x80000000 ∧ getPart t p = { x with cmd := 2, cmdImg := 0 } ∧
        (∀ q, q ≠ p → getPart t q = getPart s q) ∧ t.mem = g.mem) ∧
    (goes 2 → (x.st = .created ∨ x.st = .running) → reqNames g p = true → ∃ t, exec (.destroy w p v) s = .next t ∧ ended t 5 ∧ nothing t) ∧
    (p < 32 → x.cmd = 2 → x.inStep = false → x.placing = false → x.commitWait = false →
      ∃ t, exec (.destroyProceed p) s = .next t ∧ ended t 0 ∧ (getPart t p).st = .free ∧ (getPart t p).hams = [] ∧
        (∀ n < 512, bit (reg t (fncPg n + Off.fncPmask)) p = false) ∧ (∀ n ∈ x.pcs, n < 256 → pcOwner t n = none) ∧
        (∀ h ∈ x.hams, (getHam t h).part = none ∧ (getHam t h).store = []) ∧
        (∀ n ∈ x.pcs, ∀ a, n * pcBytes ≤ a → a < (n + 1) * pcBytes → (a < um ∨ um + 8 * 2 ^ 21 ≤ a) → rdB t.mem a = 0)) ∧
    (p < 32 → (x.cmd ≠ 2 ∨ x.inStep = true ∨ x.placing = true ∨ x.commitWait = true) → exec (.destroyProceed p) s = .next s) ∧
    (goes 4 → x.st = .running → x.inStep = false → x.commitWait = false → s.cperOff →
      (x.resident = none → x.placing = false →
        ∃ t, exec (.reset w p v) s = .next t ∧ ended t 0 ∧ bit (reg t (c + Off.intStat)) 1 = true ∧ (getPart t p).st = .running ∧
          t.mem = g.mem ∧ t.reqs = s.reqs ∧ (getPart t p).spills = [] ∧ (getPart t p).pctr = [] ∧
          ∀ h ∈ x.hams, (getHam t h).cart = none ∧ (getHam t h).cartQ = [] ∧ (getHam t h).atsQ = [] ∧ (getHam t h).updQ = [] ∧
            ∀ k < 64, (getTile t (h * 64 + k)).spad = []) ∧
      (x.resident = some i → getS x.images i = some im →
        ∃ t, exec (.reset w p v) s = .next t ∧ reg t (c + Off.prtCmdStat) = 0x80000000 ∧ t.mem = g.mem ∧ t.reqs = s.reqs ∧
          (let y := getPart t p
           y.st = .resetting ∧ y.placing = true ∧ y.resident = some i ∧ y.step = 0 ∧ y.spills = [] ∧ y.cmd = 4))) ∧
    (goes 4 → x.st ≠ .running → ∃ t, exec (.reset w p v) s = .next t ∧ ended t 1 ∧ nothing t)
/-! ### Clock islands, power and temperature (15) -/

/-- Frequencies, clamps and stretching: a FREQ that leaves a setpoint more than 200 mV from a neighbour's is refused, one island or all 18
(R509); a boundary outside 3:1, 200 mV and 30 °C clamps, counted for its faster island (R510, R512); the controller lowers that island by
100 MHz until the pair is within 2.5:1, 160 mV and 25 °C (R513); droop stretches the clock to 7/8, 3/4 or 1/2 at once and counts the entry,
and releases one level at a time (R515, R516); an escalation lowers the operating point, with its neighbours where R509 asks for it
(R517); a clear island rises by 100 MHz (R518). -/
def Obligations.ClocksClampStretchAndEscalate : Prop :=
  ∀ (s : State) (w : Writer) (v : W32) (h i mvA mvB mv p : Nat) (tA tB : Int),
    let page := islPg h
    let k := h * 18 + i
    let set (t : State) (j : Nat) := islSet t h j
    let step := fld v 6 0
    let near (a b : Nat) := absDiff (vfAt s a) (vfAt s b) ≤ 200
    let x := getIsl s h i
    let unit := h < 128 ∧ i < 18
    let freq (idx : Nat) := h < 128 ∧ s.managed w page = true ∧ regF s (page + Off.islIdx) 4 0 = idx
    let others (t : State) := ∀ l, l ≠ k → getD t.isl l Island.init = getD s.isl l Island.init
    let refused (t : State) := (∀ j < 18, set t j = set s j) ∧ reg t (page + Off.errCnt) = w32 (satAdd 32 (reg s (page + Off.errCnt)).toNat 1)
    let ca := islClk8 s h i
    let cb := if i = 17 then 12800 else islClk8 s h 17
    let ratio (a b : Nat) := b * max ca cb ≤ a * min ca cb
    let within (a b mvs : Nat) (c : Int) := ratio a b ∧ absDiff mvA mvB ≤ mvs ∧ tA - tB ≤ c ∧ tB - tA ≤ c
    let sampled := unit ∧ hamletOn s h = true ∧ -128 ≤ tA ∧ tA < 128 ∧ -128 ≤ tB ∧ tB < 128
    let lowered (t : State) (j : Nat) := (getIsl t h j).low = some (islEff s h j - 4)
    let down (j : Nat) : Nat := if j = i then islEff s h i - 4 else islEff s h j
    let kept (t : State) := t = { s with isl := t.isl, regs := t.regs, irqs := t.irqs, hotNs := t.hotNs }
    let count (o : Nat) (t : State) (n : Nat) := regAt t (page + o) i = w32 (satAdd 32 (regAt s (page + o) i).toNat n)
    let level := let d := regAt s (page + Off.islDroop) i
      if fld d 23 16 < mv then 3 else if fld d 15 8 < mv then 2 else if fld d 7 0 < mv then 1 else 0
    (freq i → i < 17 → step ≤ 64 → near step (set s 17) →
      ∃ t, exec (.islFreqWrite w page v) s = .next t ∧ set t i = step ∧ (∀ j < 18, j ≠ i → set t j = set s j) ∧
        ledgerOnly s t 1 [page + Off.islFreq + 2 ^ 29 * i, page + Off.ledgerSeq]) ∧
    (freq 17 → step ≤ 64 → near step 32 → (∀ j < 17, near (set s j) step) →
      ∃ t, exec (.islFreqWrite w page v) s = .next t ∧ set t 17 = step ∧ ∀ j < 17, set t j = set s j) ∧
    (freq 31 → step ≤ 64 → near step 32 → ∃ t, exec (.islFreqWrite w page v) s = .next t ∧ ∀ j < 18, set t j = step) ∧
    (freq i → i < 17 → (64 < step ∨ ¬ near step (set s 17)) → ∃ t, exec (.islFreqWrite w page v) s = .next t ∧ refused t) ∧
    (freq 31 → (64 < step ∨ ¬ near step 32) → ∃ t, exec (.islFreqWrite w page v) s = .next t ∧ refused t) ∧
    (sampled → k ∉ s.clamps → within 3 1 200 30 → ∃ t, exec (.boundaryEvaluate h i mvA mvB tA tB) s = .next t ∧ kept t) ∧
    (sampled → k ∉ s.clamps → ¬ within 3 1 200 30 →
      ∃ t, exec (.boundaryEvaluate h i mvA mvB tA tB) s = .next t ∧ t.clamps = insN s.clamps k ∧ bit (reg t (page + Off.intStat)) 0 = true ∧
        (i < 17 → let j := if ca < cb then 17 else i
         regAt t (page + Off.islClampCnt) j = w32 (satAdd 32 (regAt s (page + Off.islClampCnt) j).toNat 1)) ∧
        t = { s with isl := t.isl, regs := t.regs, irqs := t.irqs, hotNs := t.hotNs, clamps := t.clamps }) ∧
    (∀ row ∈ [Instr.boundaryEvaluate, Instr.clampLower], sampled → k ∈ s.clamps → within 5 2 160 25 →
      ∃ t, exec (row h i mvA mvB tA tB) s = .next t ∧ (∀ l, l ∈ t.clamps ↔ l ∈ s.clamps ∧ l ≠ k) ∧ ∀ j, (getIsl t h j).low = (getIsl s h j).low) ∧
    (sampled → k ∈ s.clamps → ¬ within 5 2 160 25 →
      (∃ t, exec (.boundaryEvaluate h i mvA mvB tA tB) s = .next t ∧ kept t) ∧
      ∃ t, exec (.clampLower h i mvA mvB tA tB) s = .next t ∧ kept t ∧
        (¬ ratio 5 2 → cb ≤ ca → lowered t i) ∧ (¬ ratio 5 2 → ca < cb → i < 17 → lowered t 17) ∧
        (ratio 5 2 → 160 < absDiff mvA mvB → mvB ≤ mvA → lowered t i) ∧ (ratio 5 2 → absDiff mvA mvB ≤ 160 → tB ≤ tA → lowered t i)) ∧
    (sampled → k ∉ s.clamps → exec (.clampLower h i mvA mvB tA tB) s = .next s) ∧
    (unit → hamletOn s h = true → x.stretch < level →
      ∃ t, exec (.droopCross h i mv) s = .next t ∧ getIsl t h i = { x with stretch := level } ∧ others t ∧ kept t ∧
        islClk8 t h i = mhz (islEff s h i) * (if level = 1 then 7 else if level = 2 then 6 else 4) ∧
        count Off.islStretchCnt t (if x.stretch = 0 then 1 else 0)) ∧
    (unit → level ≤ x.stretch → exec (.droopCross h i mv) s = .next s) ∧
    (unit → x.stretch = p + 1 → ∃ t, exec (.stretchRelease h i) s = .next t ∧ getIsl t h i = { x with stretch := p, escal := x.escal && decide (0 < p) } ∧
      others t ∧ t = { s with isl := t.isl }) ∧
    (unit → x.stretch = 0 → exec (.stretchRelease h i) s = .next s ∧ exec (.escalation h i) s = .next s ∧ exec (.escalationLower h i) s = .next s) ∧
    (unit → x.stretch ≠ 0 → x.escal = false →
      ∃ t, exec (.escalation h i) s = .next t ∧ (getIsl t h i).escal = true ∧ bit (reg t (page + Off.intStat)) 1 = true ∧ count Off.islEscalCnt t 1 ∧
        lowered t i ∧ (if setpointsOk s down i = true then others t else ∀ j < 18, lowered t j) ∧ kept t) ∧
    (unit → x.stretch ≠ 0 → x.escal = true →
      ∃ t, exec (.escalationLower h i) s = .next t ∧ lowered t i ∧ (if setpointsOk s down i = true then others t else ∀ j < 18, lowered t j) ∧
        t = { s with isl := t.isl }) ∧
    (unit → x.low = some p → x.stretch = 0 → x.hot = false → islClamped s h i = false → bit (reg s (pPwr + Off.pwrStat)) 28 = false →
      ∃ t, exec (.islandRestore h i) s = .next t ∧ (getIsl t h i).low = (if set s i ≤ p + 4 then none else some (p + 4)) ∧ others t ∧
        t = { s with isl := t.isl, regs := t.regs }) ∧
    (unit → (x.low = none ∨ x.stretch ≠ 0 ∨ islClamped s h i = true) → exec (.islandRestore h i) s = .next s)

/-- Power and temperature: PWR.INPUT holds the average of the samples; above the cap every island goes down one cap step of 1/64 of its
setting, below 95 % of it one up (R519); at the floor OVER is set instead (R521); a junction above TJ_MAX lowers its island at each
control step, counted per episode, until it is below TJ_MAX − 3 °C (R520); 110 °C trips the module (R522); a reference lost and back
(R507). Stated for a cap step and a trip with the CPER ring off. -/
def Obligations.PowerCapsAndTemperatures : Prop :=
  ∀ (s : State) (h i watts mv b : Nat) (temp : Int),
    let st (t : State) (j : Nat) := bit (reg t (pPwr + Off.pwrStat)) j
    let steps (t : State) := regF t (pPwr + Off.pwrStat) 6 0
    let k := steps s
    let k' := min 64 (k + 1)
    let avg := regF s (pPwr + Off.pwrInput) 31 16
    let cap := min 3600 (max 1600 (regF s (pPwr + Off.pwrCap) 11 0))
    let x := getIsl s h i
    let m : Int := tjMax s
    let unit := h < 128 ∧ i < 18 ∧ hamletOn s h = true ∧ -128 ≤ temp ∧ temp < 128
    let lowered (t : State) := (getIsl t h i).low = some (islEff s h i - 4)
    let therm (t : State) (n : Nat) := reg t (pPwr + Off.pwrThermCnt) = w32 (satAdd 32 (reg s (pPwr + Off.pwrThermCnt)).toNat n) ∧
      islTemp t h i = temp ∧ t = { s with isl := t.isl, regs := t.regs, irqs := t.irqs, hotNs := t.hotNs }
    let head (t : State) (n : Nat) := pair t (pBbr + Off.bbrHeadLo) = (pair s (pBbr + Off.bbrHeadLo) + n) % 2 ^ 64
    let ref (t : State) := bit (reg t (pClk + Off.clkStat)) (31 - b)
    let l := (watts :: s.power).take 100
    (∃ t, exec (.powerSample watts mv) s = .next t ∧ t.power = l ∧ regF t (pPwr + Off.pwrInput) 31 16 = min 65535 (l.sum / l.length) ∧
      regF t (pPwr + Off.pwrInput) 15 0 = min 65535 mv ∧ t = { s with power := l, regs := t.regs } ∧ cellsSame s t [pPwr + Off.pwrInput]) ∧
    (cap < avg → atFloor s = false → ∃ t, exec .capStep s = .next t ∧ steps t = k' ∧ st t 31 = true ∧ st t 30 = false ∧
      (k = 0 → reg t (pPwr + Off.pwrCapCnt) = w32 (satAdd 32 (reg s (pPwr + Off.pwrCapCnt)).toNat 1) ∧ bit (reg t (pPwr + Off.intStat)) 0 = true) ∧
      (∀ h i, st s 28 = false → (getIsl s h i).low = none → islEff t h i = (mhz (islSet s h i) * (64 - k') / 64 - 800) / 25) ∧
      t = { s with regs := t.regs, irqs := t.irqs }) ∧
    (cap < avg → atFloor s = true → st s 30 = false → s.cperOff → ∃ t, exec .capStep s = .next t ∧ steps t = k ∧ st t 30 = true ∧
      bit (reg t (pPwr + Off.intStat)) 1 = true ∧ head t 1 ∧ t.mem = s.mem ∧ t.isl = s.isl) ∧
    (avg ≤ cap → ∃ t, exec .capStep s = .next t ∧ steps t = (if 100 * avg < 95 * cap then k - 1 else k) ∧ st t 30 = false ∧
      t = { s with regs := t.regs }) ∧
    (unit → x.hot = false → m < temp → ∃ t, exec (.thermalLower h i temp) s = .next t ∧ lowered t ∧ (getIsl t h i).hot = true ∧ therm t 1 ∧
      bit (reg t (islPg h + Off.intStat)) 2 = true ∧ st t 29 = true ∧ (st s 29 = false → bit (reg t (pPwr + Off.intStat)) 2 = true)) ∧
    (unit → x.hot = true → m - 3 ≤ temp → ∃ t, exec (.thermalLower h i temp) s = .next t ∧ lowered t ∧ (getIsl t h i).hot = true ∧ therm t 0) ∧
    (unit → x.hot = true → temp < m - 3 → ∃ t, exec (.thermalLower h i temp) s = .next t ∧ (getIsl t h i).hot = false ∧
      (getIsl t h i).low = x.low ∧ therm t 0) ∧
    (unit → x.hot = false → temp ≤ m → ∃ t, exec (.thermalLower h i temp) s = .next t ∧ (getIsl t h i).low = x.low ∧
      (getIsl t h i).hot = false ∧ therm t 0) ∧
    (unit → 110 ≤ temp → s.dark = false → s.cperOff → ∃ t, exec (.thermalTrip h i temp) s = .next t ∧ t.dark = true ∧ t.tripped = true ∧ head t 1 ∧
      islTemp t h i = temp ∧ t.mem = s.mem ∧ t.parts = s.parts) ∧
    (unit → temp < 110 → exec (.thermalTrip h i temp) s = .next s) ∧
    (b < 2 → ref s = true → ∃ t, exec (.refLoss b) s = .next t ∧ ref t = false ∧
      reg t (pClk + Off.clkRefLoss) = w32 (satAdd 32 (reg s (pClk + Off.clkRefLoss)).toNat 1) ∧ bit (reg t (pClk + Off.intStat)) 0 = true ∧
      t = { s with regs := t.regs, irqs := t.irqs } ∧ cellsSame s t [pClk + Off.clkStat, pClk + Off.clkRefLoss, pClk + Off.intStat]) ∧
    (b < 2 → ref s = false → exec (.refLoss b) s = .next s) ∧
    (b < 2 → ∃ t, exec (.referenceClockReturn b) s = .next t ∧ ref t = true ∧ t = { s with regs := t.regs } ∧ cellsSame s t [pClk + Off.clkStat])
/-! ### Resets, boot and attestation (16), and the pins that reset the module (20) -/

/-- Resets (R525): a cold one empties memory, requests and partitions, unassigns ID and epoch, starts a ledger segment and keeps MRAM's
retirements and the loft's whole objects; it comes from power-on, BOOT.RESET, a thermal trip, an auxiliary loss (R636), VIN_48 back (R635)
and a withdrawn swap (R645). A warm one keeps memory, time and the ledger, frees every partition and request, and is absorbed by a cold
boot (R528); a hamlet reset returns a free hamlet's pages to reset, but OWNER (R525, R527). READY follows stage 7 (R535). A swap
request and a low VIN_48 power the module down (R635, R645). That memory reads 0 after a cold reset is a choice (log entry 6). -/
def Obligations.ResetsAndPower : Prop :=
  ∀ (s : State) (w : Writer) (v : W32) (b : BootOutcome) (h : Nat),
    let last (t : State) := reg t (pBoot + Off.bootLastReset)
    let cold (t : State) (cause : Nat) := last t = w32 (cause * 2 ^ 24) ∧ t.mem = [] ∧ t.reqs = [] ∧ t.parts = [] ∧ t.time = 0 ∧ t.quar = false ∧
      t.mepoch = 0 ∧ modId t = 0xFFFE ∧ mbrState t = 0 ∧ bit (reg t (pBoot + Off.bootStat)) 31 = false ∧ t.pending = s.pending ∧
      t.loft = s.loft.filter (fun e => decide (e.2.st ≠ 1)) ∧ (∀ n < 512, reg t (fncPg n + Off.fncCfg) = 0) ∧ t.ledger.first % 4096 = 0 ∧
      pair t (pLdg + Off.ldgHeadSeqLo) = (t.ledger.first + (2 ^ 64 - 1)) % 2 ^ 64 ∧ pair t (pLdg + Off.ldgAckSeqLo) = pair t (pLdg + Off.ldgHeadSeqLo) ∧
      (keysUp s.hams = true → ∀ k, (getHam t k).retired = (getHam s k).retired) ∧ t.tray = b.tray
    let warm (t : State) (cause : Nat) := last t = w32 (2 ^ 29 + cause * 2 ^ 24 + min 65535 (fld (last s) 15 0 + 1)) ∧ t.time = s.time ∧
      t.reqs = [] ∧ t.parts = [] ∧ t.loft = s.loft ∧ t.quar = s.quar ∧ (∀ n < 512, reg t (fncPg n + Off.fncCfg) = 0) ∧
      bit (reg t (pBoot + Off.bootStat)) 31 = false ∧ t.ledger.first = s.ledger.first
    let kept (t : State) := t.mem = s.mem ∧ pair t (pLdg + Off.ldgHeadSeqLo) = pair s (pLdg + Off.ldgHeadSeqLo)
    let goes (kind : Nat) := s.managed w pBoot = true ∧ bit v 31 = true ∧ fld v 9 8 = kind
    let fold := hamPgOf h + Off.hamFold
    (b.wf = true →
      (∃ t, exec (.coldReset .power b) s = .next t ∧ cold t 0) ∧
      (s.tripped = true → ∃ t, exec (.coldReset .thermal b) s = .next t ∧ cold t 4) ∧
      (goes 0 → ∃ t, exec (.coldReset (.write w v) b) s = .next t ∧ cold t 2) ∧
      (∃ t, exec (.auxLoss b) s = .next t ∧ cold t 1) ∧
      (s.vinLow = true → ∃ t, exec (.vinRestore b) s = .next t ∧ cold t 0 ∧ t.vinLow = false) ∧
      (s.swapReq = true → ∃ t, exec (.swapCancel b) s = .next t ∧ cold t 0 ∧ t.swapReq = false ∧ t.swapOk = false) ∧
      (coldBooting s = true → ∀ i ∈ [Instr.warmReset .pcie b, .perst b], exec i s = .next s) ∧
      (coldBooting s = false → s.swapReq = false → s.ledger.staging = [] → keysUp s.regs = true →
        (∀ i ∈ [Instr.warmReset .pcie b, .perst b], ∃ t, exec i s = .next t ∧ warm t 3 ∧ kept t) ∧
        (goes 1 → ∃ t, exec (.warmReset (.write w v) b) s = .next t ∧ warm t 2))) ∧
    (goes 2 → h = fld v 6 0 → hamletOn s h = true → (getHam s h).part = none →
      ∃ t, exec (.hamletReset w v) s = .next t ∧
        (∀ a, hamPg h 0 ≤ a → a < hamPg h 0 + 0x40000 → a % 4096 ≠ Off.owner → a ≠ fold → reg t a = resetOf a) ∧
        (∀ q < 17, reg t (tilPg h q + Off.owner) = reg s (tilPg h q + Off.owner)) ∧ (∀ l < 16, getStr t h l = Stream.init) ∧
        (∀ k < 64, getTile t (h * 64 + k) = Tile.init) ∧ (getHam t h).store = [] ∧ (getHam t h).tstate = (getHam s h).tstate ∧
        (∀ k l, k ≠ h → l < 16 → getStr t k l = getStr s k l) ∧ t.parts = s.parts ∧ t.reqs = s.reqs) ∧
    (goes 2 → h = fld v 6 0 → (hamletOn s h = false ∨ (getHam s h).part ≠ none) → exec (.hamletReset w v) s = .next (errInc s pBoot)) ∧
    (bit (reg s (pBoot + Off.bootStat)) 31 = false → bit (reg s (pBoot + Off.bootStat)) 30 = false → s.dark = false →
      ∃ t, exec .bootReady s = .next t ∧ bit (reg t (pBoot + Off.bootStat)) 31 = true ∧ regF t (pBoot + Off.bootStat) 27 24 = 7 ∧
        bit (reg t (pBoot + Off.intStat)) 2 = true ∧ t.ledger.named = true ∧ t.ledger.ringUp = true ∧
        pair t (pBbr + Off.bbrHeadLo) = (pair s (pBbr + Off.bbrHeadLo) + 1) % 2 ^ 64) ∧
    ((bit (reg s (pBoot + Off.bootStat)) 31 = true ∨ bit (reg s (pBoot + Off.bootStat)) 30 = true ∨ s.dark = true) →
      exec .bootReady s = .next s) ∧
    (exec .vinLow s = .next { s with dark := true, mem := [], poison := [], ledger := { s.ledger with ringUp := false }, vinLow := true }) ∧
    (mbrState s ≠ 2 → s.swapOk = false → exec .swapRequest s =
      .next { s with dark := true, mem := [], poison := [], ledger := { s.ledger with ringUp := false }, swapReq := true, swapOk := true }) ∧
    (mbrState s = 2 → exec .swapRequest s = .next { s with swapReq := true })

/-- Firmware and owner commands: SVN_COMMIT raises each fused minimum (R532); a live switch starts when its two components pass, else
records why in BOOT.FAIL (R543), ends with new slots, DCL and LIVE_BANK once every hamlet has changed (R544), or goes back where a reeve
does not start (R545); EXT_GO extends an owner's slot (R542); enrolments and revocations are fused once each (R531). -/
def Obligations.FirmwareSwitchesAndOwnerKeys : Prop :=
  ∀ (s : State) (w : Writer) (v : W32) (l : LiveSw) (h c : Nat),
    let boot := s.managed w pBoot = true ∧ bit v 0 = true
    let att := s.managed w pAtt = true ∧ bit v 31 = true
    let bank := 1 - regF s (pBoot + Off.bootStat) 22 22
    let stat (t : State) (i : Nat) := bit (reg t (pBoot + Off.bootStat)) i
    let failWith (t : State) (word : W32) := reg t (pBoot + Off.bootFail) = word ∧ bit (reg t (pBoot + Off.intStat)) 0 = true ∧
      pair t (pBbr + Off.bbrHeadLo) = (pair s (pBbr + Off.bbrHeadLo) + 1) % 2 ^ 64
    let noFail := bit (reg s (pBoot + Off.bootFail)) 31 = false
    let key := fld v 0 0
    let frame (t : State) (a : Nat) := t.fw = s.fw ∧ t.live = s.live ∧ ledgerOnly { s with meas := t.meas, ownKeys := t.ownKeys, ownRev := t.ownRev } t 1 [a, pAtt + Off.ledgerSeq]
    (boot → ∃ t, exec (.svnCommit w v) s = .next t ∧
      (∀ i < 5, reg t (pAtt + Off.attSvn + 4 * i) = w32 (max (reg s (pAtt + Off.attSvn + 4 * i)).toNat (fwOf s (i + 1)).2.1)) ∧
      ledgerOnly s t 1 ((List.range 5).map (fun i => pAtt + Off.attSvn + 4 * i) ++ [pBoot + Off.ledgerSeq])) ∧
    (boot → s.live = none → ∃ t, exec (.liveSwitch w v) s = .next t ∧ t.fw = s.fw ∧ t.meas = s.meas ∧
      (compCheck s bank 3 = none → compCheck s bank 4 = none → stat t 21 = true ∧
        t.live = some ⟨bank, (liveHams s).filter (fun h => (getHam s h).part.isNone), false, compHdr s bank 3, compHdr s bank 4⟩) ∧
      (compCheck s bank 3 = some c → noFail → t.live = none ∧ stat t 21 = stat s 21 ∧ failWith t (failWord c 5 3 bank 0)) ∧
      (compCheck s bank 3 = none → compCheck s bank 4 = some c → noFail → t.live = none ∧ failWith t (failWord c 6 4 bank 0))) ∧
    (boot → s.live = some l → ∃ t, exec (.liveSwitch w v) s = .next t ∧ t.live = some l ∧ t.meas = s.meas ∧
      reg t (pBoot + Off.errCnt) = w32 (satAdd 32 (reg s (pBoot + Off.errCnt)).toNat 1)) ∧
    (s.live = some l → l.back = false → l.bank < 2 → (∀ k ∈ liveHams s, k ∈ l.changed) →
      ∃ t, exec (.liveSwitchComplete none) s = .next t ∧ t.live = none ∧ stat t 21 = false ∧ regF t (pBoot + Off.bootStat) 22 22 = l.bank ∧
        measSlot t 4 = sha384 l.reeve ∧ measSlot t 5 = sha384 l.orch ∧ reg t (pMod + Off.modDcl) = w32 (hdrN l.reeve 0x10 4) ∧
        bit (reg t (pBoot + Off.intStat)) 1 = true ∧ (∀ n, n ≠ 4 → n ≠ 5 → measSlot t n = measSlot s n) ∧ t.parts = s.parts ∧ t.reqs = s.reqs ∧
        t.mem = s.mem) ∧
    (s.live = some l → (l.back = true ∨ ∃ k ∈ liveHams s, k ∉ l.changed) → exec (.liveSwitchComplete none) s = .next s) ∧
    (h < 128 → s.live = some l → l.back = false → h ∈ liveHams s → noFail →
      ∃ t, exec (.liveSwitchComplete (some h)) s = .next t ∧ failWith t (failWord 7 5 3 l.bank h) ∧ t.meas = s.meas ∧ t.fw = s.fw ∧
        (match t.live with | some k => k.back = true ∧ ∀ j ∈ k.changed, (getHam s j).part ≠ none | none => stat t 21 = false)) ∧
    (att → 16 ≤ fld v 4 0 → ∃ t, exec (.slotExtend w v) s = .next t ∧
      measSlot t (fld v 4 0) = sha384 (measSlot s (fld v 4 0) ++ extData s) ∧ ∀ n, n ≠ fld v 4 0 → measSlot t n = measSlot s n) ∧
    (att → fld v 4 0 < 16 → exec (.slotExtend w v) s = .next (errInc s pAtt)) ∧
    (att → bit v 30 = false → getS s.ownKeys key = none → ∃ t, exec (.ownerEnrol w v) s = .next t ∧ getS t.ownKeys key = some (extData s) ∧
      (∀ k, k ≠ key → getS t.ownKeys k = getS s.ownKeys k) ∧ t.ownRev = s.ownRev ∧ frame t (pAtt + Off.attOwner)) ∧
    (att → bit v 30 = false → (getS s.ownKeys key).isSome = true → exec (.ownerEnrol w v) s = .next (errInc s pAtt)) ∧
    (att → bit v 30 = true → key ∉ s.ownRev → ∃ t, exec (.ownerRevoke w v) s = .next t ∧ (∀ k, k ∈ t.ownRev ↔ k = key ∨ k ∈ s.ownRev) ∧
      t.ownKeys = s.ownKeys ∧ frame t (pAtt + Off.attOwner)) ∧
    (att → bit v 30 = true → key ∈ s.ownRev → exec (.ownerRevoke w v) s = .next (errInc s pAtt))

/-- The SPDM responder (R540, R541): it answers versions 1.2 and 1.3, each answer counted; GET_VERSION starts an exchange, CAPABILITIES and
NEGOTIATE_ALGORITHMS follow; DIGESTS, CERTIFICATE, CHALLENGE_AUTH and MEASUREMENTS come after them, a slot that holds nothing has no
block, and any other request gets UnsupportedRequest; while a live switch ends the answer is Busy (R544). The message layouts are those of
log entry 40. -/
def Obligations.SpdmRequestsAnswered : Prop :=
  ∀ (s : State) (req : List Byte),
    let code := spdmCode req
    let ver : Byte := BitVec.ofNat 8 s.spdm.ver
    let asked := (req.headD 0).toNat
    let count (t : State) (o n : Nat) := reg t (pAtt + o) = w32 (satAdd 32 (reg s (pAtt + o)).toNat n)
    let said (t : State) (d : List Byte) (e : Nat) := t.out = s.out ++ [.reply d] ∧ t.resp = d ∧ count t Off.attSpdmReq 1 ∧ count t Off.attSpdmErr e ∧
      t = { s with out := t.out, resp := t.resp, regs := t.regs, spdm := t.spdm, freeCtr := t.freeCtr } ∧
      cellsSame s t [pAtt + Off.attSpdmReq, pAtt + Off.attSpdmErr]
    let error (t : State) (c x : Byte) := said t [if s.spdm.ver = 0 then 0x10 else ver, 0x7F, c, x] 1 ∧ t.spdm = s.spdm
    let free := liveAll s = false
    let open_ := free ∧ s.spdm.algo = true ∧ asked = s.spdm.ver
    let slot0 := (req.getD 2 0).toNat % 16 = 0
    let chain := Config.certChain (attKey s)
    let off := ofBytes ((req.drop 4).take 2)
    let part := (chain.drop off).take (min (ofBytes ((req.drop 6).take 2)) 4080)
    let op := (req.getD 3 0).toNat
    let held := (List.range 32).filter (fun n => decide (n = 0) || (getS s.meas n).isSome)
    let slots := if op = 0xFF then held else if 1 ≤ op ∧ op - 1 ∈ held then [op - 1] else []
    let signed := (req.getD 2 0).toNat % 2 = 1
    let late := [(0x81, Instr.getDigests), (0x82, .getCertificate), (0x83, .challenge), (0xE0, .getMeasurements)]
    (code = 0x84 → free → ∃ t, exec (.getVersion req) s = .next t ∧ said t [0x10, 4, 0, 0, 0, 2, 0, 0x12, 0, 0x13] 0 ∧ t.spdm.ver = 0 ∧
      t.spdm.algo = false) ∧
    (code = 0xE1 → free → s.spdm.msgA ≠ [] → (asked = 0x12 ∨ asked = 0x13) → ∃ t, exec (.capabilities req) s = .next t ∧ t.spdm.ver = asked ∧
      t.spdm.algo = false ∧ said t ([BitVec.ofNat 8 asked, 0x61, 0, 0] ++ bytesOf 4 0 ++ bytesOf 4 0x16 ++ bytesOf 4 4096 ++ bytesOf 4 4096) 0) ∧
    (code = 0xE1 → free → s.spdm.msgA ≠ [] → asked ≠ 0x12 → asked ≠ 0x13 → ∃ t, exec (.capabilities req) s = .next t ∧ error t 0x41 0) ∧
    (code = 0xE3 → free → s.spdm.ver ≠ 0 → asked = s.spdm.ver → ∃ t, exec (.negotiateAlgorithms req) s = .next t ∧ t.spdm.algo = true ∧
      t.spdm.ver = s.spdm.ver ∧ said t ([ver, 0x63, 0, 0] ++ bytesOf 2 36 ++ [1, 0] ++ bytesOf 4 4 ++ bytesOf 4 0x80 ++ bytesOf 4 2 ++ List.replicate 16 0) 0) ∧
    (∀ x ∈ late, code = x.1 → free → s.spdm.algo = false → ∃ t, exec (x.2 req) s = .next t ∧ error t 0x04 0) ∧
    (∀ x ∈ late, code = x.1 → free → s.spdm.algo = true → asked ≠ s.spdm.ver → ∃ t, exec (x.2 req) s = .next t ∧ error t 0x41 0) ∧
    (code = 0x81 → open_ → ∃ t, exec (.getDigests req) s = .next t ∧
      said t ([ver, 0x01, if s.spdm.ver = 0x13 then 1 else 0, 1] ++ sha384 chain) 0) ∧
    (code = 0x82 → open_ → ∃ t, exec (.getCertificate req) s = .next t ∧
      (if slot0 ∧ off < chain.length then
        said t ([ver, 0x02, 0, 0] ++ bytesOf 2 part.length ++ bytesOf 2 (chain.length - off - part.length) ++ part) 0
       else error t 0x01 0)) ∧
    (code = 0x83 → open_ → slot0 → (op = 0 ∨ op = 1 ∨ op = 0xFF) →
      ∃ t d, exec (.challenge req) s = .next t ∧
        said t (d ++ Config.ecdsaSign (attKey s) (s.spdm.msgA ++ s.spdm.msgB ++ req ++ d)) 0 ∧
        d.take 52 = ([ver, 0x03, 0, 1] ++ sha384 chain).take 52 ∧ t.spdm = { s.spdm with msgB := [] }) ∧
    (code = 0x83 → open_ → (¬ slot0 ∨ (op ≠ 0 ∧ op ≠ 1 ∧ op ≠ 0xFF)) → ∃ t, exec (.challenge req) s = .next t ∧ error t 0x01 0) ∧
    (code = 0xE0 → open_ → ¬ signed → op ≠ 0 → slots ≠ [] → ∃ t d n, exec (.getMeasurements req) s = .next t ∧ said t d 0 ∧
      d = [ver, 0x60, 0, 0, BitVec.ofNat 8 slots.length] ++ bytesOf 3 ((slots.map (measBlock s)).flatten).length ++
        (slots.map (measBlock s)).flatten ++ n ∧ t.spdm = { s.spdm with msgL := s.spdm.msgL ++ req ++ d }) ∧
    (code = 0xE0 → open_ → signed → slots ≠ [] → (req.getD 36 0).toNat % 16 = 0 → ∃ t d, exec (.getMeasurements req) s = .next t ∧
      said t (d ++ Config.ecdsaSign (attKey s) (s.spdm.msgA ++ (s.spdm.msgL ++ req ++ d))) 0 ∧ t.spdm = { s.spdm with msgL := [] }) ∧
    (code = 0xE0 → open_ → op ≠ 0 → slots = [] → ∃ t, exec (.getMeasurements req) s = .next t ∧ error t 0x01 0) ∧
    (code ∉ [0x84, 0xE1, 0xE3, 0x81, 0x82, 0x83, 0xE0] → free → ∃ t, exec (.spdmUnsupported req) s = .next t ∧ error t 0x07 (req.getD 1 0)) ∧
    (∀ x ∈ late ++ [(0x84, Instr.getVersion), (0xE1, .capabilities), (0xE3, .negotiateAlgorithms)], code = x.1 → liveAll s = true →
      ∃ t, exec (x.2 req) s = .next t ∧ error t 0x03 0)

/-- PLDM firmware update (R546, R547): an update writes the bank that is neither BANK nor LIVE_BANK and is refused while they differ; its
commands follow one another; the bundle becomes an object of the loft, is checked, applied and activated by NEXT_BANK. Completion codes
are those of log entry 41. -/
def Obligations.PldmUpdatesTheOtherBank : Prop :=
  ∀ (s : State) (o : LoftObj) (n off size : Nat) (data : List Byte),
    let u := s.pldm
    let bank := regF s (pBoot + Off.bootStat) 23 23
    let live := regF s (pBoot + Off.bootStat) 22 22
    let said (t : State) (d : List Byte) := t.out = s.out ++ [.reply d] ∧ t.resp = d
    let talk (t : State) (d : List Byte) := said t d ∧ t = { s with out := t.out, resp := t.resp, pldm := t.pldm }
    let id := bundleId s u.bank
    let fits := loftState s ≠ 3 ∧ loftUsed { s with loft := delS s.loft id } + size ≤ loftCap (loftLive s)
    let check := [1, 2, 3, 4, 5].findSome? (compCheck s u.bank)
    (∃ t, exec .queryDeviceIdentifiers s = .next t ∧ talk t (0 :: (bytesOf 4 0 ++ [0])) ∧ t.pldm = u) ∧
    (∃ t d, exec .getFirmwareParameters s = .next t ∧ talk t (0 :: (bytesOf 2 1 ++ bytesOf 4 (fwVersion s) ++ bytesOf 4 d)) ∧ t.pldm = u) ∧
    (∃ t, exec .getStatus s = .next t ∧ talk t (0 :: (bytesOf 1 u.st ++ bytesOf 4 u.got ++ bytesOf 4 u.size)) ∧ t.pldm = u) ∧
    (u.st = 0 → bank = live → 32 ≤ n → ∃ t, exec (.requestUpdate n) s = .next t ∧ talk t [0, 0, 0, 0] ∧
      t.pldm = { Pldm.init with st := 1, bank := 1 - bank }) ∧
    (u.st = 0 → bank ≠ live → ∃ t, exec (.requestUpdate n) s = .next t ∧ talk t [0x8A] ∧ t.pldm = u) ∧
    (u.st ≠ 0 → ∃ t, exec (.requestUpdate n) s = .next t ∧ talk t [0x81] ∧ t.pldm = u) ∧
    (u.st = 1 → ∃ t, exec (.passComponentTable 0) s = .next t ∧ talk t [0, 0, 0] ∧ t.pldm = { u with st := 2 }) ∧
    (u.st = 2 → fits → ∃ t, exec (.updateComponent 0 size) s = .next t ∧ said t [0, 0, 0] ∧
      t.pldm = { u with st := 3, size := size, got := 0, obj := id, applied := false } ∧
      getObj t id = some { typ := 2 + u.bank, st := 1, fetchable := false, len := size, created := 0, digest := [], data := [] } ∧
      (∀ i, i ≠ id → getObj t i = getObj s i) ∧ t.mem = s.mem) ∧
    (u.st = 2 → ¬ fits → ∃ t, exec (.updateComponent 0 size) s = .next t ∧ talk t [0, 1, 6] ∧ t.pldm = u) ∧
    (u.st = 3 → getObj s u.obj = some o → off = u.got → data.length = min 4096 (u.size - u.got) →
      ∃ t, exec (.requestFirmwareData off data) s = .next t ∧ t.pldm = { u with got := u.got + data.length } ∧
        getObj t u.obj = some { o with data := wrBytes o.data off data } ∧ t = { s with loft := t.loft, pldm := t.pldm }) ∧
    (u.st = 3 → getObj s u.obj = some o → u.got = u.size → ∃ t, exec .transferComplete s = .next t ∧ said t [0] ∧ t.pldm = { u with st := 4 } ∧
      getObj t u.obj = some { o with st := 0, created := s.time, digest := sha384 (rdBytes o.data 0 o.len) }) ∧
    (u.st = 3 → u.got ≠ u.size → exec .transferComplete s = .next s) ∧
    (u.st = 4 → ∃ t, exec .verifyComplete s = .next t ∧
      (match check with | none => talk t [0] ∧ t.pldm = { u with st := 5 } | some c => talk t [BitVec.ofNat 8 c] ∧ t.pldm = { u with st := 2 })) ∧
    (u.st = 5 → ∃ t, exec .applyComplete s = .next t ∧ talk t [0] ∧ t.pldm = { u with st := 2, applied := true }) ∧
    (u.st = 2 → u.applied = true → ∃ t, exec (.activateFirmware false) s = .next t ∧ said t [0, 0, 0] ∧ t.pldm = Pldm.init ∧
      regF t (pBoot + Off.bootCfg) 0 0 = u.bank % 2 ∧ t.live = s.live ∧ cellsSame s t [pBoot + Off.bootCfg]) ∧
    (u.st = 2 → u.applied = true → s.live.isSome = true → ∃ t, exec (.activateFirmware true) s = .next t ∧ t.live = s.live ∧
      reg t (pBoot + Off.errCnt) = w32 (satAdd 32 (reg s (pBoot + Off.errCnt)).toNat 1)) ∧
    (u.st = 3 → ∃ t, exec .cancelUpdate s = .next t ∧ said t [0, 0] ∧ t.pldm = Pldm.init ∧ getObj t u.obj = none ∧
      ∀ i, i ≠ u.obj → getObj t i = getObj s i) ∧
    (u.st ≠ 0 → u.st ≠ 3 → ∃ t, exec .cancelUpdate s = .next t ∧ talk t [0, 0] ∧ t.pldm = Pldm.init) ∧
    (u.st = 0 → ∀ i ∈ [Instr.passComponentTable n, .updateComponent n size, .activateFirmware true, .cancelUpdate],
      ∃ t, exec i s = .next t ∧ talk t [0x80] ∧ t.pldm = u)
/-! ### Membership, HALT and tests (17) -/

/-- Crier packets of membership: the first copy of a packet is counted and applied, a later one only counted in DUP (R469). A FENCE of KIND
MODULE and a DEAD of this module put it into QUARANTINE with nothing else changed (R570, R571); another DEAD is adopted when its epoch
follows, and the module that it names as REPLACEMENT takes SUBJECT's ID (R567); SUSPECT and CLEAR keep the reports (R565); a STEP fence
faults the step in flight (R569); a class X write that no register admits is only counted (R70, R468); a CENSUS starts a census (R619).
Stated while the CPER ring is off and the module is no relay. -/
def Obligations.CrierPacketsTakeEffect : Prop :=
  ∀ (s : State) (k : Crier) (g p : Nat),
    let a1 := k.args.drop 1
    let subject := ofBytes ((a1.drop 3).take 2)
    let epoch := ofBytes ((a1.drop 1).take 2)
    let repl := ofBytes ((a1.drop 5).take 2)
    let x := getPart s p
    let comes := k.wf = true ∧ s.quar = false ∧ criSeen s k.origin k.seq = false ∧ isRelay s = false ∧ s.cperOff ∧ s.swapReq = false
    let crier (t : State) := reg t (pCri + Off.criRxCnt) = w32 (satAdd 32 (reg s (pCri + Off.criRxCnt)).toNat 1) ∧ t.heard = s.time
    let criCells := [pCri + Off.criRxCnt, pCri + Off.criLatMax, pCri + Off.intStat]
    let fenced (t : State) (cause : Nat) := t.quar = true ∧ mbrState t = 3 ∧ regF t (pMbr + Off.mbrStat) 27 24 = cause ∧
      bit (reg t (pMbr + Off.intStat)) 2 = true ∧
      t = { s with quar := true, regs := t.regs, irqs := t.irqs, mram := t.mram, criRx := t.criRx, heard := t.heard } ∧
      cellsSame s t ([pMbr + Off.mbrStat, pMbr + Off.mbrFenceRx, pMbr + Off.intStat] ++ criCells ++ bbrCells)
    let regsOnly (t : State) (l : List Nat) := t = { s with regs := t.regs, irqs := t.irqs, criRx := t.criRx, heard := t.heard, reports := t.reports } ∧
      cellsSame s t (l ++ criCells)
    (∀ row ∈ [Instr.suspect, .clear, .dead, .fenceModule], k.wf = true → criSeen s k.origin k.seq = true →
      exec (row k) s = .next (bump s (pCri + Off.criDup) 1)) ∧
    (comes → ∃ t, exec (.fenceModule k) s = .next t ∧ crier t ∧ fenced t 2 ∧
      reg t (pMbr + Off.mbrFenceRx) = w32 (satAdd 32 (reg s (pMbr + Off.mbrFenceRx)).toNat 1)) ∧
    (comes → subject = modId s → repl ≠ modId s → ∃ t, exec (.dead k) s = .next t ∧ crier t ∧ fenced t 1) ∧
    (comes → subject ≠ modId s → serialAfter epoch s.mepoch = true →
      ∃ t, exec (.dead k) s = .next t ∧ crier t ∧ t.mepoch = epoch ∧ regF t (pMbr + Off.mbrStat) 15 0 = epoch ∧
        bit (reg t (pMbr + Off.intStat)) 0 = true ∧ t.deaths = s.deaths ++ [(epoch, subject, repl)] ∧ (∀ n < 3, slotSt t n ≠ 1) ∧ t.quar = false ∧
        (repl = modId s → repl ≠ 0xFFFE → modId t = subject ∧ mbrState t = 2) ∧ (repl ≠ modId s → modId t = modId s)) ∧
    (comes → subject ≠ modId s → serialAfter epoch s.mepoch = false → ∃ t, exec (.dead k) s = .next t ∧ crier t ∧ regsOnly t [] ∧ t.reports = s.reports) ∧
    (let rs := s.reports.filter (fun r => !(decide (r.1 = subject) && decide (r.2.1 = k.origin)))
     (comes → mbrState s ≠ 2 → ∃ t, exec (.suspect k) s = .next t ∧ crier t ∧ t.reports = rs ++ [(subject, k.origin, s.time)] ∧
       bit (reg t (pMbr + Off.intStat)) 1 = true ∧ regsOnly t [pMbr + Off.intStat]) ∧
     (comes → mbrState s = 2 → s.mepoch < 65536 → let s' := { s with reports := rs ++ [(subject, k.origin, s.time)] }
       actingCoord s' = some (modId s) → 2 ≤ (reporters s' subject).length →
       ∃ t, exec (.suspect k) s = .next t ∧ t.mepoch = (s.mepoch + 1) % 65536 ∧
         t.deaths = s.deaths ++ [((s.mepoch + 1) % 65536, subject, nextSpare s)]) ∧
     (comes → ∃ t, exec (.clear k) s = .next t ∧ crier t ∧ t.reports = rs ∧ regsOnly t [])) ∧
    (p = ofBytes (a1.take 1) % 32 → comes → k.mepoch = s.mepoch → fenceGroup s p k.origin = some g → x.inStep = true → x.cause = none →
      x.step = ofBytes ((a1.drop 7).take 8) →
      ∃ t, exec (.fenceStep k) s = .next t ∧ crier t ∧ getPart t p = { x with cause := some ⟨7, prtPg p, g, k.origin, 0xFFFF, 0⟩ } ∧
        (∀ q, q ≠ p → getPart t q = getPart s q) ∧ t.mem = s.mem) ∧
    (comes → k.mepoch = s.mepoch → s.up = true → criArg k 0 4 % 4 = 0 → criArg k 0 4 < 2 ^ 29 → (rowAt (criArg k 0 4)).isSome = true →
      s.pageOpen (pageOf (criArg k 0 4)) = true → 0x100 ≤ criArg k 0 4 % 4096 → classOf (pageOf (criArg k 0 4)) ∈ plainClasses →
      ∃ t, exec (.regWrite k) s = .next t ∧ crier t ∧ regsOnly t [pageOf (criArg k 0 4) + Off.errCnt, pageOf (criArg k 0 4) + Off.intStat] ∧
        reg t (pageOf (criArg k 0 4) + Off.errCnt) = w32 (satAdd 32 (reg s (pageOf (criArg k 0 4) + Off.errCnt)).toNat 1)) ∧
    (comes → k.mepoch = s.mepoch → s.census = none → criArg k 3 45 = 0 →
      ∃ t, exec (.census k) s = .next t ∧ crier t ∧ reg t (pMcn + Off.mcnCenStat) = w32 (2 ^ 31 + criArg k 0 3) ∧
        t.census = some ⟨criArg k 0 3, some k.origin, s.time, s.mepoch, [], s.time, []⟩ ∧ t.mem = s.mem)

/-- What a module does for its membership: class M originates crier packets through TX, at once with a token, else they wait, counted, for
the next one (R470); heartbeats every 100 ms to each monitor, echoes to a heartbeat (R564); a miss counted for each 100 ms without one and
SUSPECT to every coordinator at the fifth (R565); reports lapse after 1 s; 500 ms without an echo or crier packet fence the module (R570);
MBR.ID makes it SPARE, MBR.INIT MEMBER (R573). Stated for one monitor, one coordinator. -/
def Obligations.MembersWatchEachOther : Prop :=
  ∀ (s : State) (w : Writer) (v : W32) (m c pl src seq now last n : Nat),
    let told := (last, n, false)
    let hb (dst : Nat) (t : Nat) : Packet := ⟨dst, modId s, s.mepoch, 4, 0, 16, 0, getD s.fab.seq (dst * 8 + 6) 0, 0xFFFF, 0x3FE * 2 ^ 48,
      bytesOf 8 t ++ bytesOf 4 (mbrStatV s).toNat ++ bytesOf 4 0, 6, pl⟩
    let member := s.quar = false ∧ mbrState s = 2
    let heard := s.quar = false ∧ src < 65536 ∧ s.mepoch < 65536 ∧ seq < 2 ^ 32 ∧ rxSeen (rxWin s (src * 8 + 6)) seq = false
    let late := s.quar = false ∧ m < 65536 ∧ getD s.watch m (0, 0, false) = told ∧ last + 100000000 ≤ now ∧ s.fab.lostMods.contains m = false
    (member → s.hbAt + 100000000 ≤ now → monitors s = [m] → choosePlane s m false = some pl →
      ∃ t, exec (.heartbeatSend now) s = .next t ∧ t.fab.outbox = s.fab.outbox ++ [(pl, hb m (max s.time now))] ∧ t.hbAt = now ∧
        t.time = max s.time now ∧ t.mem = s.mem ∧ t.parts = s.parts) ∧
    (heard → getD s.watch src (0, 0, false) = told → choosePlane s src false = some pl →
      ∃ t, exec (.heartbeat src s.mepoch seq) s = .next t ∧ getD t.watch src (0, 0, false) = (s.time, 0, false) ∧
        (∃ ack, t.fab.outbox = s.fab.outbox ++ [(pl, hb src s.time), ack]) ∧ t.heard = s.heard ∧ t.reports = s.reports ∧ t.mem = s.mem ∧
        t.parts = s.parts) ∧
    (heard → src ∈ monitors s → ∃ t, exec (.echo src s.mepoch seq) s = .next t ∧ t.heard = s.time ∧ t.watch = s.watch ∧ t.mem = s.mem ∧
      t.parts = s.parts ∧ t.reports = s.reports) ∧
    (late → n + 1 < 5 →
      ∃ t, exec (.heartbeatMiss m now) s = .next t ∧ getD t.watch m (0, 0, false) = (now, n + 1, false) ∧
        reg t (pMbr + Off.mbrHbMiss) = w32 (satAdd 32 (reg s (pMbr + Off.mbrHbMiss)).toNat 1) ∧
        t = { s with regs := t.regs, watch := t.watch, time := max s.time now } ∧ cellsSame s t [pMbr + Off.mbrHbMiss]) ∧
    (late → n + 1 = 5 → coordinators s = [c] → c ≠ modId s →
      ∃ t, exec (.heartbeatMiss m now) s = .next t ∧ getD t.watch m (0, 0, false) = (now, 5, true) ∧
        reg t (pMbr + Off.mbrSuspectTx) = w32 (satAdd 32 (reg s (pMbr + Off.mbrSuspectTx)).toNat 1) ∧
        reg t (pCri + Off.criTxCnt) = w32 (satAdd 32 (reg s (pCri + Off.criTxCnt)).toNat 1) ∧ t.criSeq = (s.criSeq + 1) % 65536) ∧
    (m < 65536 → ∃ t, exec (.reportExpiry m now) s = .next t ∧ t = { s with time := max s.time now, reports := t.reports } ∧
      ∀ r, r ∈ t.reports ↔ r ∈ s.reports ∧ ¬ (r.1 = m ∧ r.2.2 + 1000000000 ≤ now)) ∧
    (member → s.heard + 500000000 ≤ now → s.swapReq = false → s.cperOff →
      ∃ t, exec (.selfFence now) s = .next t ∧ t.quar = true ∧ mbrState t = 3 ∧ regF t (pMbr + Off.mbrStat) 27 24 = 3 ∧
        t = { s with quar := true, time := max s.time now, regs := t.regs, irqs := t.irqs, mram := t.mram }) ∧
    (member → now < s.heard + 500000000 → exec (.selfFence now) s = .next s) ∧
    (s.managed w pMbr = true → mbrState s ≤ 1 →
      ∃ t, exec (.mbrIdWrite w v) s = .next t ∧ modId t = fld v 15 0 ∧ mbrState t = 1 ∧
        ledgerOnly s t 1 [pMbr + Off.mbrId, pMbr + Off.mbrStat, pMbr + Off.ledgerSeq]) ∧
    (s.managed w pMbr = true → 2 ≤ mbrState s → exec (.mbrIdWrite w v) s = .next (errInc s pMbr)) ∧
    (s.managed w pMbr = true → bit v 31 = true → mbrState s = 1 →
      ∃ t, exec (.mbrInit w v) s = .next t ∧ mbrState t = 2 ∧ t.mepoch = fld v 15 0 ∧ regF t (pMbr + Off.mbrStat) 15 0 = fld v 15 0) ∧
    (s.managed w pMbr = true → bit v 31 = true → mbrState s ≠ 1 → exec (.mbrInit w v) s = .next (errInc s pMbr)) ∧
    (s.managed w pCri = true → bit v 0 = true → s.quar = false →
      (s.criQ = [] → 0 < s.criTok → ∃ t, exec (.crierOriginate w v) s = .next t ∧ t.criSeq = (s.criSeq + 1) % 65536 ∧ t.criQ = [] ∧
        reg t (pCri + Off.criTxCnt) = w32 (satAdd 32 (reg s (pCri + Off.criTxCnt)).toNat 1)) ∧
      (s.criQ ≠ [] → ∃ t y, exec (.crierOriginate w v) s = .next t ∧ t.criQ = s.criQ ++ [y] ∧ y.origin = modId s ∧ y.seq = s.criSeq ∧
        y.dst = regF s (pCri + Off.criTxDst) 15 0 ∧ y.typ = regF s (pCri + Off.criTxType) 7 0 ∧ t.fab = s.fab ∧
        reg t (pCri + Off.criLimited) = w32 (satAdd 32 (reg s (pCri + Off.criLimited)).toNat 1) ∧ bit (reg t (pCri + Off.intStat)) 0 = true)) ∧
    (∀ y r, s.quar = false → s.criHold = [] → s.criQ = y :: r → 0 < s.criTok →
      ∃ t, exec .crierSend s = .next t ∧ t.criQ = r ∧ t.mem = s.mem ∧ t.parts = s.parts)

/-- HALT (R575 to R579): the first agreed asserted sample sets the halt; fewer than N disagreeing ones leave the agreed state; the
Nth is a HALT fault that halts too; with every step at its boundary the checkpoint and the records follow; GO is refused while
CLEAR_OK is 0, and its clear ends halt and fault. A sample that comes early changes nothing. -/
def Obligations.HaltFollowsItsInputs : Prop :=
  ∀ (s : State) (w : Writer) (v : W32) (a b : Bool) (now : Nat),
    let st (t : State) (i : Nat) := bit (reg t (pHlt + Off.hltStat)) i
    let due := s.hltAt + 100000 ≤ now
    (now < s.hltAt + 100000 → exec (.haltSample a b now) s = .next s) ∧
    (due → ∃ t, exec (.haltSample false true now) s = .next t ∧ st t 31 = true ∧ st t 26 = true ∧ st t 28 = false ∧ st t 27 = true ∧
      st t 29 = false ∧ t.hltOk = 0 ∧ t.hltRun = 0 ∧ (st s 31 = false →
        reg t (pHlt + Off.hltHaltCnt) = w32 (satAdd 32 (reg s (pHlt + Off.hltHaltCnt)).toNat 1) ∧ bit (reg t (pHlt + Off.intStat)) 0 = true) ∧
      (0 < s.hltRun → s.hltRun < hltN s → reg t (pHlt + Off.hltDiscCnt) = w32 (satAdd 32 (reg s (pHlt + Off.hltDiscCnt)).toNat 1))) ∧
    (due → ∃ t, exec (.haltSample true false now) s = .next t ∧ st t 31 = st s 31 ∧ st t 30 = st s 30 ∧ st t 26 = false ∧
      t.hltOk = min 1000 (s.hltOk + 1) ∧ st t 29 = decide (1000 ≤ s.hltOk + 1) ∧
      (0 < s.hltRun → s.hltRun < hltN s → reg t (pHlt + Off.hltDiscCnt) = w32 (satAdd 32 (reg s (pHlt + Off.hltDiscCnt)).toNat 1))) ∧
    (due → a = b → s.hltRun + 1 < hltN s → ∃ t, exec (.haltSample a b now) s = .next t ∧ st t 31 = st s 31 ∧ st t 30 = st s 30 ∧
      st t 26 = st s 26 ∧ st t 29 = false ∧ t.hltRun = s.hltRun + 1 ∧ t.parts = s.parts ∧ t.mram = s.mram) ∧
    (due → a = b → s.hltRun + 1 = hltN s → ∃ t, exec (.haltSample a b now) s = .next t ∧ st t 31 = true ∧ st t 30 = true ∧
      bit (reg t (pHlt + Off.intStat)) 1 = true ∧ t.hltRec = s.hltRec ++ [2] ∧ t.parts = s.parts) ∧
    (st s 31 = true → allAtBoundary s = true → s.hltRec ≠ [] →
      ∃ t, exec .haltCheckpointDone s = .next t ∧ t.hltSaved = true ∧ t.hltRec = [] ∧ t.parts = s.parts ∧ st t 31 = true ∧
        pair t (pBbr + Off.bbrHeadLo) = (pair s (pBbr + Off.bbrHeadLo) + s.hltRec.length) % 2 ^ 64) ∧
    (allAtBoundary s = false → exec .haltCheckpointDone s = .next s) ∧
    (s.managed w pHlt = true → bit v 0 = true → st s 29 = false → exec (.haltAck w v) s = .next (errInc s pHlt)) ∧
    (s.managed w pHlt = true → bit v 0 = true → st s 29 = true → st s 31 = true →
      ∃ t, exec (.haltAck w v) s = .next t ∧ t.hltClr = true ∧ ledgerOnly { s with hltClr := true } t 1 [pHlt + Off.hltAck, pHlt + Off.ledgerSeq]) ∧
    (s.hltClr = true → s.hltSaved = true → s.hltRec = [] →
      ∃ t, exec .haltClear s = .next t ∧ st t 31 = false ∧ st t 30 = false ∧ t.hltClr = false ∧ t.hltSaved = false ∧
        pair t (pBbr + Off.bbrHeadLo) = (pair s (pBbr + Off.bbrHeadLo) + 1) % 2 ^ 64)
/-- The end of a learner's faulted step: it is over, its cause is spent, and the next release carries its number again unless a hamlet
retired (R550, R552); a tile's test counts, records and makes an OK tile SUSPECT where it fails, or OK after eight passes (R562), and is
put off for a tile in FAULT or RETIRED and away from a boundary (R561); records not yet mirrored reach the loft mirror and BBR.MIRROR the
newest number (R582). -/
def Obligations.FaultedStepsTestsAndTheLoftMirror : Prop :=
  ∀ (s : State) (p h q : Nat) (c : Cause) (failed : List FailedUnit),
    let x := getPart s p
    let st := tileSt s h q
    let passes := min 8 (getD (getHam s h).tstate q 0 / 4 + 1)
    let tests (t : State) := reg t (pRas + Off.rasTests) = w32 (satAdd 32 (reg s (pRas + Off.rasTests)).toNat 1)
    let testable := h < 128 ∧ q < 17 ∧ tileWorks s h q = true ∧ (getHam s h).retired = false ∧ hamletOn s h = true ∧ (getHam s h).bound = true ∧
      s.dark = false ∧ onTile s h q = []
    let head := pair s (pBbr + Off.bbrHeadLo)
    let done := pair s (pBbr + Off.bbrMirrorLo)
    let first := max ((done + 1) % 2 ^ 64) (head + 1 - bbrSlots)
    let mirrors := loftState s ≠ 3 ∧ keysUp s.loft = true ∧ head ≠ done ∧ head ≠ 2 ^ 64 - 1
    (p < 32 → x.learner = true → x.inStep = true → x.placing = false → x.cause = some c → s.quar = false → s.dark = false →
      ∃ t, exec (.faultedStepEnd p failed) s = .next t ∧
        (let y := getPart t p
         y.inStep = false ∧ y.cause = none ∧ y.step = x.step ∧ y.learner = true ∧ y.hams = x.hams ∧
           ((∀ h ∈ x.hams, (getHam t h).retired = false) → y.again = true ∧ y.relPar = x.relPar))) ∧
    (p < 32 → (x.cause = none ∨ s.quar = true ∨ s.dark = true) → exec (.faultedStepEnd p failed) s = .next s) ∧
    (testable → st = 0 → ∃ t, exec (.tileTest h q true) s = .next t ∧ tests t ∧ tileSt t h q = 0 ∧ getD (getHam t h).tstate q 0 = 4 * passes ∧
      t = { s with hams := t.hams, regs := t.regs } ∧ cellsSame s t [pRas + Off.rasTests]) ∧
    (testable → st = 1 → ∃ t, exec (.tileTest h q true) s = .next t ∧ tests t ∧ tileSt t h q = (if passes = 8 then 0 else 1) ∧
      getD (getHam t h).tstate q 0 / 4 = passes ∧ (passes = 8 → regF t (pRas + Off.rasStat) 23 12 = regF s (pRas + Off.rasStat) 23 12 - 1)) ∧
    (testable → st ≤ 1 → (∀ l < 17, l ≠ q → tileWorks s h l = true) → s.cperOff →
      ∃ t, exec (.tileTest h q false) s = .next t ∧ tests t ∧ tileSt t h q = st + 1 ∧
        reg t (pRas + Off.rasTestFail) = w32 (satAdd 32 (reg s (pRas + Off.rasTestFail)).toNat 1) ∧
        pair t (pBbr + Off.bbrHeadLo) = (head + 2) % 2 ^ 64 ∧ bit (reg t (pRas + Off.intStat)) (st + 1) = true ∧ t.mem = s.mem) ∧
    (h < 128 → q < 17 → (tileWorks s h q = false ∨ (getHam s h).bound = false ∨ hamletOn s h = false) →
      ∀ ok, exec (.tileTest h q ok) s = .next s) ∧
    (mirrors → ∃ t, exec .bbrMirror s = .next t ∧ pair t (pBbr + Off.bbrMirrorLo) = head ∧ t.mram = s.mram ∧ t.mem = s.mem ∧
      ∃ o, getObj t (mirrorObj s) = some o ∧ o.typ = 4 ∧ o.len = 64 * min mirrorSlots (head + 1) ∧
        ∀ r, first ≤ r → r ≤ head → rdBytes o.data (64 * (r % mirrorSlots)) 64 = rdBytes s.mram (64 * (r % bbrSlots)) 64) ∧
    ((loftState s = 3 ∨ head = done ∨ head = 2 ^ 64 - 1) → exec .bbrMirror s = .next s)
/-! ### Checkpoints and restores (18) -/

/-- Mirrors, rechecks and ordinals: COMPLETE is written as 1 once every other byte is acknowledged (R593); a kept generation whose digest
fails loses COMPLETE, is counted and recorded (R596); a rank's entries go to rank 0, which takes only those of the manifest's epoch, and a
conflict is counted (R598, R600); rank 0 writes the manifest into slot k mod 2 with every rank's entries, or abandons an ordinal that
does not fit (R600); a durable ordinal shows in CKP.DURABLE. -/
def Obligations.MirrorsRechecksAndManifests : Prop :=
  ∀ (s : State) (m : Mirror) (o : Sys2Proof.Machine.Ordinal) (pl now p b rank n : Nat) (entries : List Byte),
    let per := regF s (pCkp + Off.ckpRecheck) 15 0
    let g := genBytes s
    let stat (t : State) (i : Nat) := bit (reg t (pCkp + Off.ckpStat)) i
    let int (t : State) (i : Nat) := bit (reg t (pCkp + Off.intStat)) i = true
    let due := per ≠ 0 ∧ s.ckCheckAt ≤ now
    let mine := s.ck = some o ∧ o.flushed = false ∧ o.gens = []
    let len := max 1 (reg s (pCkp + Off.ckpManLen)).toNat
    let man := manifest s o
    let closes := s.ck = some o ∧ o.flushed = true
    let all := ∀ r < ckN s, (getS o.ranks r).isSome = true
    let durable (t : State) := t.ck = none ∧ pair t (pCkp + Off.ckpDurableLo) = o.step % 2 ^ 64 ∧ int t 0 ∧ stat t 31 = false
    let only (t : State) := t = { s with ck := t.ck, out := t.out, regs := t.regs, irqs := t.irqs, durable := t.durable }
    (s.mirrors = [m] → m.closed = false → mirQuiet s m.part = true → s.quar = false → choosePlane s (buddy s) false = some pl →
      ∃ t, exec .mirrorComplete s = .next t ∧ t.mirrors = [{ m with closed := true }] ∧ t.mem = s.mem ∧ t.fab.outbox = s.fab.outbox ++
        [(pl, ⟨buddy s, modId s, s.mepoch, 4, 0, 4, m.part, getD s.fab.seq (buddy s * 8 + 2) 0, 0xFFFF,
          regF s (pCkp + Off.ckpBuddy) 25 16 * 2 ^ 48 + (m.gen * g + 8), bytesOf 4 1, 2, pl⟩)]) ∧
    ((∀ m ∈ s.mirrors, m.closed = true ∨ mirQuiet s m.part = false) → exec .mirrorComplete s = .next s) ∧
    ((per = 0 ∨ now < s.ckCheckAt) → exec (.ckpRecheck now) s = .next s) ∧
    (due → (∀ q < 32, keptAt s q = none) → exec (.ckpRecheck now) s =
      .next { s with time := max s.time now, ckCheckAt := now + per * 1000000000 }) ∧
    (due → p < 32 → keptAt s p = some b → (∀ q < 32, q ≠ p → keptAt s q = none) → rdNat s.mem (b + 8) 4 = 1 → rdNat s.mem (b + g + 8) 4 ≠ 1 →
      rdNat s.mem (b + 0x100) 4 = 0x44534B43 →
      sha384 (rdBytes s.mem (b + 0x1000) (rdNat s.mem (b + 0x118) 8)) ≠ rdBytes s.mem (b + 0x128) 48 → s.cperOff →
      ∃ t, exec (.ckpRecheck now) s = .next t ∧ rdNat t.mem (b + 8) 4 = 0 ∧ int t 3 ∧
        reg t (pCkp + Off.ckpRchkFail) = w32 (satAdd 32 (reg s (pCkp + Off.ckpRchkFail)).toNat 1) ∧
        pair t (pBbr + Off.bbrHeadLo) = (pair s (pBbr + Off.bbrHeadLo) + 1) % 2 ^ 64 ∧
        ∀ a, (a < b + 8 ∨ b + 12 ≤ a) → rdB t.mem a = rdB s.mem a) ∧
    (mine → ckRank s = 0 → exec (.shardFlushComplete 0 entries 0) s =
      .next { s with ck := some { o with flushed := true, ranks := putS o.ranks 0 o.mine.flatten } }) ∧
    (mine → ckRank s = rank → rank ≠ 0 → s.quar = false → ckMod s 0 ≠ modId s → exec (.shardFlushComplete rank entries 0) s =
      .next { s with ck := some { o with flushed := true }, out := s.out ++ [.group (ckMod s 0) 0 [o.k, rank] o.mine.flatten] }) ∧
    (s.ck = some o → ckRank s = 0 → rank ≠ 0 → rank < ckN s → (∀ i < entries.length / 96, ofBytes ((entries.drop (96 * i + 6)).take 2) = o.mepoch) →
      exec (.shardFlushComplete rank entries 0) s = .next { s with ck := some { o with ranks := putS o.ranks rank entries } }) ∧
    (s.ck = some o → ckRank s = 0 → rank ≠ 0 → (∃ i < entries.length / 96, ofBytes ((entries.drop (96 * i + 6)).take 2) ≠ o.mepoch) →
      exec (.shardFlushComplete rank entries 0) s = .next s) ∧
    (s.ck = none → 0 < n → exec (.shardFlushComplete rank entries n) s = .next (bump s (pCkp + Off.ckpConflict) n)) ∧
    (closes → ckRank s ≠ 0 → ∃ t, exec .manifestWrite s = .next t ∧ durable t ∧ t.out = s.out ∧ only t) ∧
    (closes → ckRank s = 0 → all → man.length ≤ 4096 * len → s.quar = false → s.leaseAt = some s.mepoch →
      ∃ t, exec .manifestWrite s = .next t ∧ durable t ∧ only t ∧
        t.out = s.out ++ [.fsWrite (pair s (pCkp + Off.ckpManLbaLo) + o.k % 2 * len) (padTo 4096 man)]) ∧
    (closes → ckRank s = 0 → all → 4096 * len < man.length → ∃ t, exec .manifestWrite s = .next t ∧ t.ck = none ∧ int t 4 ∧ t.out = s.out ∧
      only t ∧ stat t 31 = false) ∧
    (closes → ckRank s = 0 → ¬ all → exec .manifestWrite s = .next s) ∧
    (s.ck = none → exec .manifestWrite s = .next s)

/-- Restores: rank 0 takes the least h of all ranks and sends it to every other (R605); a rank that holds it keeps its C views, another
loads the generation of its buddy, unless it is not COMPLETE, fails its digest or finds no partition and image to load into (R606,
R607, R610); a file-store restore checks signature, DCL and NRANK, epochs and digests in that order and loads no shard before (R612);
KEYS come back as they were written (R590). -/
def Obligations.RestoresCheckAndLoad : Prop :=
  ∀ (s : State) (w : Writer) (v : W32) (reports : List Nat) (m : List Byte) (c h : Nat) (xs : List CkShard) (x : CkShard),
    let int (t : State) (i : Nat) := bit (reg t (pCkp + Off.intStat)) i = true
    let ended (t : State) (r : Nat) := regF t (pCkp + Off.ckpStat) 7 0 = r ∧ bit (reg t (pCkp + Off.ckpStat)) 29 = false ∧ t.restoreAt = none ∧
      (if r = 0 then int t 1 ∧ pair t (pCkp + Off.ckpRestoredLo) = c % 2 ^ 64 else int t 2)
    let failed (t : State) (r : Nat) := ended t r ∧ t = { s with regs := t.regs, irqs := t.irqs, restoreAt := none, restoreDue := s.restoreDue } ∧
      cellsSame s t [pCkp + Off.ckpStat, pCkp + Off.intStat]
    let y := getPart s (shdPart x)
    let ready := y.st ≠ .free ∧ y.images ≠ [] ∧ y.learner = decide (shdKind x ≤ 2)
    let at_ (t : State) := ∀ p ∈ learners s, (getPart t p).step = c ∧ (getPart t p).cstep = c
    let key (i : Nat) : Nat := ofBytes ((x.body.drop (8 * i)).take 8)
    let goes := s.managed w pCkp = true ∧ bit v 31 = true
    let idle := bit (reg s (pCkp + Off.ckpStat)) 29 = false
    let es := manEntries m
    let own := es.filter (fun e => decide (ofBytes (e.take 4) = ckRank s))
    let loft := decide (fld v 2 1 = 1)
    let signed := Config.ecdsaVerify ((m.drop 0x30).take 48) (m.take 0x60 ++ es.flatten) ((m.drop 0x60).take 96)
    let whole := 256 + 96 * manF m 0x24 4 ≤ m.length ∧ manF m 0 4 = 0x4E414D43
    let result := if manF m 0x1C 4 ≠ (reg s (pMod + Off.modDcl)).toNat ∨ manF m 0x20 4 ≠ ckN s then 2
      else if ∃ e ∈ es, ofBytes ((e.drop 6).take 2) ≠ manF m 0x18 2 then 4
      else if own = [] ∨ ∃ e ∈ own, entryShard s loft xs e = none then 5
      else if ∃ e ∈ own, ∃ z, entryShard s loft xs e = some z ∧ shdGood z = false then 3 else 0
    (ckRank s = 0 → reports.length = ckN s → h ∈ reports → (∀ r ∈ reports, h ≤ r) →
      ∃ t, exec (.restoreStepDecide reports) s = .next t ∧ t.restoreAt = some h ∧ bit (reg t (pCkp + Off.ckpStat)) 29 = true ∧
        (s.quar = false → ∀ k < ckN s, ckMod s k ≠ modId s → .group (ckMod s k) 2 [h] [] ∈ t.out) ∧
        t = { s with restoreAt := some h, out := t.out, regs := t.regs } ∧ cellsSame s t [pCkp + Off.ckpStat]) ∧
    ((ckRank s ≠ 0 ∨ reports.length ≠ ckN s) → exec (.restoreStepDecide reports) s = .next s) ∧
    (∃ t, exec (.restoreLoad c xs false) s = .next t ∧ failed t 6) ∧
    ((∀ p ∈ learners s, (getPart s p).cstep = c) → ∃ t, exec (.restoreLoad c [] true) s = .next t ∧ ended t 0 ∧ at_ t ∧ t.mem = s.mem) ∧
    ((∃ p ∈ learners s, (getPart s p).cstep ≠ c) → ∃ t, exec (.restoreLoad c [] true) s = .next t ∧ failed t 5) ∧
    (¬ ready → ∃ t, exec (.restoreLoad c [x] true) s = .next t ∧ failed t 7) ∧
    (ready → shdGood x = false → ∃ t, exec (.restoreLoad c [x] true) s = .next t ∧ failed t 3) ∧
    (ready → shdGood x = true → shdKind x = 2 → x.body.length = 48 →
      ∃ t, exec (.restoreLoad c [x] true) s = .next t ∧ ended t 0 ∧ at_ t ∧ (getPart t (shdPart x)).commits = key 1 ∧
        pair t (pEpo + Off.epoPubOrdLo) = key 2 ∧ t.lastEpoch = (if key 3 = 0xFFFFFFFF then none else some (key 3)) ∧ t.mem = s.mem) ∧
    (goes → idle → fld v 2 1 < 2 → ¬ whole → ∃ t, exec (.ckpRestore w v m xs) s = .next t ∧ regF t (pCkp + Off.ckpStat) 7 0 = 5 ∧ int t 2 ∧
      t.parts = s.parts) ∧
    (goes → idle → fld v 2 1 < 2 → whole → s.ledger.ringUp = false →
      ∃ t, exec (.ckpRestore w v m xs) s = .next t ∧ regF t (pCkp + Off.ckpStat) 7 0 = (if signed = true then result else 1) ∧
        (if signed = true ∧ result = 0 then int t 1 ∧ pair t (pCkp + Off.ckpRestoredLo) = manF m 0x10 8 else int t 2 ∧ t.parts = s.parts ∧ t.mem = s.mem)) ∧
    (goes → 2 ≤ fld v 2 1 → exec (.ckpRestore w v m xs) s = .next (errInc s pCkp)) ∧
    (goes → ¬ idle → fld v 2 1 < 2 → ∃ t, exec (.ckpRestore w v m xs) s = .next t ∧ t.parts = s.parts ∧
      reg t (pCkp + Off.errCnt) = w32 (satAdd 32 (reg s (pCkp + Off.errCnt)).toNat 1))
/-! ### Counters and the census (19) -/

/-- Selects and the census: a select takes a code of its scope and clears its counter when it changes; another code is refused (R615, R616);
CLEAR sets every counter of the page to 0; GO starts a census, with BCAST also a packet, and is ignored while one runs (R619); a unit
records once (R620); the record then goes to CEN_BASE and DONE is set (R623). -/
def Obligations.CountersSelectedAndCensusRecorded : Prop :=
  ∀ (s : State) (w : Writer) (v : W32) (h i q page : Nat) (c : CensusRun),
    let cnt := cntPg h
    let managed := h < 128 ∧ s.managed w cnt = true
    let ev := fld v 15 0
    let tileCode := ev ≤ 0xA ∨ (0x8001 ≤ ev ∧ ev ≤ 0x8004)
    let hamCode := ev = 0 ∨ (0x101 ≤ ev ∧ ev ≤ 0x108) ∨ ev = 0x8001 ∨ ev = 0x8003 ∨ ev = 0x8004
    let tsel := cnt + Off.cntTsel + 4 * i
    let hsel := cnt + Off.cntHsel + 4 * i
    let tctr := cnt + Off.cntTctrLo + 8 * i
    let hctr := cnt + Off.cntHctrLo + 8 * i
    let want (old : W32) := (old &&& ~~~0xC000FFFF#32) ||| (v &&& 0xC000FFFF#32)
    let id := fld v 23 0
    let goes := s.managed w pMcn = true ∧ bit v 31 = true
    let base := pair s (pMcn + Off.mcnCenBaseLo) % 2 ^ 50
    let started (t : State) := t.census = some ⟨id, none, s.time, s.mepoch, [], s.time, []⟩ ∧ reg t (pMcn + Off.mcnCenStat) = w32 (2 ^ 31 + id)
    (managed → i < 64 → regF s (cnt + Off.cntTidx) 4 0 = q → q ≤ 16 → tileCode →
      ∃ t, exec (.counterSelectWrite w tsel v) s = .next t ∧ regAt t tsel q = want (regAt s tsel q) ∧
        (if regAt s tsel q = want (regAt s tsel q) then regAt t tctr q = regAt s tctr q else regAt t tctr q = 0 ∧ regAt t (tctr + 4) q = 0) ∧
        ledgerOnly s t 1 [tsel + 2 ^ 29 * q, tctr + 2 ^ 29 * q, tctr + 4 + 2 ^ 29 * q, cnt + Off.ledgerSeq]) ∧
    (managed → i < 64 → ¬ tileCode → exec (.counterSelectWrite w tsel v) s = .next (errInc s cnt)) ∧
    (managed → i < 16 → hamCode →
      ∃ t, exec (.counterSelectWrite w hsel v) s = .next t ∧ reg t hsel = want (reg s hsel) ∧
        (if reg s hsel = want (reg s hsel) then reg t hctr = reg s hctr else reg t hctr = 0 ∧ reg t (hctr + 4) = 0) ∧
        ledgerOnly s t 1 [hsel, hctr, hctr + 4, cnt + Off.ledgerSeq]) ∧
    (managed → i < 16 → ¬ hamCode → exec (.counterSelectWrite w hsel v) s = .next (errInc s cnt)) ∧
    (managed → bit v 0 = true → ∃ t, exec (.counterClear w cnt v) s = .next t ∧
      (i < 64 → regAt t tctr q = 0 ∧ regAt t (tctr + 4) q = 0 ∧ regAt t tsel q = regAt s tsel q) ∧
      (i < 16 → reg t hctr = 0 ∧ reg t (hctr + 4) = 0 ∧ reg t hsel = reg s hsel) ∧ regF t (cnt + Off.cntCtl) 31 16 = fld v 31 16 ∧
      t = { s with regs := t.regs, irqs := t.irqs, ledger := t.ledger, mem := t.mem } ∧
      (∀ k, pageOf (k % 2 ^ 29) ≠ cnt → k ∉ ledgerCells → getS t.regs k = getS s.regs k) ∧
      ∀ a, ¬ inNextRecords s 1 a → rdB t.mem a = rdB s.mem a) ∧
    (goes → s.census = none → bit v 30 = false → ∃ t, exec (.censusStart w v) s = .next t ∧ started t ∧
      ledgerOnly { s with census := t.census } t 1 [pMcn + Off.mcnCenGo, pMcn + Off.mcnCenStat, pMcn + Off.ledgerSeq]) ∧
    (goes → s.census = none → bit v 30 = true → s.quar = false → ∃ t, exec (.censusStart w v) s = .next t ∧ started t ∧
      t.criSeq = (s.criSeq + 1) % 65536 ∧ reg t (pCri + Off.criTxCnt) = w32 (satAdd 32 (reg s (pCri + Off.criTxCnt)).toNat 1)) ∧
    (goes → s.census = some c → ∃ t, exec (.censusStart w v) s = .next t ∧ t.census = some c ∧
      reg t (pMcn + Off.errCnt) = w32 (satAdd 32 (reg s (pMcn + Off.errCnt)).toNat 1)) ∧
    (pageExists page = true → s.census = some c → page ∉ c.done →
      ∃ t, exec (.censusMarker page) s = .next t ∧ t = { s with census := t.census, freeCtr := s.freeCtr + 1024 } ∧
        ∃ m, t.census = some { c with done := c.done ++ [page], last := s.time, shadow := m } ∧
          (censusPages[i]? = some page → ∀ k < 1024, rdNat m (0x201000 + i * 0x1000 + 4 * k) 4 = (regView s (page + 4 * k)).toNat)) ∧
    (pageExists page = true → (s.census = none ∨ (s.census = some c ∧ page ∈ c.done)) → exec (.censusMarker page) s = .next s) ∧
    (s.census = some c → c.id < 2 ^ 24 → (∀ u ∈ censusUnits s, u ∈ c.done) → memWf c.shadow = true → (∀ e ∈ c.shadow, e.1 < censusBytes) →
      ∃ t, exec .censusDone s = .next t ∧ t.census = none ∧ reg t (pMcn + Off.mcnCenStat) = w32 (2 ^ 30 + c.id) ∧
        bit (reg t (pMcn + Off.intStat)) 0 = true ∧ rdNat t.mem base 4 = 0x534E4543 ∧
        rdNat t.mem (base + 4) 4 = c.id + (if c.origin.isSome then 2 ^ 24 else 0) ∧ rdNat t.mem (base + 8) 8 = c.start % 2 ^ 64 ∧
        rdNat t.mem (base + 16) 8 = c.last % 2 ^ 64 ∧ rdNat t.mem (base + 0x18) 2 = c.mepoch % 65536 ∧ rdNat t.mem (base + 0x1A) 2 = modId s ∧
        rdNat t.mem (base + 0x1C) 2 = c.origin.getD 0xFFFE % 65536 ∧
        (∀ o, 0x1E ≤ o → o < censusBytes → rdB t.mem (base + o) = rdB c.shadow o) ∧
        (∀ a, (a < base ∨ base + censusBytes ≤ a) → rdB t.mem a = rdB s.mem a) ∧
        t = { s with mem := t.mem, regs := t.regs, irqs := t.irqs, census := none } ∧
        ∀ k, k ∉ [pMcn + Off.mcnCenStat, pMcn + Off.intStat] → (k < pMcn + Off.mcnMctrLo ∨ pMcn + Off.mcnMctrLo + 64 ≤ k) →
          getS t.regs k = getS s.regs k) ∧
    (s.census = none → exec .censusDone s = .next s)
/-! ### Links of the host and the Ethernet (12, 14, 20) -/

/-- An Ethernet link that goes down loses its PTP lock, each change interrupts (R439); a PTP message on a locked port disciplines module time
and makes it valid (R12, R439); a pause frame of the crier priority is counted and pauses its port (R440; its length in ns is log entry
27's), another does nothing; PCI.LINK reports what the host port has trained to (R474). -/
def Obligations.EthernetPtpAndHostLinks : Prop :=
  ∀ (s : State) (p prio quanta now width gen numvf : Nat) (ofs : W32),
    let e := ethPg p
    let st (t : State) (i : Nat) := bit (reg t (e + Off.ethStat)) i
    let int (t : State) (i : Nat) := bit (reg t (e + Off.intStat)) i = true
    let only (t : State) := t = { s with regs := t.regs, irqs := t.irqs } ∧ cellsSame s t [e + Off.ethStat, e + Off.ethPtpOfs, e + Off.intStat]
    let listens := p < 4 ∧ bit (reg s (e + Off.ethCfg)) 3 = true ∧ st s 31 = true
    (p < 4 → st s 31 = false → ∃ t, exec (.ethernetLinkChange p true) s = .next t ∧ st t 31 = true ∧ st t 30 = st s 30 ∧ int t 0 ∧ only t) ∧
    (p < 4 → st s 31 = true → ∃ t, exec (.ethernetLinkChange p false) s = .next t ∧ st t 31 = false ∧ st t 30 = false ∧ int t 0 ∧
      (st s 30 = true → int t 1) ∧ only t) ∧
    (∀ up, p < 4 → st s 31 = up → exec (.ethernetLinkChange p up) s = .next s) ∧
    (listens → ∃ t, exec (.ptpMessage p true now ofs) s = .next t ∧ t.time = now ∧ st t 30 = true ∧ bit (reg t (pClk + Off.clkStat)) 29 = true ∧
      reg t (e + Off.ethPtpOfs) = ofs ∧ t = { s with time := now, regs := t.regs } ∧
      cellsSame s t [e + Off.ethStat, e + Off.ethPtpOfs, pClk + Off.clkStat]) ∧
    (listens → ∃ t, exec (.ptpMessage p false now ofs) s = .next t ∧ st t 30 = false ∧ reg t (e + Off.ethPtpOfs) = ofs ∧
      (st s 30 = true → int t 1) ∧ only t) ∧
    (∀ lock, p < 4 → (bit (reg s (e + Off.ethCfg)) 3 = false ∨ st s 31 = false) → exec (.ptpMessage p lock now ofs) s = .next s) ∧
    (p < 4 → prio < 8 → quanta < 65536 → s.criHold = [] → prio = regF s (e + Off.ethCfg) 2 0 →
      ∃ t, exec (.pfcPauseFrame p prio quanta) s = .next t ∧ reg t (e + Off.ethPfcRx) = w32 (satAdd 32 (reg s (e + Off.ethPfcRx)).toNat 1) ∧
        getD t.paused p 0 = (if quanta = 0 then 0 else s.time + (quanta * 512 + 799) / 800) ∧ (∀ k, k ≠ p → getD t.paused k 0 = getD s.paused k 0) ∧
        t = { s with paused := t.paused, regs := t.regs } ∧ cellsSame s t [e + Off.ethPfcRx]) ∧
    (p < 4 → prio < 8 → quanta < 65536 → prio ≠ regF s (e + Off.ethCfg) 2 0 → exec (.pfcPauseFrame p prio quanta) s = .next s) ∧
    (width ∈ [1, 2, 4, 8, 16] → 1 ≤ gen → gen ≤ 6 → numvf ≤ 512 →
      ∃ t, exec (.pcieLinkTraining width gen numvf) s = .next t ∧ regF t (pPci + Off.pciLink) 31 28 = gen ∧ regF t (pPci + Off.pciLink) 27 23 = width ∧
        bit (reg t (pPci + Off.pciLink)) 22 = decide (gen = 6) ∧ regF t (pPci + Off.pciLink) 15 0 = numvf ∧
        t = { s with regs := t.regs } ∧ cellsSame s t [pPci + Off.pciLink])

/-! ### Invariants -/

/-- The memories keep their one form through every step: whatever the command, each listed address stands once, ascending, with a byte that
an unlisted address does not read as. -/
def Obligations.StepsKeepMemoriesCanonical : Prop :=
  ∀ s t : State, s.memOk = true → step s = .next t → t.memOk = true

/-- After reset every memory is in that form, nothing waits, the module is neither READY nor in RECOVERY, and ID, epoch and ledger stand
where R14, R525, R573 and R581 leave them before a first boot.

On an empty queue a step lets one nanosecond of module time pass (log entry 2). -/
def Obligations.ResetAndIdleSteps : Prop :=
  (
  State.reset.memOk = true ∧ State.reset.pending = [] ∧ State.reset.up = false ∧ modId State.reset = 0xFFFE ∧ mbrState State.reset = 0 ∧
  pair State.reset (pBbr + Off.bbrHeadLo) = 2 ^ 64 - 1 ∧ State.reset.mepoch = 0) ∧
  (
  ∀ s : State, s.pending = [] → step s = .next { s with time := s.time + 1 })
end

