-- ==== Sys2Proof/Laws/Store.lean ====
section
/-! SUPPORT. Laws of sparse stores and byte memory: a read after a write, and that every memory operation keeps the one
canonical form. -/

namespace Sys2Proof.Machine

variable {α : Type}

@[simp] theorem getS_nil (k : Nat) : getS ([] : Store α) k = none := rfl

@[simp] theorem getS_putS_self (m : Store α) (k : Nat) (v : α) : getS (putS m k v) k = some v := by
  induction m with
  | nil => simp [putS, getS]
  | cons e r ih =>
    obtain ⟨j, w⟩ := e
    unfold putS
    split
    · simp [getS]
    · split
      · simp [getS]
      · rename_i h2
        simp [getS, Ne.symm h2, ih]

theorem getS_putS_of_ne (m : Store α) (k j : Nat) (v : α) (h : k ≠ j) : getS (putS m k v) j = getS m j := by
  induction m with
  | nil => simp [putS, getS, h]
  | cons e r ih =>
    obtain ⟨i, w⟩ := e
    unfold putS
    split
    · simp [getS, h]
    · split
      · rename_i h2
        subst h2
        simp [getS, h]
      · simp only [getS, ih]

theorem getS_filter (m : Store α) (p : Nat → Bool) (k : Nat) :
    getS (m.filter (fun e => p e.1)) k = if p k then getS m k else none := by
  induction m with
  | nil => simp
  | cons e r ih =>
    obtain ⟨j, w⟩ := e
    by_cases hj : p j <;> by_cases hjk : j = k
    · subst hjk; simp [hj, getS]
    · simp [hj, getS, hjk, ih]
    · subst hjk; simp [hj, ih]
    · simp [hj, getS, hjk, ih]

@[simp] theorem getS_delS_self (m : Store α) (k : Nat) : getS (delS m k) k = none := by
  simp only [delS, getS_filter m (fun j => decide (j ≠ k))]
  simp

theorem getS_delS_of_ne (m : Store α) (k j : Nat) (h : k ≠ j) : getS (delS m k) j = getS m j := by
  simp only [delS, getS_filter m (fun i => decide (i ≠ k))]
  simp [Ne.symm h]

@[simp] theorem getD_putDef_self [DecidableEq α] (m : Store α) (k : Nat) (v d : α) : getD (putDef m k v d) k d = v := by
  unfold putDef getD
  split
  · rename_i h; subst h; simp
  · simp

theorem getS_putDef_of_ne [DecidableEq α] (m : Store α) (k j : Nat) (v d : α) (h : k ≠ j) :
    getS (putDef m k v d) j = getS m j := by
  unfold putDef
  split
  · exact getS_delS_of_ne m k j h
  · exact getS_putS_of_ne m k j v h

theorem getD_putDef_of_ne [DecidableEq α] (m : Store α) (k j : Nat) (v d e : α) (h : k ≠ j) :
    getD (putDef m k v d) j e = getD m j e := by
  simp [getD, getS_putDef_of_ne m k j v d h]

theorem getS_clearRange (m : Store α) (lo n k : Nat) :
    getS (clearRange m lo n) k = if lo ≤ k ∧ k < lo + n then none else getS m k := by
  unfold clearRange
  rw [getS_filter m (fun k => !(decide (lo ≤ k) && decide (k < lo + n)))]
  by_cases h : lo ≤ k ∧ k < lo + n
  · simp [h]
  · rw [if_neg h, if_pos]
    simp only [Bool.not_eq_true', Bool.and_eq_false_iff, decide_eq_false_iff_not]
    omega

/-! ### A byte after a write -/

@[simp] theorem rdB_wrB_self (m : Memory) (a : Nat) (b : Byte) : rdB (wrB m a b) a = b := by
  simp [rdB, wrB]

theorem rdB_wrB_of_ne (m : Memory) (a c : Nat) (b : Byte) (h : a ≠ c) : rdB (wrB m a b) c = rdB m c := by
  unfold rdB wrB
  exact getD_putDef_of_ne m a c b 0 0 h

/-- A write of bytes leaves every byte outside them as it was. -/
theorem rdB_wrBytes_outside (m : Memory) (a c : Nat) (bs : List Byte) (h : c < a ∨ a + bs.length ≤ c) :
    rdB (wrBytes m a bs) c = rdB m c := by
  induction bs generalizing m a with
  | nil => rfl
  | cons b bs ih =>
    simp only [wrBytes]
    rw [ih, rdB_wrB_of_ne]
    · rcases h with h | h <;> simp at * <;> omega
    · rcases h with h | h
      · exact Or.inl (by omega)
      · exact Or.inr (by simp at h; omega)

/-- A write of bytes puts each of them at its place. -/
theorem rdB_wrBytes_inside (m : Memory) (a i : Nat) (bs : List Byte) (h : i < bs.length) :
    rdB (wrBytes m a bs) (a + i) = bs[i] := by
  induction bs generalizing m a i with
  | nil => simp at h
  | cons b bs ih =>
    simp only [wrBytes]
    cases i with
    | zero =>
      rw [rdB_wrBytes_outside]
      · simp
      · exact Or.inl (by omega)
    | succ j =>
      have h' : j < bs.length := by simpa using h
      have := ih (wrB m a b) (a + 1) j h'
      rw [show a + (j + 1) = a + 1 + j by omega, this]
      simp

theorem rdB_zeroRange (m : Memory) (a n c : Nat) :
    rdB (zeroRange m a n) c = if a ≤ c ∧ c < a + n then 0 else rdB m c := by
  simp only [rdB, getD, zeroRange, getS_clearRange]
  split <;> simp

@[simp] theorem rdBytes_length (m : Memory) (a n : Nat) : (rdBytes m a n).length = n := by
  induction n generalizing a with
  | zero => rfl
  | succ n ih => simp [rdBytes, ih]

/-! ### The canonical form -/

/-- Ascending keys, as a relation between all entries of a store. -/
theorem keysUp_iff (m : Store α) : keysUp m = true ↔ m.Pairwise (fun x y => x.1 < y.1) := by
  induction m with
  | nil => simp [keysUp]
  | cons a r ih =>
    cases r with
    | nil => simp [keysUp]
    | cons b r =>
      simp only [keysUp, Bool.and_eq_true, decide_eq_true_eq, ih]
      constructor
      · rintro ⟨hab, hp⟩
        refine List.pairwise_cons.2 ⟨?_, hp⟩
        intro x hx
        rcases List.mem_cons.1 hx with rfl | hx
        · exact hab
        · exact Nat.lt_trans hab ((List.pairwise_cons.1 hp).1 x hx)
      · intro hp
        have := List.pairwise_cons.1 hp
        exact ⟨this.1 b (by simp), this.2⟩

theorem mem_putS (m : Store α) (k : Nat) (v : α) (x : Nat × α) (h : x ∈ putS m k v) : x = (k, v) ∨ x ∈ m := by
  induction m with
  | nil => simpa [putS] using h
  | cons e r ih =>
    obtain ⟨j, w⟩ := e
    unfold putS at h
    split at h
    · simpa using h
    · split at h
      · rcases List.mem_cons.1 h with h | h
        · exact Or.inl h
        · exact Or.inr (by simp [h])
      · rcases List.mem_cons.1 h with h | h
        · exact Or.inr (by simp [h])
        · rcases ih h with h | h
          · exact Or.inl h
          · exact Or.inr (by simp [h])

/-- `putS` keeps ascending keys. -/
theorem keysUp_putS (m : Store α) (k : Nat) (v : α) (h : keysUp m = true) : keysUp (putS m k v) = true := by
  rw [keysUp_iff] at h ⊢
  induction m with
  | nil => simp [putS]
  | cons e r ih =>
    obtain ⟨j, w⟩ := e
    have hp := List.pairwise_cons.1 h
    unfold putS
    split
    · rename_i hk
      refine List.pairwise_cons.2 ⟨?_, h⟩
      intro x hx
      rcases List.mem_cons.1 hx with rfl | hx
      · exact hk
      · exact Nat.lt_trans hk (hp.1 x hx)
    · split
      · rename_i hk
        subst hk
        exact List.pairwise_cons.2 ⟨fun x hx => hp.1 x hx, hp.2⟩
      · rename_i h1 h2
        refine List.pairwise_cons.2 ⟨?_, ih hp.2⟩
        intro x hx
        rcases mem_putS r k v x hx with rfl | hx
        · exact Nat.lt_of_le_of_ne (Nat.le_of_not_lt h1) (Ne.symm h2)
        · exact hp.1 x hx

theorem keysUp_filter (m : Store α) (p : Nat × α → Bool) (h : keysUp m = true) : keysUp (m.filter p) = true := by
  rw [keysUp_iff] at h ⊢
  exact h.filter p

theorem keysUp_putDef [DecidableEq α] (m : Store α) (k : Nat) (v d : α) (h : keysUp m = true) :
    keysUp (putDef m k v d) = true := by
  unfold putDef
  split
  · exact keysUp_filter m _ h
  · exact keysUp_putS m k v h

theorem memWf_iff (m : Memory) : memWf m = true ↔ keysUp m = true ∧ ∀ x ∈ m, x.2 ≠ 0 := by
  simp [memWf, List.all_eq_true]

theorem memWf_nil : memWf [] = true := rfl

theorem memWf_filter (m : Memory) (p : Nat × Byte → Bool) (h : memWf m = true) : memWf (m.filter p) = true := by
  rw [memWf_iff] at h ⊢
  exact ⟨keysUp_filter m p h.1, fun x hx => h.2 x (List.mem_filter.1 hx).1⟩

/-- A write of a byte keeps the form: writing zero removes the entry. -/
theorem memWf_wrB (m : Memory) (a : Nat) (b : Byte) (h : memWf m = true) : memWf (wrB m a b) = true := by
  unfold wrB putDef
  split
  · exact memWf_filter m _ h
  · rename_i hb
    rw [memWf_iff] at h ⊢
    refine ⟨keysUp_putS m a b h.1, fun x hx => ?_⟩
    rcases mem_putS m a b x hx with rfl | hx
    · exact hb
    · exact h.2 x hx

theorem memWf_wrBytes (m : Memory) (a : Nat) (bs : List Byte) (h : memWf m = true) : memWf (wrBytes m a bs) = true := by
  induction bs generalizing m a with
  | nil => exact h
  | cons b bs ih => exact ih (wrB m a b) (a + 1) (memWf_wrB m a b h)

theorem memWf_wrNat (m : Memory) (a n v : Nat) (h : memWf m = true) : memWf (wrNat m a n v) = true :=
  memWf_wrBytes m a _ h

theorem memWf_wr32 (m : Memory) (a : Nat) (v : W32) (h : memWf m = true) : memWf (wr32 m a v) = true :=
  memWf_wrNat m a 4 v.toNat h

theorem memWf_wr32s (m : Memory) (a : Nat) (vs : List W32) (h : memWf m = true) : memWf (wr32s m a vs) = true := by
  induction vs generalizing m a with
  | nil => exact h
  | cons v vs ih => exact ih (wr32 m a v) (a + 4) (memWf_wr32 m a v h)

theorem memWf_clearRange (m : Memory) (lo n : Nat) (h : memWf m = true) : memWf (clearRange m lo n) = true :=
  memWf_filter m _ h

theorem memWf_zeroRange (m : Memory) (a n : Nat) (h : memWf m = true) : memWf (zeroRange m a n) = true :=
  memWf_clearRange m a n h

/-- Two memories in the canonical form that read alike are equal data. -/
theorem memWf_ext (m n : Memory) (hm : memWf m = true) (hn : memWf n = true) (h : ∀ a, rdB m a = rdB n a) : m = n := by
  have get : ∀ (l : Memory), memWf l = true → ∀ a b, (a, b) ∈ l ↔ (b ≠ 0 ∧ rdB l a = b) := by
    intro l
    induction l with
    | nil =>
      intro _ a b
      simp only [List.not_mem_nil, rdB, getD, getS_nil, Option.getD_none, false_iff]
      rintro ⟨h1, h2⟩
      exact h1 h2.symm
    | cons e r ih =>
      intro hl a b
      obtain ⟨j, w⟩ := e
      rw [memWf_iff, keysUp_iff, List.pairwise_cons] at hl
      have hr : memWf r = true := by
        rw [memWf_iff, keysUp_iff]
        exact ⟨hl.1.2, fun x hx => hl.2 x (by simp [hx])⟩
      have ihr := ih hr a b
      by_cases hja : j = a
      · subst hja
        have hnot : ∀ c, (j, c) ∉ r := fun c hc => Nat.lt_irrefl j (hl.1.1 (j, c) hc)
        have hw : w ≠ 0 := hl.2 (j, w) (by simp)
        constructor
        · intro hab
          rcases List.mem_cons.1 hab with hab | hab
          · obtain rfl : b = w := congrArg Prod.snd hab
            exact ⟨hw, by simp [rdB, getD, getS]⟩
          · exact absurd hab (hnot b)
        · rintro ⟨_, h2⟩
          have : w = b := by simpa [rdB, getD, getS] using h2
          simp [this]
      · have : rdB ((j, w) :: r) a = rdB r a := by simp [rdB, getD, getS, hja]
        rw [this, ← ihr]
        simp [Ne.symm hja]
  have hmn : ∀ x, x ∈ m ↔ x ∈ n := by
    rintro ⟨a, b⟩
    rw [get m hm, get n hn, h]
  have pm := (keysUp_iff m).1 ((memWf_iff m).1 hm).1
  have pn := (keysUp_iff n).1 ((memWf_iff n).1 hn).1
  have nd : ∀ l : Memory, l.Pairwise (fun x y => x.1 < y.1) → l.Nodup :=
    fun l hl => List.Pairwise.imp (fun {x y} (hab : x.1 < y.1) (he : x = y) => Nat.lt_irrefl y.1 (he ▸ hab)) hl
  have perm : m.Perm n := (List.perm_ext_iff_of_nodup (nd m pm) (nd n pn)).2 hmn
  refine perm.eq_of_pairwise ?_ pm pn
  intro x y _ _ hxy hyx
  exact absurd hxy (Nat.lt_asymm hyx)

end Sys2Proof.Machine
end

