-- ==== Sys2Proof/Laws/Regs.lean ====
section
/-! SUPPORT. Laws of the register file: a register after a write of the same or of another register, with the indexed
registers whose place depends on an index register. -/

namespace Sys2Proof.Machine

/-- The address of the index register on which the place of an indexed register depends. -/
def idxAddr (a : Nat) : Option Nat := ((rowAt a).bind (·.bank)).map (fun b => pageOf a + b.1)

/-- An indexed register's index register lies in its page, and the register is not its own index. -/
def rowSound (r : RegRow) : Bool :=
  match r.bank with
  | none => true
  | some (io, _, _) => decide (io < 4096) && !(decide (r.off ≤ io) && decide ((io - r.off) % r.st = 0) && decide ((io - r.off) / r.st < r.n))

theorem regsCommon_sound : regsCommon.all rowSound = true := by decide

theorem regsOf_sound (c : Nat) : (regsOf c).all rowSound = true := by
  unfold regsOf
  split <;> decide

theorem findRow_mem (rs : List RegRow) (i off : Nat) (r : RegRow) (h : findRow rs i off = some r) :
    r ∈ rs ∧ r.off ≤ off ∧ (off - r.off) % r.st = 0 ∧ (off - r.off) / r.st < r.n := by
  induction rs with
  | nil => simp [findRow] at h
  | cons x t ih =>
    unfold findRow at h
    split at h
    · rename_i hx
      obtain rfl : x = r := by simpa using h
      exact ⟨by simp, hx.1, hx.2.1, hx.2.2.1⟩
    · exact ⟨List.mem_cons_of_mem _ (ih h).1, (ih h).2⟩

theorem rowAt_sound (a : Nat) (r : RegRow) (h : rowAt a = some r) : rowSound r = true ∧
    r.off ≤ a % 4096 ∧ (a % 4096 - r.off) % r.st = 0 ∧ (a % 4096 - r.off) / r.st < r.n := by
  unfold rowAt at h
  simp only at h
  split at h
  · cases h
  · split at h
    · have := findRow_mem _ _ _ _ h
      exact ⟨List.all_eq_true.1 regsCommon_sound r this.1, this.2⟩
    · have := findRow_mem _ _ _ _ h
      exact ⟨List.all_eq_true.1 (regsOf_sound _) r this.1, this.2⟩

theorem pageOf_add_mod (a : Nat) : pageOf a + a % 4096 = a := by
  unfold pageOf; omega

/-- No register is its own index register, and an index register lies in the page of what it indexes. -/
theorem idxAddr_spec (a x : Nat) (h : idxAddr a = some x) : x ≠ a ∧ pageOf x = pageOf a := by
  unfold idxAddr at h
  cases hr : rowAt a with
  | none => simp [hr] at h
  | some r =>
    have hs := rowAt_sound a r hr
    cases hb : r.bank with
    | none => simp [hr, hb] at h
    | some b =>
      obtain ⟨io, hi, lo⟩ := b
      obtain rfl : pageOf a + io = x := by simpa [hr, hb] using h
      have hrs := hs.1
      simp only [rowSound, hb, Bool.and_eq_true, decide_eq_true_eq, Bool.not_eq_true', Bool.and_eq_false_iff,
        decide_eq_false_iff_not] at hrs
      have hm := pageOf_add_mod a
      refine ⟨fun he => ?_, by unfold pageOf; omega⟩
      have hio : io = a % 4096 := by omega
      subst hio
      rcases hrs.2 with (h1 | h1) | h1
      · exact h1 hs.2.1
      · exact h1 hs.2.2.1
      · exact h1 hs.2.2.2

/-- The place of a register: its address, and the index where it is indexed. -/
theorem regKey_cases (s : State) (a : Nat) :
    (idxAddr a = none ∧ regKey s a = a) ∨
    ∃ x n, idxAddr a = some x ∧ regKey s a = a + 0x20000000 * n := by
  unfold regKey idxAddr
  cases hb : (rowAt a).bind (·.bank) with
  | none => simp
  | some b => exact Or.inr ⟨_, _, rfl, rfl⟩

/-- The place of a register depends on its index register alone. -/
theorem regKey_congr (s t : State) (a : Nat)
    (h : ∀ x, idxAddr a = some x → getS t.regs x = getS s.regs x) : regKey t a = regKey s a := by
  unfold regKey
  unfold idxAddr at h
  cases hb : (rowAt a).bind (·.bank) with
  | none => rfl
  | some b =>
    obtain ⟨io, hi, lo⟩ := b
    have := h (pageOf a + io) (by simp [hb])
    simp [getD, this]

theorem regKey_setReg (s : State) (a b : Nat) (v : W32) (ha : a < 0x20000000) (hb : b < 0x20000000)
    (hi : idxAddr a ≠ some b) : regKey (setReg s b v) a = regKey s a := by
  refine regKey_congr s _ a (fun x hx => ?_)
  refine getS_putDef_of_ne _ _ _ _ _ (fun he => ?_)
  have hx2 := (idxAddr_spec a x hx).2
  have hxl : x < 0x20000000 := by
    have := pageOf_add_mod a
    unfold pageOf at hx2 this
    omega
  rcases regKey_cases s b with ⟨_, hk⟩ | ⟨_, n, _, hk⟩
  · rw [hk] at he; exact hi (he ▸ hx)
  · rw [hk] at he
    have hb' : b = x := by omega
    exact hi (hb' ▸ hx)

/-- What a register holds after it is written. -/
theorem reg_setReg_self (s : State) (a : Nat) (v : W32) (ha : a < 0x20000000) : reg (setReg s a v) a = v := by
  unfold reg
  rw [regKey_setReg s a a v ha ha (fun h => (idxAddr_spec a a h).1 rfl)]
  exact getD_putDef_self _ _ _ _

/-- A write of one register leaves another that it does not index as it was. -/
theorem reg_setReg_of_ne (s : State) (a b : Nat) (v : W32) (ha : a < 0x20000000) (hb : b < 0x20000000) (hab : b ≠ a)
    (hi : idxAddr a ≠ some b) : reg (setReg s b v) a = reg s a := by
  unfold reg
  rw [regKey_setReg s a b v ha hb hi]
  refine getD_putDef_of_ne _ _ _ _ _ _ (fun he => ?_)
  rcases regKey_cases s a with ⟨_, hk⟩ | ⟨_, n, _, hk⟩ <;> rcases regKey_cases s b with ⟨_, hk'⟩ | ⟨_, m, _, hk'⟩ <;>
    rw [hk, hk'] at he <;> omega

theorem regAt_setRegAt_self (s : State) (a b : Nat) (v : W32) : regAt (setRegAt s a b v) a b = v :=
  getD_putDef_self _ _ _ _

theorem regAt_setRegAt_of_ne (s : State) (a b c d : Nat) (v : W32) (hc : c < 0x20000000) (ha : a < 0x20000000)
    (h : (a, b) ≠ (c, d)) : regAt (setRegAt s a b v) c d = regAt s c d := by
  refine getD_putDef_of_ne _ _ _ _ _ _ (fun he => h ?_)
  have h1 : a = c := by omega
  have h2 : b = d := by omega
  rw [h1, h2]

/-- A write of a register changes the register file alone. -/
theorem setReg_eq (s : State) (a : Nat) (v : W32) : setReg s a v = { s with regs := (setReg s a v).regs } := rfl

theorem setRegAt_eq (s : State) (a b : Nat) (v : W32) : setRegAt s a b v = { s with regs := (setRegAt s a b v).regs } := rfl

/-- The common header has no indexed register. -/
theorem idxAddr_header (a : Nat) (h : a % 4096 < 0x28) : idxAddr a = none := by
  unfold idxAddr rowAt
  simp only [h, if_true]
  split
  · rfl
  · cases hr : findRow regsCommon 0 (a % 4096) with
    | none => rfl
    | some r =>
      have hm := (findRow_mem _ _ _ _ hr).1
      have : regsCommon.all (fun r => decide (r.bank = none)) = true := by decide
      have := List.all_eq_true.1 this r hm
      simp at this
      simp [this]

end Sys2Proof.Machine
end

