-- ==== Sys2Proof/Laws/State.lean ====
section
/-! SUPPORT. Each named update of the state leaves every other field as it is: one lemma for each field. -/

namespace Sys2Proof.Machine

variable (s : State)

/-! ### setReg -/

@[simp] theorem setReg_pending (a : Nat) (v : W32) : (setReg s a v).pending = s.pending := rfl
@[simp] theorem setReg_time (a : Nat) (v : W32) : (setReg s a v).time = s.time := rfl
@[simp] theorem setReg_staged (a : Nat) (v : W32) : (setReg s a v).staged = s.staged := rfl
@[simp] theorem setReg_capt (a : Nat) (v : W32) : (setReg s a v).capt = s.capt := rfl
@[simp] theorem setReg_bndStaged (a : Nat) (v : W32) : (setReg s a v).bndStaged = s.bndStaged := rfl
@[simp] theorem setReg_resp (a : Nat) (v : W32) : (setReg s a v).resp = s.resp := rfl
@[simp] theorem setReg_irqs (a : Nat) (v : W32) : (setReg s a v).irqs = s.irqs := rfl
@[simp] theorem setReg_mem (a : Nat) (v : W32) : (setReg s a v).mem = s.mem := rfl
@[simp] theorem setReg_host (a : Nat) (v : W32) : (setReg s a v).host = s.host := rfl
@[simp] theorem setReg_freeCtr (a : Nat) (v : W32) : (setReg s a v).freeCtr = s.freeCtr := rfl
@[simp] theorem setReg_sigOrd (a : Nat) (v : W32) : (setReg s a v).sigOrd = s.sigOrd := rfl
@[simp] theorem setReg_ledger (a : Nat) (v : W32) : (setReg s a v).ledger = s.ledger := rfl
@[simp] theorem setReg_mram (a : Nat) (v : W32) : (setReg s a v).mram = s.mram := rfl
@[simp] theorem setReg_mepoch (a : Nat) (v : W32) : (setReg s a v).mepoch = s.mepoch := rfl
@[simp] theorem setReg_streams (a : Nat) (v : W32) : (setReg s a v).streams = s.streams := rfl
@[simp] theorem setReg_tiles (a : Nat) (v : W32) : (setReg s a v).tiles = s.tiles := rfl
@[simp] theorem setReg_hams (a : Nat) (v : W32) : (setReg s a v).hams = s.hams := rfl
@[simp] theorem setReg_parts (a : Nat) (v : W32) : (setReg s a v).parts = s.parts := rfl
@[simp] theorem setReg_kcmLeft (a : Nat) (v : W32) : (setReg s a v).kcmLeft = s.kcmLeft := rfl
@[simp] theorem setReg_reqs (a : Nat) (v : W32) : (setReg s a v).reqs = s.reqs := rfl
@[simp] theorem setReg_reqWin (a : Nat) (v : W32) : (setReg s a v).reqWin = s.reqWin := rfl
@[simp] theorem setReg_admitSeq (a : Nat) (v : W32) : (setReg s a v).admitSeq = s.admitSeq := rfl
@[simp] theorem setReg_kvUsed (a : Nat) (v : W32) : (setReg s a v).kvUsed = s.kvUsed := rfl
@[simp] theorem setReg_hub (a : Nat) (v : W32) : (setReg s a v).hub = s.hub := rfl
@[simp] theorem setReg_hrWait (a : Nat) (v : W32) : (setReg s a v).hrWait = s.hrWait := rfl
@[simp] theorem setReg_cqProd (a : Nat) (v : W32) : (setReg s a v).cqProd = s.cqProd := rfl
@[simp] theorem setReg_cqOrder (a : Nat) (v : W32) : (setReg s a v).cqOrder = s.cqOrder := rfl
@[simp] theorem setReg_shipIn (a : Nat) (v : W32) : (setReg s a v).shipIn = s.shipIn := rfl
@[simp] theorem setReg_out (a : Nat) (v : W32) : (setReg s a v).out = s.out := rfl
@[simp] theorem setReg_slots (a : Nat) (v : W32) : (setReg s a v).slots = s.slots := rfl
@[simp] theorem setReg_lastEpoch (a : Nat) (v : W32) : (setReg s a v).lastEpoch = s.lastEpoch := rfl
@[simp] theorem setReg_lastSw (a : Nat) (v : W32) : (setReg s a v).lastSw = s.lastSw := rfl
@[simp] theorem setReg_epLoad (a : Nat) (v : W32) : (setReg s a v).epLoad = s.epLoad := rfl
@[simp] theorem setReg_recheckAt (a : Nat) (v : W32) : (setReg s a v).recheckAt = s.recheckAt := rfl
@[simp] theorem setReg_pubs (a : Nat) (v : W32) : (setReg s a v).pubs = s.pubs := rfl
@[simp] theorem setReg_epoAsm (a : Nat) (v : W32) : (setReg s a v).epoAsm = s.epoAsm := rfl
@[simp] theorem setReg_epoGot (a : Nat) (v : W32) : (setReg s a v).epoGot = s.epoGot := rfl
@[simp] theorem setReg_poison (a : Nat) (v : W32) : (setReg s a v).poison = s.poison := rfl
@[simp] theorem setReg_quar (a : Nat) (v : W32) : (setReg s a v).quar = s.quar := rfl
@[simp] theorem setReg_dark (a : Nat) (v : W32) : (setReg s a v).dark = s.dark := rfl
@[simp] theorem setReg_tray (a : Nat) (v : W32) : (setReg s a v).tray = s.tray := rfl
@[simp] theorem setReg_mcmd (a : Nat) (v : W32) : (setReg s a v).mcmd = s.mcmd := rfl
@[simp] theorem setReg_migs (a : Nat) (v : W32) : (setReg s a v).migs = s.migs := rfl
@[simp] theorem setReg_migWait (a : Nat) (v : W32) : (setReg s a v).migWait = s.migWait := rfl
@[simp] theorem setReg_farRet (a : Nat) (v : W32) : (setReg s a v).farRet = s.farRet := rfl
@[simp] theorem setReg_loft (a : Nat) (v : W32) : (setReg s a v).loft = s.loft := rfl
@[simp] theorem setReg_lcmd (a : Nat) (v : W32) : (setReg s a v).lcmd = s.lcmd := rfl
@[simp] theorem setReg_fab (a : Nat) (v : W32) : (setReg s a v).fab = s.fab := rfl
@[simp] theorem setReg_d2dBad (a : Nat) (v : W32) : (setReg s a v).d2dBad = s.d2dBad := rfl
@[simp] theorem setReg_criSeq (a : Nat) (v : W32) : (setReg s a v).criSeq = s.criSeq := rfl
@[simp] theorem setReg_criQ (a : Nat) (v : W32) : (setReg s a v).criQ = s.criQ := rfl
@[simp] theorem setReg_criTok (a : Nat) (v : W32) : (setReg s a v).criTok = s.criTok := rfl
@[simp] theorem setReg_criAt (a : Nat) (v : W32) : (setReg s a v).criAt = s.criAt := rfl
@[simp] theorem setReg_criRx (a : Nat) (v : W32) : (setReg s a v).criRx = s.criRx := rfl
@[simp] theorem setReg_deaths (a : Nat) (v : W32) : (setReg s a v).deaths = s.deaths := rfl
@[simp] theorem setReg_isl (a : Nat) (v : W32) : (setReg s a v).isl = s.isl := rfl
@[simp] theorem setReg_clamps (a : Nat) (v : W32) : (setReg s a v).clamps = s.clamps := rfl
@[simp] theorem setReg_vf (a : Nat) (v : W32) : (setReg s a v).vf = s.vf := rfl
@[simp] theorem setReg_power (a : Nat) (v : W32) : (setReg s a v).power = s.power := rfl
@[simp] theorem setReg_hotNs (a : Nat) (v : W32) : (setReg s a v).hotNs = s.hotNs := rfl
@[simp] theorem setReg_live (a : Nat) (v : W32) : (setReg s a v).live = s.live := rfl
@[simp] theorem setReg_meas (a : Nat) (v : W32) : (setReg s a v).meas = s.meas := rfl
@[simp] theorem setReg_ownKeys (a : Nat) (v : W32) : (setReg s a v).ownKeys = s.ownKeys := rfl
@[simp] theorem setReg_ownRev (a : Nat) (v : W32) : (setReg s a v).ownRev = s.ownRev := rfl
@[simp] theorem setReg_fw (a : Nat) (v : W32) : (setReg s a v).fw = s.fw := rfl
@[simp] theorem setReg_spdm (a : Nat) (v : W32) : (setReg s a v).spdm = s.spdm := rfl
@[simp] theorem setReg_pldm (a : Nat) (v : W32) : (setReg s a v).pldm = s.pldm := rfl
@[simp] theorem setReg_vinLow (a : Nat) (v : W32) : (setReg s a v).vinLow = s.vinLow := rfl
@[simp] theorem setReg_tripped (a : Nat) (v : W32) : (setReg s a v).tripped = s.tripped := rfl
@[simp] theorem setReg_swapReq (a : Nat) (v : W32) : (setReg s a v).swapReq = s.swapReq := rfl
@[simp] theorem setReg_swapOk (a : Nat) (v : W32) : (setReg s a v).swapOk = s.swapOk := rfl
@[simp] theorem setReg_paused (a : Nat) (v : W32) : (setReg s a v).paused = s.paused := rfl
@[simp] theorem setReg_criHold (a : Nat) (v : W32) : (setReg s a v).criHold = s.criHold := rfl
@[simp] theorem setReg_gone (a : Nat) (v : W32) : (setReg s a v).gone = s.gone := rfl
@[simp] theorem setReg_heard (a : Nat) (v : W32) : (setReg s a v).heard = s.heard := rfl
@[simp] theorem setReg_hbAt (a : Nat) (v : W32) : (setReg s a v).hbAt = s.hbAt := rfl
@[simp] theorem setReg_watch (a : Nat) (v : W32) : (setReg s a v).watch = s.watch := rfl
@[simp] theorem setReg_reports (a : Nat) (v : W32) : (setReg s a v).reports = s.reports := rfl
@[simp] theorem setReg_hltAt (a : Nat) (v : W32) : (setReg s a v).hltAt = s.hltAt := rfl
@[simp] theorem setReg_hltRun (a : Nat) (v : W32) : (setReg s a v).hltRun = s.hltRun := rfl
@[simp] theorem setReg_hltOk (a : Nat) (v : W32) : (setReg s a v).hltOk = s.hltOk := rfl
@[simp] theorem setReg_hltRec (a : Nat) (v : W32) : (setReg s a v).hltRec = s.hltRec := rfl
@[simp] theorem setReg_hltSaved (a : Nat) (v : W32) : (setReg s a v).hltSaved = s.hltSaved := rfl
@[simp] theorem setReg_hltClr (a : Nat) (v : W32) : (setReg s a v).hltClr = s.hltClr := rfl
@[simp] theorem setReg_restoreDue (a : Nat) (v : W32) : (setReg s a v).restoreDue = s.restoreDue := rfl
@[simp] theorem setReg_mirrors (a : Nat) (v : W32) : (setReg s a v).mirrors = s.mirrors := rfl
@[simp] theorem setReg_ck (a : Nat) (v : W32) : (setReg s a v).ck = s.ck := rfl
@[simp] theorem setReg_leaseAt (a : Nat) (v : W32) : (setReg s a v).leaseAt = s.leaseAt := rfl
@[simp] theorem setReg_durable (a : Nat) (v : W32) : (setReg s a v).durable = s.durable := rfl
@[simp] theorem setReg_ckCheckAt (a : Nat) (v : W32) : (setReg s a v).ckCheckAt = s.ckCheckAt := rfl
@[simp] theorem setReg_restoreAt (a : Nat) (v : W32) : (setReg s a v).restoreAt = s.restoreAt := rfl
@[simp] theorem setReg_census (a : Nat) (v : W32) : (setReg s a v).census = s.census := rfl

/-! ### setRegAt -/

@[simp] theorem setRegAt_pending (a b : Nat) (v : W32) : (setRegAt s a b v).pending = s.pending := rfl
@[simp] theorem setRegAt_time (a b : Nat) (v : W32) : (setRegAt s a b v).time = s.time := rfl
@[simp] theorem setRegAt_staged (a b : Nat) (v : W32) : (setRegAt s a b v).staged = s.staged := rfl
@[simp] theorem setRegAt_capt (a b : Nat) (v : W32) : (setRegAt s a b v).capt = s.capt := rfl
@[simp] theorem setRegAt_bndStaged (a b : Nat) (v : W32) : (setRegAt s a b v).bndStaged = s.bndStaged := rfl
@[simp] theorem setRegAt_resp (a b : Nat) (v : W32) : (setRegAt s a b v).resp = s.resp := rfl
@[simp] theorem setRegAt_irqs (a b : Nat) (v : W32) : (setRegAt s a b v).irqs = s.irqs := rfl
@[simp] theorem setRegAt_mem (a b : Nat) (v : W32) : (setRegAt s a b v).mem = s.mem := rfl
@[simp] theorem setRegAt_host (a b : Nat) (v : W32) : (setRegAt s a b v).host = s.host := rfl
@[simp] theorem setRegAt_freeCtr (a b : Nat) (v : W32) : (setRegAt s a b v).freeCtr = s.freeCtr := rfl
@[simp] theorem setRegAt_sigOrd (a b : Nat) (v : W32) : (setRegAt s a b v).sigOrd = s.sigOrd := rfl
@[simp] theorem setRegAt_ledger (a b : Nat) (v : W32) : (setRegAt s a b v).ledger = s.ledger := rfl
@[simp] theorem setRegAt_mram (a b : Nat) (v : W32) : (setRegAt s a b v).mram = s.mram := rfl
@[simp] theorem setRegAt_mepoch (a b : Nat) (v : W32) : (setRegAt s a b v).mepoch = s.mepoch := rfl
@[simp] theorem setRegAt_streams (a b : Nat) (v : W32) : (setRegAt s a b v).streams = s.streams := rfl
@[simp] theorem setRegAt_tiles (a b : Nat) (v : W32) : (setRegAt s a b v).tiles = s.tiles := rfl
@[simp] theorem setRegAt_hams (a b : Nat) (v : W32) : (setRegAt s a b v).hams = s.hams := rfl
@[simp] theorem setRegAt_parts (a b : Nat) (v : W32) : (setRegAt s a b v).parts = s.parts := rfl
@[simp] theorem setRegAt_kcmLeft (a b : Nat) (v : W32) : (setRegAt s a b v).kcmLeft = s.kcmLeft := rfl
@[simp] theorem setRegAt_reqs (a b : Nat) (v : W32) : (setRegAt s a b v).reqs = s.reqs := rfl
@[simp] theorem setRegAt_reqWin (a b : Nat) (v : W32) : (setRegAt s a b v).reqWin = s.reqWin := rfl
@[simp] theorem setRegAt_admitSeq (a b : Nat) (v : W32) : (setRegAt s a b v).admitSeq = s.admitSeq := rfl
@[simp] theorem setRegAt_kvUsed (a b : Nat) (v : W32) : (setRegAt s a b v).kvUsed = s.kvUsed := rfl
@[simp] theorem setRegAt_hub (a b : Nat) (v : W32) : (setRegAt s a b v).hub = s.hub := rfl
@[simp] theorem setRegAt_hrWait (a b : Nat) (v : W32) : (setRegAt s a b v).hrWait = s.hrWait := rfl
@[simp] theorem setRegAt_cqProd (a b : Nat) (v : W32) : (setRegAt s a b v).cqProd = s.cqProd := rfl
@[simp] theorem setRegAt_cqOrder (a b : Nat) (v : W32) : (setRegAt s a b v).cqOrder = s.cqOrder := rfl
@[simp] theorem setRegAt_shipIn (a b : Nat) (v : W32) : (setRegAt s a b v).shipIn = s.shipIn := rfl
@[simp] theorem setRegAt_out (a b : Nat) (v : W32) : (setRegAt s a b v).out = s.out := rfl
@[simp] theorem setRegAt_slots (a b : Nat) (v : W32) : (setRegAt s a b v).slots = s.slots := rfl
@[simp] theorem setRegAt_lastEpoch (a b : Nat) (v : W32) : (setRegAt s a b v).lastEpoch = s.lastEpoch := rfl
@[simp] theorem setRegAt_lastSw (a b : Nat) (v : W32) : (setRegAt s a b v).lastSw = s.lastSw := rfl
@[simp] theorem setRegAt_epLoad (a b : Nat) (v : W32) : (setRegAt s a b v).epLoad = s.epLoad := rfl
@[simp] theorem setRegAt_recheckAt (a b : Nat) (v : W32) : (setRegAt s a b v).recheckAt = s.recheckAt := rfl
@[simp] theorem setRegAt_pubs (a b : Nat) (v : W32) : (setRegAt s a b v).pubs = s.pubs := rfl
@[simp] theorem setRegAt_epoAsm (a b : Nat) (v : W32) : (setRegAt s a b v).epoAsm = s.epoAsm := rfl
@[simp] theorem setRegAt_epoGot (a b : Nat) (v : W32) : (setRegAt s a b v).epoGot = s.epoGot := rfl
@[simp] theorem setRegAt_poison (a b : Nat) (v : W32) : (setRegAt s a b v).poison = s.poison := rfl
@[simp] theorem setRegAt_quar (a b : Nat) (v : W32) : (setRegAt s a b v).quar = s.quar := rfl
@[simp] theorem setRegAt_dark (a b : Nat) (v : W32) : (setRegAt s a b v).dark = s.dark := rfl
@[simp] theorem setRegAt_tray (a b : Nat) (v : W32) : (setRegAt s a b v).tray = s.tray := rfl
@[simp] theorem setRegAt_mcmd (a b : Nat) (v : W32) : (setRegAt s a b v).mcmd = s.mcmd := rfl
@[simp] theorem setRegAt_migs (a b : Nat) (v : W32) : (setRegAt s a b v).migs = s.migs := rfl
@[simp] theorem setRegAt_migWait (a b : Nat) (v : W32) : (setRegAt s a b v).migWait = s.migWait := rfl
@[simp] theorem setRegAt_farRet (a b : Nat) (v : W32) : (setRegAt s a b v).farRet = s.farRet := rfl
@[simp] theorem setRegAt_loft (a b : Nat) (v : W32) : (setRegAt s a b v).loft = s.loft := rfl
@[simp] theorem setRegAt_lcmd (a b : Nat) (v : W32) : (setRegAt s a b v).lcmd = s.lcmd := rfl
@[simp] theorem setRegAt_fab (a b : Nat) (v : W32) : (setRegAt s a b v).fab = s.fab := rfl
@[simp] theorem setRegAt_d2dBad (a b : Nat) (v : W32) : (setRegAt s a b v).d2dBad = s.d2dBad := rfl
@[simp] theorem setRegAt_criSeq (a b : Nat) (v : W32) : (setRegAt s a b v).criSeq = s.criSeq := rfl
@[simp] theorem setRegAt_criQ (a b : Nat) (v : W32) : (setRegAt s a b v).criQ = s.criQ := rfl
@[simp] theorem setRegAt_criTok (a b : Nat) (v : W32) : (setRegAt s a b v).criTok = s.criTok := rfl
@[simp] theorem setRegAt_criAt (a b : Nat) (v : W32) : (setRegAt s a b v).criAt = s.criAt := rfl
@[simp] theorem setRegAt_criRx (a b : Nat) (v : W32) : (setRegAt s a b v).criRx = s.criRx := rfl
@[simp] theorem setRegAt_deaths (a b : Nat) (v : W32) : (setRegAt s a b v).deaths = s.deaths := rfl
@[simp] theorem setRegAt_isl (a b : Nat) (v : W32) : (setRegAt s a b v).isl = s.isl := rfl
@[simp] theorem setRegAt_clamps (a b : Nat) (v : W32) : (setRegAt s a b v).clamps = s.clamps := rfl
@[simp] theorem setRegAt_vf (a b : Nat) (v : W32) : (setRegAt s a b v).vf = s.vf := rfl
@[simp] theorem setRegAt_power (a b : Nat) (v : W32) : (setRegAt s a b v).power = s.power := rfl
@[simp] theorem setRegAt_hotNs (a b : Nat) (v : W32) : (setRegAt s a b v).hotNs = s.hotNs := rfl
@[simp] theorem setRegAt_live (a b : Nat) (v : W32) : (setRegAt s a b v).live = s.live := rfl
@[simp] theorem setRegAt_meas (a b : Nat) (v : W32) : (setRegAt s a b v).meas = s.meas := rfl
@[simp] theorem setRegAt_ownKeys (a b : Nat) (v : W32) : (setRegAt s a b v).ownKeys = s.ownKeys := rfl
@[simp] theorem setRegAt_ownRev (a b : Nat) (v : W32) : (setRegAt s a b v).ownRev = s.ownRev := rfl
@[simp] theorem setRegAt_fw (a b : Nat) (v : W32) : (setRegAt s a b v).fw = s.fw := rfl
@[simp] theorem setRegAt_spdm (a b : Nat) (v : W32) : (setRegAt s a b v).spdm = s.spdm := rfl
@[simp] theorem setRegAt_pldm (a b : Nat) (v : W32) : (setRegAt s a b v).pldm = s.pldm := rfl
@[simp] theorem setRegAt_vinLow (a b : Nat) (v : W32) : (setRegAt s a b v).vinLow = s.vinLow := rfl
@[simp] theorem setRegAt_tripped (a b : Nat) (v : W32) : (setRegAt s a b v).tripped = s.tripped := rfl
@[simp] theorem setRegAt_swapReq (a b : Nat) (v : W32) : (setRegAt s a b v).swapReq = s.swapReq := rfl
@[simp] theorem setRegAt_swapOk (a b : Nat) (v : W32) : (setRegAt s a b v).swapOk = s.swapOk := rfl
@[simp] theorem setRegAt_paused (a b : Nat) (v : W32) : (setRegAt s a b v).paused = s.paused := rfl
@[simp] theorem setRegAt_criHold (a b : Nat) (v : W32) : (setRegAt s a b v).criHold = s.criHold := rfl
@[simp] theorem setRegAt_gone (a b : Nat) (v : W32) : (setRegAt s a b v).gone = s.gone := rfl
@[simp] theorem setRegAt_heard (a b : Nat) (v : W32) : (setRegAt s a b v).heard = s.heard := rfl
@[simp] theorem setRegAt_hbAt (a b : Nat) (v : W32) : (setRegAt s a b v).hbAt = s.hbAt := rfl
@[simp] theorem setRegAt_watch (a b : Nat) (v : W32) : (setRegAt s a b v).watch = s.watch := rfl
@[simp] theorem setRegAt_reports (a b : Nat) (v : W32) : (setRegAt s a b v).reports = s.reports := rfl
@[simp] theorem setRegAt_hltAt (a b : Nat) (v : W32) : (setRegAt s a b v).hltAt = s.hltAt := rfl
@[simp] theorem setRegAt_hltRun (a b : Nat) (v : W32) : (setRegAt s a b v).hltRun = s.hltRun := rfl
@[simp] theorem setRegAt_hltOk (a b : Nat) (v : W32) : (setRegAt s a b v).hltOk = s.hltOk := rfl
@[simp] theorem setRegAt_hltRec (a b : Nat) (v : W32) : (setRegAt s a b v).hltRec = s.hltRec := rfl
@[simp] theorem setRegAt_hltSaved (a b : Nat) (v : W32) : (setRegAt s a b v).hltSaved = s.hltSaved := rfl
@[simp] theorem setRegAt_hltClr (a b : Nat) (v : W32) : (setRegAt s a b v).hltClr = s.hltClr := rfl
@[simp] theorem setRegAt_restoreDue (a b : Nat) (v : W32) : (setRegAt s a b v).restoreDue = s.restoreDue := rfl
@[simp] theorem setRegAt_mirrors (a b : Nat) (v : W32) : (setRegAt s a b v).mirrors = s.mirrors := rfl
@[simp] theorem setRegAt_ck (a b : Nat) (v : W32) : (setRegAt s a b v).ck = s.ck := rfl
@[simp] theorem setRegAt_leaseAt (a b : Nat) (v : W32) : (setRegAt s a b v).leaseAt = s.leaseAt := rfl
@[simp] theorem setRegAt_durable (a b : Nat) (v : W32) : (setRegAt s a b v).durable = s.durable := rfl
@[simp] theorem setRegAt_ckCheckAt (a b : Nat) (v : W32) : (setRegAt s a b v).ckCheckAt = s.ckCheckAt := rfl
@[simp] theorem setRegAt_restoreAt (a b : Nat) (v : W32) : (setRegAt s a b v).restoreAt = s.restoreAt := rfl
@[simp] theorem setRegAt_census (a b : Nat) (v : W32) : (setRegAt s a b v).census = s.census := rfl

/-! ### setHam -/

@[simp] theorem setHam_pending (h : Nat) (x : Hamlet) : (setHam s h x).pending = s.pending := rfl
@[simp] theorem setHam_time (h : Nat) (x : Hamlet) : (setHam s h x).time = s.time := rfl
@[simp] theorem setHam_regs (h : Nat) (x : Hamlet) : (setHam s h x).regs = s.regs := rfl
@[simp] theorem setHam_staged (h : Nat) (x : Hamlet) : (setHam s h x).staged = s.staged := rfl
@[simp] theorem setHam_capt (h : Nat) (x : Hamlet) : (setHam s h x).capt = s.capt := rfl
@[simp] theorem setHam_bndStaged (h : Nat) (x : Hamlet) : (setHam s h x).bndStaged = s.bndStaged := rfl
@[simp] theorem setHam_resp (h : Nat) (x : Hamlet) : (setHam s h x).resp = s.resp := rfl
@[simp] theorem setHam_irqs (h : Nat) (x : Hamlet) : (setHam s h x).irqs = s.irqs := rfl
@[simp] theorem setHam_mem (h : Nat) (x : Hamlet) : (setHam s h x).mem = s.mem := rfl
@[simp] theorem setHam_host (h : Nat) (x : Hamlet) : (setHam s h x).host = s.host := rfl
@[simp] theorem setHam_freeCtr (h : Nat) (x : Hamlet) : (setHam s h x).freeCtr = s.freeCtr := rfl
@[simp] theorem setHam_sigOrd (h : Nat) (x : Hamlet) : (setHam s h x).sigOrd = s.sigOrd := rfl
@[simp] theorem setHam_ledger (h : Nat) (x : Hamlet) : (setHam s h x).ledger = s.ledger := rfl
@[simp] theorem setHam_mram (h : Nat) (x : Hamlet) : (setHam s h x).mram = s.mram := rfl
@[simp] theorem setHam_mepoch (h : Nat) (x : Hamlet) : (setHam s h x).mepoch = s.mepoch := rfl
@[simp] theorem setHam_streams (h : Nat) (x : Hamlet) : (setHam s h x).streams = s.streams := rfl
@[simp] theorem setHam_tiles (h : Nat) (x : Hamlet) : (setHam s h x).tiles = s.tiles := rfl
@[simp] theorem setHam_parts (h : Nat) (x : Hamlet) : (setHam s h x).parts = s.parts := rfl
@[simp] theorem setHam_kcmLeft (h : Nat) (x : Hamlet) : (setHam s h x).kcmLeft = s.kcmLeft := rfl
@[simp] theorem setHam_reqs (h : Nat) (x : Hamlet) : (setHam s h x).reqs = s.reqs := rfl
@[simp] theorem setHam_reqWin (h : Nat) (x : Hamlet) : (setHam s h x).reqWin = s.reqWin := rfl
@[simp] theorem setHam_admitSeq (h : Nat) (x : Hamlet) : (setHam s h x).admitSeq = s.admitSeq := rfl
@[simp] theorem setHam_kvUsed (h : Nat) (x : Hamlet) : (setHam s h x).kvUsed = s.kvUsed := rfl
@[simp] theorem setHam_hub (h : Nat) (x : Hamlet) : (setHam s h x).hub = s.hub := rfl
@[simp] theorem setHam_hrWait (h : Nat) (x : Hamlet) : (setHam s h x).hrWait = s.hrWait := rfl
@[simp] theorem setHam_cqProd (h : Nat) (x : Hamlet) : (setHam s h x).cqProd = s.cqProd := rfl
@[simp] theorem setHam_cqOrder (h : Nat) (x : Hamlet) : (setHam s h x).cqOrder = s.cqOrder := rfl
@[simp] theorem setHam_shipIn (h : Nat) (x : Hamlet) : (setHam s h x).shipIn = s.shipIn := rfl
@[simp] theorem setHam_out (h : Nat) (x : Hamlet) : (setHam s h x).out = s.out := rfl
@[simp] theorem setHam_slots (h : Nat) (x : Hamlet) : (setHam s h x).slots = s.slots := rfl
@[simp] theorem setHam_lastEpoch (h : Nat) (x : Hamlet) : (setHam s h x).lastEpoch = s.lastEpoch := rfl
@[simp] theorem setHam_lastSw (h : Nat) (x : Hamlet) : (setHam s h x).lastSw = s.lastSw := rfl
@[simp] theorem setHam_epLoad (h : Nat) (x : Hamlet) : (setHam s h x).epLoad = s.epLoad := rfl
@[simp] theorem setHam_recheckAt (h : Nat) (x : Hamlet) : (setHam s h x).recheckAt = s.recheckAt := rfl
@[simp] theorem setHam_pubs (h : Nat) (x : Hamlet) : (setHam s h x).pubs = s.pubs := rfl
@[simp] theorem setHam_epoAsm (h : Nat) (x : Hamlet) : (setHam s h x).epoAsm = s.epoAsm := rfl
@[simp] theorem setHam_epoGot (h : Nat) (x : Hamlet) : (setHam s h x).epoGot = s.epoGot := rfl
@[simp] theorem setHam_poison (h : Nat) (x : Hamlet) : (setHam s h x).poison = s.poison := rfl
@[simp] theorem setHam_quar (h : Nat) (x : Hamlet) : (setHam s h x).quar = s.quar := rfl
@[simp] theorem setHam_dark (h : Nat) (x : Hamlet) : (setHam s h x).dark = s.dark := rfl
@[simp] theorem setHam_tray (h : Nat) (x : Hamlet) : (setHam s h x).tray = s.tray := rfl
@[simp] theorem setHam_mcmd (h : Nat) (x : Hamlet) : (setHam s h x).mcmd = s.mcmd := rfl
@[simp] theorem setHam_migs (h : Nat) (x : Hamlet) : (setHam s h x).migs = s.migs := rfl
@[simp] theorem setHam_migWait (h : Nat) (x : Hamlet) : (setHam s h x).migWait = s.migWait := rfl
@[simp] theorem setHam_farRet (h : Nat) (x : Hamlet) : (setHam s h x).farRet = s.farRet := rfl
@[simp] theorem setHam_loft (h : Nat) (x : Hamlet) : (setHam s h x).loft = s.loft := rfl
@[simp] theorem setHam_lcmd (h : Nat) (x : Hamlet) : (setHam s h x).lcmd = s.lcmd := rfl
@[simp] theorem setHam_fab (h : Nat) (x : Hamlet) : (setHam s h x).fab = s.fab := rfl
@[simp] theorem setHam_d2dBad (h : Nat) (x : Hamlet) : (setHam s h x).d2dBad = s.d2dBad := rfl
@[simp] theorem setHam_criSeq (h : Nat) (x : Hamlet) : (setHam s h x).criSeq = s.criSeq := rfl
@[simp] theorem setHam_criQ (h : Nat) (x : Hamlet) : (setHam s h x).criQ = s.criQ := rfl
@[simp] theorem setHam_criTok (h : Nat) (x : Hamlet) : (setHam s h x).criTok = s.criTok := rfl
@[simp] theorem setHam_criAt (h : Nat) (x : Hamlet) : (setHam s h x).criAt = s.criAt := rfl
@[simp] theorem setHam_criRx (h : Nat) (x : Hamlet) : (setHam s h x).criRx = s.criRx := rfl
@[simp] theorem setHam_deaths (h : Nat) (x : Hamlet) : (setHam s h x).deaths = s.deaths := rfl
@[simp] theorem setHam_isl (h : Nat) (x : Hamlet) : (setHam s h x).isl = s.isl := rfl
@[simp] theorem setHam_clamps (h : Nat) (x : Hamlet) : (setHam s h x).clamps = s.clamps := rfl
@[simp] theorem setHam_vf (h : Nat) (x : Hamlet) : (setHam s h x).vf = s.vf := rfl
@[simp] theorem setHam_power (h : Nat) (x : Hamlet) : (setHam s h x).power = s.power := rfl
@[simp] theorem setHam_hotNs (h : Nat) (x : Hamlet) : (setHam s h x).hotNs = s.hotNs := rfl
@[simp] theorem setHam_live (h : Nat) (x : Hamlet) : (setHam s h x).live = s.live := rfl
@[simp] theorem setHam_meas (h : Nat) (x : Hamlet) : (setHam s h x).meas = s.meas := rfl
@[simp] theorem setHam_ownKeys (h : Nat) (x : Hamlet) : (setHam s h x).ownKeys = s.ownKeys := rfl
@[simp] theorem setHam_ownRev (h : Nat) (x : Hamlet) : (setHam s h x).ownRev = s.ownRev := rfl
@[simp] theorem setHam_fw (h : Nat) (x : Hamlet) : (setHam s h x).fw = s.fw := rfl
@[simp] theorem setHam_spdm (h : Nat) (x : Hamlet) : (setHam s h x).spdm = s.spdm := rfl
@[simp] theorem setHam_pldm (h : Nat) (x : Hamlet) : (setHam s h x).pldm = s.pldm := rfl
@[simp] theorem setHam_vinLow (h : Nat) (x : Hamlet) : (setHam s h x).vinLow = s.vinLow := rfl
@[simp] theorem setHam_tripped (h : Nat) (x : Hamlet) : (setHam s h x).tripped = s.tripped := rfl
@[simp] theorem setHam_swapReq (h : Nat) (x : Hamlet) : (setHam s h x).swapReq = s.swapReq := rfl
@[simp] theorem setHam_swapOk (h : Nat) (x : Hamlet) : (setHam s h x).swapOk = s.swapOk := rfl
@[simp] theorem setHam_paused (h : Nat) (x : Hamlet) : (setHam s h x).paused = s.paused := rfl
@[simp] theorem setHam_criHold (h : Nat) (x : Hamlet) : (setHam s h x).criHold = s.criHold := rfl
@[simp] theorem setHam_gone (h : Nat) (x : Hamlet) : (setHam s h x).gone = s.gone := rfl
@[simp] theorem setHam_heard (h : Nat) (x : Hamlet) : (setHam s h x).heard = s.heard := rfl
@[simp] theorem setHam_hbAt (h : Nat) (x : Hamlet) : (setHam s h x).hbAt = s.hbAt := rfl
@[simp] theorem setHam_watch (h : Nat) (x : Hamlet) : (setHam s h x).watch = s.watch := rfl
@[simp] theorem setHam_reports (h : Nat) (x : Hamlet) : (setHam s h x).reports = s.reports := rfl
@[simp] theorem setHam_hltAt (h : Nat) (x : Hamlet) : (setHam s h x).hltAt = s.hltAt := rfl
@[simp] theorem setHam_hltRun (h : Nat) (x : Hamlet) : (setHam s h x).hltRun = s.hltRun := rfl
@[simp] theorem setHam_hltOk (h : Nat) (x : Hamlet) : (setHam s h x).hltOk = s.hltOk := rfl
@[simp] theorem setHam_hltRec (h : Nat) (x : Hamlet) : (setHam s h x).hltRec = s.hltRec := rfl
@[simp] theorem setHam_hltSaved (h : Nat) (x : Hamlet) : (setHam s h x).hltSaved = s.hltSaved := rfl
@[simp] theorem setHam_hltClr (h : Nat) (x : Hamlet) : (setHam s h x).hltClr = s.hltClr := rfl
@[simp] theorem setHam_restoreDue (h : Nat) (x : Hamlet) : (setHam s h x).restoreDue = s.restoreDue := rfl
@[simp] theorem setHam_mirrors (h : Nat) (x : Hamlet) : (setHam s h x).mirrors = s.mirrors := rfl
@[simp] theorem setHam_ck (h : Nat) (x : Hamlet) : (setHam s h x).ck = s.ck := rfl
@[simp] theorem setHam_leaseAt (h : Nat) (x : Hamlet) : (setHam s h x).leaseAt = s.leaseAt := rfl
@[simp] theorem setHam_durable (h : Nat) (x : Hamlet) : (setHam s h x).durable = s.durable := rfl
@[simp] theorem setHam_ckCheckAt (h : Nat) (x : Hamlet) : (setHam s h x).ckCheckAt = s.ckCheckAt := rfl
@[simp] theorem setHam_restoreAt (h : Nat) (x : Hamlet) : (setHam s h x).restoreAt = s.restoreAt := rfl
@[simp] theorem setHam_census (h : Nat) (x : Hamlet) : (setHam s h x).census = s.census := rfl

/-! ### setStr -/

@[simp] theorem setStr_pending (h q : Nat) (x : Stream) : (setStr s h q x).pending = s.pending := rfl
@[simp] theorem setStr_time (h q : Nat) (x : Stream) : (setStr s h q x).time = s.time := rfl
@[simp] theorem setStr_regs (h q : Nat) (x : Stream) : (setStr s h q x).regs = s.regs := rfl
@[simp] theorem setStr_staged (h q : Nat) (x : Stream) : (setStr s h q x).staged = s.staged := rfl
@[simp] theorem setStr_capt (h q : Nat) (x : Stream) : (setStr s h q x).capt = s.capt := rfl
@[simp] theorem setStr_bndStaged (h q : Nat) (x : Stream) : (setStr s h q x).bndStaged = s.bndStaged := rfl
@[simp] theorem setStr_resp (h q : Nat) (x : Stream) : (setStr s h q x).resp = s.resp := rfl
@[simp] theorem setStr_irqs (h q : Nat) (x : Stream) : (setStr s h q x).irqs = s.irqs := rfl
@[simp] theorem setStr_mem (h q : Nat) (x : Stream) : (setStr s h q x).mem = s.mem := rfl
@[simp] theorem setStr_host (h q : Nat) (x : Stream) : (setStr s h q x).host = s.host := rfl
@[simp] theorem setStr_freeCtr (h q : Nat) (x : Stream) : (setStr s h q x).freeCtr = s.freeCtr := rfl
@[simp] theorem setStr_sigOrd (h q : Nat) (x : Stream) : (setStr s h q x).sigOrd = s.sigOrd := rfl
@[simp] theorem setStr_ledger (h q : Nat) (x : Stream) : (setStr s h q x).ledger = s.ledger := rfl
@[simp] theorem setStr_mram (h q : Nat) (x : Stream) : (setStr s h q x).mram = s.mram := rfl
@[simp] theorem setStr_mepoch (h q : Nat) (x : Stream) : (setStr s h q x).mepoch = s.mepoch := rfl
@[simp] theorem setStr_tiles (h q : Nat) (x : Stream) : (setStr s h q x).tiles = s.tiles := rfl
@[simp] theorem setStr_hams (h q : Nat) (x : Stream) : (setStr s h q x).hams = s.hams := rfl
@[simp] theorem setStr_parts (h q : Nat) (x : Stream) : (setStr s h q x).parts = s.parts := rfl
@[simp] theorem setStr_kcmLeft (h q : Nat) (x : Stream) : (setStr s h q x).kcmLeft = s.kcmLeft := rfl
@[simp] theorem setStr_reqs (h q : Nat) (x : Stream) : (setStr s h q x).reqs = s.reqs := rfl
@[simp] theorem setStr_reqWin (h q : Nat) (x : Stream) : (setStr s h q x).reqWin = s.reqWin := rfl
@[simp] theorem setStr_admitSeq (h q : Nat) (x : Stream) : (setStr s h q x).admitSeq = s.admitSeq := rfl
@[simp] theorem setStr_kvUsed (h q : Nat) (x : Stream) : (setStr s h q x).kvUsed = s.kvUsed := rfl
@[simp] theorem setStr_hub (h q : Nat) (x : Stream) : (setStr s h q x).hub = s.hub := rfl
@[simp] theorem setStr_hrWait (h q : Nat) (x : Stream) : (setStr s h q x).hrWait = s.hrWait := rfl
@[simp] theorem setStr_cqProd (h q : Nat) (x : Stream) : (setStr s h q x).cqProd = s.cqProd := rfl
@[simp] theorem setStr_cqOrder (h q : Nat) (x : Stream) : (setStr s h q x).cqOrder = s.cqOrder := rfl
@[simp] theorem setStr_shipIn (h q : Nat) (x : Stream) : (setStr s h q x).shipIn = s.shipIn := rfl
@[simp] theorem setStr_out (h q : Nat) (x : Stream) : (setStr s h q x).out = s.out := rfl
@[simp] theorem setStr_slots (h q : Nat) (x : Stream) : (setStr s h q x).slots = s.slots := rfl
@[simp] theorem setStr_lastEpoch (h q : Nat) (x : Stream) : (setStr s h q x).lastEpoch = s.lastEpoch := rfl
@[simp] theorem setStr_lastSw (h q : Nat) (x : Stream) : (setStr s h q x).lastSw = s.lastSw := rfl
@[simp] theorem setStr_epLoad (h q : Nat) (x : Stream) : (setStr s h q x).epLoad = s.epLoad := rfl
@[simp] theorem setStr_recheckAt (h q : Nat) (x : Stream) : (setStr s h q x).recheckAt = s.recheckAt := rfl
@[simp] theorem setStr_pubs (h q : Nat) (x : Stream) : (setStr s h q x).pubs = s.pubs := rfl
@[simp] theorem setStr_epoAsm (h q : Nat) (x : Stream) : (setStr s h q x).epoAsm = s.epoAsm := rfl
@[simp] theorem setStr_epoGot (h q : Nat) (x : Stream) : (setStr s h q x).epoGot = s.epoGot := rfl
@[simp] theorem setStr_poison (h q : Nat) (x : Stream) : (setStr s h q x).poison = s.poison := rfl
@[simp] theorem setStr_quar (h q : Nat) (x : Stream) : (setStr s h q x).quar = s.quar := rfl
@[simp] theorem setStr_dark (h q : Nat) (x : Stream) : (setStr s h q x).dark = s.dark := rfl
@[simp] theorem setStr_tray (h q : Nat) (x : Stream) : (setStr s h q x).tray = s.tray := rfl
@[simp] theorem setStr_mcmd (h q : Nat) (x : Stream) : (setStr s h q x).mcmd = s.mcmd := rfl
@[simp] theorem setStr_migs (h q : Nat) (x : Stream) : (setStr s h q x).migs = s.migs := rfl
@[simp] theorem setStr_migWait (h q : Nat) (x : Stream) : (setStr s h q x).migWait = s.migWait := rfl
@[simp] theorem setStr_farRet (h q : Nat) (x : Stream) : (setStr s h q x).farRet = s.farRet := rfl
@[simp] theorem setStr_loft (h q : Nat) (x : Stream) : (setStr s h q x).loft = s.loft := rfl
@[simp] theorem setStr_lcmd (h q : Nat) (x : Stream) : (setStr s h q x).lcmd = s.lcmd := rfl
@[simp] theorem setStr_fab (h q : Nat) (x : Stream) : (setStr s h q x).fab = s.fab := rfl
@[simp] theorem setStr_d2dBad (h q : Nat) (x : Stream) : (setStr s h q x).d2dBad = s.d2dBad := rfl
@[simp] theorem setStr_criSeq (h q : Nat) (x : Stream) : (setStr s h q x).criSeq = s.criSeq := rfl
@[simp] theorem setStr_criQ (h q : Nat) (x : Stream) : (setStr s h q x).criQ = s.criQ := rfl
@[simp] theorem setStr_criTok (h q : Nat) (x : Stream) : (setStr s h q x).criTok = s.criTok := rfl
@[simp] theorem setStr_criAt (h q : Nat) (x : Stream) : (setStr s h q x).criAt = s.criAt := rfl
@[simp] theorem setStr_criRx (h q : Nat) (x : Stream) : (setStr s h q x).criRx = s.criRx := rfl
@[simp] theorem setStr_deaths (h q : Nat) (x : Stream) : (setStr s h q x).deaths = s.deaths := rfl
@[simp] theorem setStr_isl (h q : Nat) (x : Stream) : (setStr s h q x).isl = s.isl := rfl
@[simp] theorem setStr_clamps (h q : Nat) (x : Stream) : (setStr s h q x).clamps = s.clamps := rfl
@[simp] theorem setStr_vf (h q : Nat) (x : Stream) : (setStr s h q x).vf = s.vf := rfl
@[simp] theorem setStr_power (h q : Nat) (x : Stream) : (setStr s h q x).power = s.power := rfl
@[simp] theorem setStr_hotNs (h q : Nat) (x : Stream) : (setStr s h q x).hotNs = s.hotNs := rfl
@[simp] theorem setStr_live (h q : Nat) (x : Stream) : (setStr s h q x).live = s.live := rfl
@[simp] theorem setStr_meas (h q : Nat) (x : Stream) : (setStr s h q x).meas = s.meas := rfl
@[simp] theorem setStr_ownKeys (h q : Nat) (x : Stream) : (setStr s h q x).ownKeys = s.ownKeys := rfl
@[simp] theorem setStr_ownRev (h q : Nat) (x : Stream) : (setStr s h q x).ownRev = s.ownRev := rfl
@[simp] theorem setStr_fw (h q : Nat) (x : Stream) : (setStr s h q x).fw = s.fw := rfl
@[simp] theorem setStr_spdm (h q : Nat) (x : Stream) : (setStr s h q x).spdm = s.spdm := rfl
@[simp] theorem setStr_pldm (h q : Nat) (x : Stream) : (setStr s h q x).pldm = s.pldm := rfl
@[simp] theorem setStr_vinLow (h q : Nat) (x : Stream) : (setStr s h q x).vinLow = s.vinLow := rfl
@[simp] theorem setStr_tripped (h q : Nat) (x : Stream) : (setStr s h q x).tripped = s.tripped := rfl
@[simp] theorem setStr_swapReq (h q : Nat) (x : Stream) : (setStr s h q x).swapReq = s.swapReq := rfl
@[simp] theorem setStr_swapOk (h q : Nat) (x : Stream) : (setStr s h q x).swapOk = s.swapOk := rfl
@[simp] theorem setStr_paused (h q : Nat) (x : Stream) : (setStr s h q x).paused = s.paused := rfl
@[simp] theorem setStr_criHold (h q : Nat) (x : Stream) : (setStr s h q x).criHold = s.criHold := rfl
@[simp] theorem setStr_gone (h q : Nat) (x : Stream) : (setStr s h q x).gone = s.gone := rfl
@[simp] theorem setStr_heard (h q : Nat) (x : Stream) : (setStr s h q x).heard = s.heard := rfl
@[simp] theorem setStr_hbAt (h q : Nat) (x : Stream) : (setStr s h q x).hbAt = s.hbAt := rfl
@[simp] theorem setStr_watch (h q : Nat) (x : Stream) : (setStr s h q x).watch = s.watch := rfl
@[simp] theorem setStr_reports (h q : Nat) (x : Stream) : (setStr s h q x).reports = s.reports := rfl
@[simp] theorem setStr_hltAt (h q : Nat) (x : Stream) : (setStr s h q x).hltAt = s.hltAt := rfl
@[simp] theorem setStr_hltRun (h q : Nat) (x : Stream) : (setStr s h q x).hltRun = s.hltRun := rfl
@[simp] theorem setStr_hltOk (h q : Nat) (x : Stream) : (setStr s h q x).hltOk = s.hltOk := rfl
@[simp] theorem setStr_hltRec (h q : Nat) (x : Stream) : (setStr s h q x).hltRec = s.hltRec := rfl
@[simp] theorem setStr_hltSaved (h q : Nat) (x : Stream) : (setStr s h q x).hltSaved = s.hltSaved := rfl
@[simp] theorem setStr_hltClr (h q : Nat) (x : Stream) : (setStr s h q x).hltClr = s.hltClr := rfl
@[simp] theorem setStr_restoreDue (h q : Nat) (x : Stream) : (setStr s h q x).restoreDue = s.restoreDue := rfl
@[simp] theorem setStr_mirrors (h q : Nat) (x : Stream) : (setStr s h q x).mirrors = s.mirrors := rfl
@[simp] theorem setStr_ck (h q : Nat) (x : Stream) : (setStr s h q x).ck = s.ck := rfl
@[simp] theorem setStr_leaseAt (h q : Nat) (x : Stream) : (setStr s h q x).leaseAt = s.leaseAt := rfl
@[simp] theorem setStr_durable (h q : Nat) (x : Stream) : (setStr s h q x).durable = s.durable := rfl
@[simp] theorem setStr_ckCheckAt (h q : Nat) (x : Stream) : (setStr s h q x).ckCheckAt = s.ckCheckAt := rfl
@[simp] theorem setStr_restoreAt (h q : Nat) (x : Stream) : (setStr s h q x).restoreAt = s.restoreAt := rfl
@[simp] theorem setStr_census (h q : Nat) (x : Stream) : (setStr s h q x).census = s.census := rfl

/-! ### setPart -/

@[simp] theorem setPart_pending (p : Nat) (x : Part) : (setPart s p x).pending = s.pending := rfl
@[simp] theorem setPart_time (p : Nat) (x : Part) : (setPart s p x).time = s.time := rfl
@[simp] theorem setPart_regs (p : Nat) (x : Part) : (setPart s p x).regs = s.regs := rfl
@[simp] theorem setPart_staged (p : Nat) (x : Part) : (setPart s p x).staged = s.staged := rfl
@[simp] theorem setPart_capt (p : Nat) (x : Part) : (setPart s p x).capt = s.capt := rfl
@[simp] theorem setPart_bndStaged (p : Nat) (x : Part) : (setPart s p x).bndStaged = s.bndStaged := rfl
@[simp] theorem setPart_resp (p : Nat) (x : Part) : (setPart s p x).resp = s.resp := rfl
@[simp] theorem setPart_irqs (p : Nat) (x : Part) : (setPart s p x).irqs = s.irqs := rfl
@[simp] theorem setPart_mem (p : Nat) (x : Part) : (setPart s p x).mem = s.mem := rfl
@[simp] theorem setPart_host (p : Nat) (x : Part) : (setPart s p x).host = s.host := rfl
@[simp] theorem setPart_freeCtr (p : Nat) (x : Part) : (setPart s p x).freeCtr = s.freeCtr := rfl
@[simp] theorem setPart_sigOrd (p : Nat) (x : Part) : (setPart s p x).sigOrd = s.sigOrd := rfl
@[simp] theorem setPart_ledger (p : Nat) (x : Part) : (setPart s p x).ledger = s.ledger := rfl
@[simp] theorem setPart_mram (p : Nat) (x : Part) : (setPart s p x).mram = s.mram := rfl
@[simp] theorem setPart_mepoch (p : Nat) (x : Part) : (setPart s p x).mepoch = s.mepoch := rfl
@[simp] theorem setPart_streams (p : Nat) (x : Part) : (setPart s p x).streams = s.streams := rfl
@[simp] theorem setPart_tiles (p : Nat) (x : Part) : (setPart s p x).tiles = s.tiles := rfl
@[simp] theorem setPart_hams (p : Nat) (x : Part) : (setPart s p x).hams = s.hams := rfl
@[simp] theorem setPart_kcmLeft (p : Nat) (x : Part) : (setPart s p x).kcmLeft = s.kcmLeft := rfl
@[simp] theorem setPart_reqs (p : Nat) (x : Part) : (setPart s p x).reqs = s.reqs := rfl
@[simp] theorem setPart_reqWin (p : Nat) (x : Part) : (setPart s p x).reqWin = s.reqWin := rfl
@[simp] theorem setPart_admitSeq (p : Nat) (x : Part) : (setPart s p x).admitSeq = s.admitSeq := rfl
@[simp] theorem setPart_kvUsed (p : Nat) (x : Part) : (setPart s p x).kvUsed = s.kvUsed := rfl
@[simp] theorem setPart_hub (p : Nat) (x : Part) : (setPart s p x).hub = s.hub := rfl
@[simp] theorem setPart_hrWait (p : Nat) (x : Part) : (setPart s p x).hrWait = s.hrWait := rfl
@[simp] theorem setPart_cqProd (p : Nat) (x : Part) : (setPart s p x).cqProd = s.cqProd := rfl
@[simp] theorem setPart_cqOrder (p : Nat) (x : Part) : (setPart s p x).cqOrder = s.cqOrder := rfl
@[simp] theorem setPart_shipIn (p : Nat) (x : Part) : (setPart s p x).shipIn = s.shipIn := rfl
@[simp] theorem setPart_out (p : Nat) (x : Part) : (setPart s p x).out = s.out := rfl
@[simp] theorem setPart_slots (p : Nat) (x : Part) : (setPart s p x).slots = s.slots := rfl
@[simp] theorem setPart_lastEpoch (p : Nat) (x : Part) : (setPart s p x).lastEpoch = s.lastEpoch := rfl
@[simp] theorem setPart_lastSw (p : Nat) (x : Part) : (setPart s p x).lastSw = s.lastSw := rfl
@[simp] theorem setPart_epLoad (p : Nat) (x : Part) : (setPart s p x).epLoad = s.epLoad := rfl
@[simp] theorem setPart_recheckAt (p : Nat) (x : Part) : (setPart s p x).recheckAt = s.recheckAt := rfl
@[simp] theorem setPart_pubs (p : Nat) (x : Part) : (setPart s p x).pubs = s.pubs := rfl
@[simp] theorem setPart_epoAsm (p : Nat) (x : Part) : (setPart s p x).epoAsm = s.epoAsm := rfl
@[simp] theorem setPart_epoGot (p : Nat) (x : Part) : (setPart s p x).epoGot = s.epoGot := rfl
@[simp] theorem setPart_poison (p : Nat) (x : Part) : (setPart s p x).poison = s.poison := rfl
@[simp] theorem setPart_quar (p : Nat) (x : Part) : (setPart s p x).quar = s.quar := rfl
@[simp] theorem setPart_dark (p : Nat) (x : Part) : (setPart s p x).dark = s.dark := rfl
@[simp] theorem setPart_tray (p : Nat) (x : Part) : (setPart s p x).tray = s.tray := rfl
@[simp] theorem setPart_mcmd (p : Nat) (x : Part) : (setPart s p x).mcmd = s.mcmd := rfl
@[simp] theorem setPart_migs (p : Nat) (x : Part) : (setPart s p x).migs = s.migs := rfl
@[simp] theorem setPart_migWait (p : Nat) (x : Part) : (setPart s p x).migWait = s.migWait := rfl
@[simp] theorem setPart_farRet (p : Nat) (x : Part) : (setPart s p x).farRet = s.farRet := rfl
@[simp] theorem setPart_loft (p : Nat) (x : Part) : (setPart s p x).loft = s.loft := rfl
@[simp] theorem setPart_lcmd (p : Nat) (x : Part) : (setPart s p x).lcmd = s.lcmd := rfl
@[simp] theorem setPart_fab (p : Nat) (x : Part) : (setPart s p x).fab = s.fab := rfl
@[simp] theorem setPart_d2dBad (p : Nat) (x : Part) : (setPart s p x).d2dBad = s.d2dBad := rfl
@[simp] theorem setPart_criSeq (p : Nat) (x : Part) : (setPart s p x).criSeq = s.criSeq := rfl
@[simp] theorem setPart_criQ (p : Nat) (x : Part) : (setPart s p x).criQ = s.criQ := rfl
@[simp] theorem setPart_criTok (p : Nat) (x : Part) : (setPart s p x).criTok = s.criTok := rfl
@[simp] theorem setPart_criAt (p : Nat) (x : Part) : (setPart s p x).criAt = s.criAt := rfl
@[simp] theorem setPart_criRx (p : Nat) (x : Part) : (setPart s p x).criRx = s.criRx := rfl
@[simp] theorem setPart_deaths (p : Nat) (x : Part) : (setPart s p x).deaths = s.deaths := rfl
@[simp] theorem setPart_isl (p : Nat) (x : Part) : (setPart s p x).isl = s.isl := rfl
@[simp] theorem setPart_clamps (p : Nat) (x : Part) : (setPart s p x).clamps = s.clamps := rfl
@[simp] theorem setPart_vf (p : Nat) (x : Part) : (setPart s p x).vf = s.vf := rfl
@[simp] theorem setPart_power (p : Nat) (x : Part) : (setPart s p x).power = s.power := rfl
@[simp] theorem setPart_hotNs (p : Nat) (x : Part) : (setPart s p x).hotNs = s.hotNs := rfl
@[simp] theorem setPart_live (p : Nat) (x : Part) : (setPart s p x).live = s.live := rfl
@[simp] theorem setPart_meas (p : Nat) (x : Part) : (setPart s p x).meas = s.meas := rfl
@[simp] theorem setPart_ownKeys (p : Nat) (x : Part) : (setPart s p x).ownKeys = s.ownKeys := rfl
@[simp] theorem setPart_ownRev (p : Nat) (x : Part) : (setPart s p x).ownRev = s.ownRev := rfl
@[simp] theorem setPart_fw (p : Nat) (x : Part) : (setPart s p x).fw = s.fw := rfl
@[simp] theorem setPart_spdm (p : Nat) (x : Part) : (setPart s p x).spdm = s.spdm := rfl
@[simp] theorem setPart_pldm (p : Nat) (x : Part) : (setPart s p x).pldm = s.pldm := rfl
@[simp] theorem setPart_vinLow (p : Nat) (x : Part) : (setPart s p x).vinLow = s.vinLow := rfl
@[simp] theorem setPart_tripped (p : Nat) (x : Part) : (setPart s p x).tripped = s.tripped := rfl
@[simp] theorem setPart_swapReq (p : Nat) (x : Part) : (setPart s p x).swapReq = s.swapReq := rfl
@[simp] theorem setPart_swapOk (p : Nat) (x : Part) : (setPart s p x).swapOk = s.swapOk := rfl
@[simp] theorem setPart_paused (p : Nat) (x : Part) : (setPart s p x).paused = s.paused := rfl
@[simp] theorem setPart_criHold (p : Nat) (x : Part) : (setPart s p x).criHold = s.criHold := rfl
@[simp] theorem setPart_gone (p : Nat) (x : Part) : (setPart s p x).gone = s.gone := rfl
@[simp] theorem setPart_heard (p : Nat) (x : Part) : (setPart s p x).heard = s.heard := rfl
@[simp] theorem setPart_hbAt (p : Nat) (x : Part) : (setPart s p x).hbAt = s.hbAt := rfl
@[simp] theorem setPart_watch (p : Nat) (x : Part) : (setPart s p x).watch = s.watch := rfl
@[simp] theorem setPart_reports (p : Nat) (x : Part) : (setPart s p x).reports = s.reports := rfl
@[simp] theorem setPart_hltAt (p : Nat) (x : Part) : (setPart s p x).hltAt = s.hltAt := rfl
@[simp] theorem setPart_hltRun (p : Nat) (x : Part) : (setPart s p x).hltRun = s.hltRun := rfl
@[simp] theorem setPart_hltOk (p : Nat) (x : Part) : (setPart s p x).hltOk = s.hltOk := rfl
@[simp] theorem setPart_hltRec (p : Nat) (x : Part) : (setPart s p x).hltRec = s.hltRec := rfl
@[simp] theorem setPart_hltSaved (p : Nat) (x : Part) : (setPart s p x).hltSaved = s.hltSaved := rfl
@[simp] theorem setPart_hltClr (p : Nat) (x : Part) : (setPart s p x).hltClr = s.hltClr := rfl
@[simp] theorem setPart_restoreDue (p : Nat) (x : Part) : (setPart s p x).restoreDue = s.restoreDue := rfl
@[simp] theorem setPart_mirrors (p : Nat) (x : Part) : (setPart s p x).mirrors = s.mirrors := rfl
@[simp] theorem setPart_ck (p : Nat) (x : Part) : (setPart s p x).ck = s.ck := rfl
@[simp] theorem setPart_leaseAt (p : Nat) (x : Part) : (setPart s p x).leaseAt = s.leaseAt := rfl
@[simp] theorem setPart_durable (p : Nat) (x : Part) : (setPart s p x).durable = s.durable := rfl
@[simp] theorem setPart_ckCheckAt (p : Nat) (x : Part) : (setPart s p x).ckCheckAt = s.ckCheckAt := rfl
@[simp] theorem setPart_restoreAt (p : Nat) (x : Part) : (setPart s p x).restoreAt = s.restoreAt := rfl
@[simp] theorem setPart_census (p : Nat) (x : Part) : (setPart s p x).census = s.census := rfl

/-! ### setTile -/

@[simp] theorem setTile_pending (k : Nat) (x : Tile) : (setTile s k x).pending = s.pending := rfl
@[simp] theorem setTile_time (k : Nat) (x : Tile) : (setTile s k x).time = s.time := rfl
@[simp] theorem setTile_regs (k : Nat) (x : Tile) : (setTile s k x).regs = s.regs := rfl
@[simp] theorem setTile_staged (k : Nat) (x : Tile) : (setTile s k x).staged = s.staged := rfl
@[simp] theorem setTile_capt (k : Nat) (x : Tile) : (setTile s k x).capt = s.capt := rfl
@[simp] theorem setTile_bndStaged (k : Nat) (x : Tile) : (setTile s k x).bndStaged = s.bndStaged := rfl
@[simp] theorem setTile_resp (k : Nat) (x : Tile) : (setTile s k x).resp = s.resp := rfl
@[simp] theorem setTile_irqs (k : Nat) (x : Tile) : (setTile s k x).irqs = s.irqs := rfl
@[simp] theorem setTile_mem (k : Nat) (x : Tile) : (setTile s k x).mem = s.mem := rfl
@[simp] theorem setTile_host (k : Nat) (x : Tile) : (setTile s k x).host = s.host := rfl
@[simp] theorem setTile_freeCtr (k : Nat) (x : Tile) : (setTile s k x).freeCtr = s.freeCtr := rfl
@[simp] theorem setTile_sigOrd (k : Nat) (x : Tile) : (setTile s k x).sigOrd = s.sigOrd := rfl
@[simp] theorem setTile_ledger (k : Nat) (x : Tile) : (setTile s k x).ledger = s.ledger := rfl
@[simp] theorem setTile_mram (k : Nat) (x : Tile) : (setTile s k x).mram = s.mram := rfl
@[simp] theorem setTile_mepoch (k : Nat) (x : Tile) : (setTile s k x).mepoch = s.mepoch := rfl
@[simp] theorem setTile_streams (k : Nat) (x : Tile) : (setTile s k x).streams = s.streams := rfl
@[simp] theorem setTile_hams (k : Nat) (x : Tile) : (setTile s k x).hams = s.hams := rfl
@[simp] theorem setTile_parts (k : Nat) (x : Tile) : (setTile s k x).parts = s.parts := rfl
@[simp] theorem setTile_kcmLeft (k : Nat) (x : Tile) : (setTile s k x).kcmLeft = s.kcmLeft := rfl
@[simp] theorem setTile_reqs (k : Nat) (x : Tile) : (setTile s k x).reqs = s.reqs := rfl
@[simp] theorem setTile_reqWin (k : Nat) (x : Tile) : (setTile s k x).reqWin = s.reqWin := rfl
@[simp] theorem setTile_admitSeq (k : Nat) (x : Tile) : (setTile s k x).admitSeq = s.admitSeq := rfl
@[simp] theorem setTile_kvUsed (k : Nat) (x : Tile) : (setTile s k x).kvUsed = s.kvUsed := rfl
@[simp] theorem setTile_hub (k : Nat) (x : Tile) : (setTile s k x).hub = s.hub := rfl
@[simp] theorem setTile_hrWait (k : Nat) (x : Tile) : (setTile s k x).hrWait = s.hrWait := rfl
@[simp] theorem setTile_cqProd (k : Nat) (x : Tile) : (setTile s k x).cqProd = s.cqProd := rfl
@[simp] theorem setTile_cqOrder (k : Nat) (x : Tile) : (setTile s k x).cqOrder = s.cqOrder := rfl
@[simp] theorem setTile_shipIn (k : Nat) (x : Tile) : (setTile s k x).shipIn = s.shipIn := rfl
@[simp] theorem setTile_out (k : Nat) (x : Tile) : (setTile s k x).out = s.out := rfl
@[simp] theorem setTile_slots (k : Nat) (x : Tile) : (setTile s k x).slots = s.slots := rfl
@[simp] theorem setTile_lastEpoch (k : Nat) (x : Tile) : (setTile s k x).lastEpoch = s.lastEpoch := rfl
@[simp] theorem setTile_lastSw (k : Nat) (x : Tile) : (setTile s k x).lastSw = s.lastSw := rfl
@[simp] theorem setTile_epLoad (k : Nat) (x : Tile) : (setTile s k x).epLoad = s.epLoad := rfl
@[simp] theorem setTile_recheckAt (k : Nat) (x : Tile) : (setTile s k x).recheckAt = s.recheckAt := rfl
@[simp] theorem setTile_pubs (k : Nat) (x : Tile) : (setTile s k x).pubs = s.pubs := rfl
@[simp] theorem setTile_epoAsm (k : Nat) (x : Tile) : (setTile s k x).epoAsm = s.epoAsm := rfl
@[simp] theorem setTile_epoGot (k : Nat) (x : Tile) : (setTile s k x).epoGot = s.epoGot := rfl
@[simp] theorem setTile_poison (k : Nat) (x : Tile) : (setTile s k x).poison = s.poison := rfl
@[simp] theorem setTile_quar (k : Nat) (x : Tile) : (setTile s k x).quar = s.quar := rfl
@[simp] theorem setTile_dark (k : Nat) (x : Tile) : (setTile s k x).dark = s.dark := rfl
@[simp] theorem setTile_tray (k : Nat) (x : Tile) : (setTile s k x).tray = s.tray := rfl
@[simp] theorem setTile_mcmd (k : Nat) (x : Tile) : (setTile s k x).mcmd = s.mcmd := rfl
@[simp] theorem setTile_migs (k : Nat) (x : Tile) : (setTile s k x).migs = s.migs := rfl
@[simp] theorem setTile_migWait (k : Nat) (x : Tile) : (setTile s k x).migWait = s.migWait := rfl
@[simp] theorem setTile_farRet (k : Nat) (x : Tile) : (setTile s k x).farRet = s.farRet := rfl
@[simp] theorem setTile_loft (k : Nat) (x : Tile) : (setTile s k x).loft = s.loft := rfl
@[simp] theorem setTile_lcmd (k : Nat) (x : Tile) : (setTile s k x).lcmd = s.lcmd := rfl
@[simp] theorem setTile_fab (k : Nat) (x : Tile) : (setTile s k x).fab = s.fab := rfl
@[simp] theorem setTile_d2dBad (k : Nat) (x : Tile) : (setTile s k x).d2dBad = s.d2dBad := rfl
@[simp] theorem setTile_criSeq (k : Nat) (x : Tile) : (setTile s k x).criSeq = s.criSeq := rfl
@[simp] theorem setTile_criQ (k : Nat) (x : Tile) : (setTile s k x).criQ = s.criQ := rfl
@[simp] theorem setTile_criTok (k : Nat) (x : Tile) : (setTile s k x).criTok = s.criTok := rfl
@[simp] theorem setTile_criAt (k : Nat) (x : Tile) : (setTile s k x).criAt = s.criAt := rfl
@[simp] theorem setTile_criRx (k : Nat) (x : Tile) : (setTile s k x).criRx = s.criRx := rfl
@[simp] theorem setTile_deaths (k : Nat) (x : Tile) : (setTile s k x).deaths = s.deaths := rfl
@[simp] theorem setTile_isl (k : Nat) (x : Tile) : (setTile s k x).isl = s.isl := rfl
@[simp] theorem setTile_clamps (k : Nat) (x : Tile) : (setTile s k x).clamps = s.clamps := rfl
@[simp] theorem setTile_vf (k : Nat) (x : Tile) : (setTile s k x).vf = s.vf := rfl
@[simp] theorem setTile_power (k : Nat) (x : Tile) : (setTile s k x).power = s.power := rfl
@[simp] theorem setTile_hotNs (k : Nat) (x : Tile) : (setTile s k x).hotNs = s.hotNs := rfl
@[simp] theorem setTile_live (k : Nat) (x : Tile) : (setTile s k x).live = s.live := rfl
@[simp] theorem setTile_meas (k : Nat) (x : Tile) : (setTile s k x).meas = s.meas := rfl
@[simp] theorem setTile_ownKeys (k : Nat) (x : Tile) : (setTile s k x).ownKeys = s.ownKeys := rfl
@[simp] theorem setTile_ownRev (k : Nat) (x : Tile) : (setTile s k x).ownRev = s.ownRev := rfl
@[simp] theorem setTile_fw (k : Nat) (x : Tile) : (setTile s k x).fw = s.fw := rfl
@[simp] theorem setTile_spdm (k : Nat) (x : Tile) : (setTile s k x).spdm = s.spdm := rfl
@[simp] theorem setTile_pldm (k : Nat) (x : Tile) : (setTile s k x).pldm = s.pldm := rfl
@[simp] theorem setTile_vinLow (k : Nat) (x : Tile) : (setTile s k x).vinLow = s.vinLow := rfl
@[simp] theorem setTile_tripped (k : Nat) (x : Tile) : (setTile s k x).tripped = s.tripped := rfl
@[simp] theorem setTile_swapReq (k : Nat) (x : Tile) : (setTile s k x).swapReq = s.swapReq := rfl
@[simp] theorem setTile_swapOk (k : Nat) (x : Tile) : (setTile s k x).swapOk = s.swapOk := rfl
@[simp] theorem setTile_paused (k : Nat) (x : Tile) : (setTile s k x).paused = s.paused := rfl
@[simp] theorem setTile_criHold (k : Nat) (x : Tile) : (setTile s k x).criHold = s.criHold := rfl
@[simp] theorem setTile_gone (k : Nat) (x : Tile) : (setTile s k x).gone = s.gone := rfl
@[simp] theorem setTile_heard (k : Nat) (x : Tile) : (setTile s k x).heard = s.heard := rfl
@[simp] theorem setTile_hbAt (k : Nat) (x : Tile) : (setTile s k x).hbAt = s.hbAt := rfl
@[simp] theorem setTile_watch (k : Nat) (x : Tile) : (setTile s k x).watch = s.watch := rfl
@[simp] theorem setTile_reports (k : Nat) (x : Tile) : (setTile s k x).reports = s.reports := rfl
@[simp] theorem setTile_hltAt (k : Nat) (x : Tile) : (setTile s k x).hltAt = s.hltAt := rfl
@[simp] theorem setTile_hltRun (k : Nat) (x : Tile) : (setTile s k x).hltRun = s.hltRun := rfl
@[simp] theorem setTile_hltOk (k : Nat) (x : Tile) : (setTile s k x).hltOk = s.hltOk := rfl
@[simp] theorem setTile_hltRec (k : Nat) (x : Tile) : (setTile s k x).hltRec = s.hltRec := rfl
@[simp] theorem setTile_hltSaved (k : Nat) (x : Tile) : (setTile s k x).hltSaved = s.hltSaved := rfl
@[simp] theorem setTile_hltClr (k : Nat) (x : Tile) : (setTile s k x).hltClr = s.hltClr := rfl
@[simp] theorem setTile_restoreDue (k : Nat) (x : Tile) : (setTile s k x).restoreDue = s.restoreDue := rfl
@[simp] theorem setTile_mirrors (k : Nat) (x : Tile) : (setTile s k x).mirrors = s.mirrors := rfl
@[simp] theorem setTile_ck (k : Nat) (x : Tile) : (setTile s k x).ck = s.ck := rfl
@[simp] theorem setTile_leaseAt (k : Nat) (x : Tile) : (setTile s k x).leaseAt = s.leaseAt := rfl
@[simp] theorem setTile_durable (k : Nat) (x : Tile) : (setTile s k x).durable = s.durable := rfl
@[simp] theorem setTile_ckCheckAt (k : Nat) (x : Tile) : (setTile s k x).ckCheckAt = s.ckCheckAt := rfl
@[simp] theorem setTile_restoreAt (k : Nat) (x : Tile) : (setTile s k x).restoreAt = s.restoreAt := rfl
@[simp] theorem setTile_census (k : Nat) (x : Tile) : (setTile s k x).census = s.census := rfl

/-! ### setReq -/

@[simp] theorem setReq_pending (i : Nat) (r : Req) : (setReq s i r).pending = s.pending := rfl
@[simp] theorem setReq_time (i : Nat) (r : Req) : (setReq s i r).time = s.time := rfl
@[simp] theorem setReq_regs (i : Nat) (r : Req) : (setReq s i r).regs = s.regs := rfl
@[simp] theorem setReq_staged (i : Nat) (r : Req) : (setReq s i r).staged = s.staged := rfl
@[simp] theorem setReq_capt (i : Nat) (r : Req) : (setReq s i r).capt = s.capt := rfl
@[simp] theorem setReq_bndStaged (i : Nat) (r : Req) : (setReq s i r).bndStaged = s.bndStaged := rfl
@[simp] theorem setReq_resp (i : Nat) (r : Req) : (setReq s i r).resp = s.resp := rfl
@[simp] theorem setReq_irqs (i : Nat) (r : Req) : (setReq s i r).irqs = s.irqs := rfl
@[simp] theorem setReq_mem (i : Nat) (r : Req) : (setReq s i r).mem = s.mem := rfl
@[simp] theorem setReq_host (i : Nat) (r : Req) : (setReq s i r).host = s.host := rfl
@[simp] theorem setReq_freeCtr (i : Nat) (r : Req) : (setReq s i r).freeCtr = s.freeCtr := rfl
@[simp] theorem setReq_sigOrd (i : Nat) (r : Req) : (setReq s i r).sigOrd = s.sigOrd := rfl
@[simp] theorem setReq_ledger (i : Nat) (r : Req) : (setReq s i r).ledger = s.ledger := rfl
@[simp] theorem setReq_mram (i : Nat) (r : Req) : (setReq s i r).mram = s.mram := rfl
@[simp] theorem setReq_mepoch (i : Nat) (r : Req) : (setReq s i r).mepoch = s.mepoch := rfl
@[simp] theorem setReq_streams (i : Nat) (r : Req) : (setReq s i r).streams = s.streams := rfl
@[simp] theorem setReq_tiles (i : Nat) (r : Req) : (setReq s i r).tiles = s.tiles := rfl
@[simp] theorem setReq_hams (i : Nat) (r : Req) : (setReq s i r).hams = s.hams := rfl
@[simp] theorem setReq_parts (i : Nat) (r : Req) : (setReq s i r).parts = s.parts := rfl
@[simp] theorem setReq_kcmLeft (i : Nat) (r : Req) : (setReq s i r).kcmLeft = s.kcmLeft := rfl
@[simp] theorem setReq_reqWin (i : Nat) (r : Req) : (setReq s i r).reqWin = s.reqWin := rfl
@[simp] theorem setReq_admitSeq (i : Nat) (r : Req) : (setReq s i r).admitSeq = s.admitSeq := rfl
@[simp] theorem setReq_kvUsed (i : Nat) (r : Req) : (setReq s i r).kvUsed = s.kvUsed := rfl
@[simp] theorem setReq_hub (i : Nat) (r : Req) : (setReq s i r).hub = s.hub := rfl
@[simp] theorem setReq_hrWait (i : Nat) (r : Req) : (setReq s i r).hrWait = s.hrWait := rfl
@[simp] theorem setReq_cqProd (i : Nat) (r : Req) : (setReq s i r).cqProd = s.cqProd := rfl
@[simp] theorem setReq_cqOrder (i : Nat) (r : Req) : (setReq s i r).cqOrder = s.cqOrder := rfl
@[simp] theorem setReq_shipIn (i : Nat) (r : Req) : (setReq s i r).shipIn = s.shipIn := rfl
@[simp] theorem setReq_out (i : Nat) (r : Req) : (setReq s i r).out = s.out := rfl
@[simp] theorem setReq_slots (i : Nat) (r : Req) : (setReq s i r).slots = s.slots := rfl
@[simp] theorem setReq_lastEpoch (i : Nat) (r : Req) : (setReq s i r).lastEpoch = s.lastEpoch := rfl
@[simp] theorem setReq_lastSw (i : Nat) (r : Req) : (setReq s i r).lastSw = s.lastSw := rfl
@[simp] theorem setReq_epLoad (i : Nat) (r : Req) : (setReq s i r).epLoad = s.epLoad := rfl
@[simp] theorem setReq_recheckAt (i : Nat) (r : Req) : (setReq s i r).recheckAt = s.recheckAt := rfl
@[simp] theorem setReq_pubs (i : Nat) (r : Req) : (setReq s i r).pubs = s.pubs := rfl
@[simp] theorem setReq_epoAsm (i : Nat) (r : Req) : (setReq s i r).epoAsm = s.epoAsm := rfl
@[simp] theorem setReq_epoGot (i : Nat) (r : Req) : (setReq s i r).epoGot = s.epoGot := rfl
@[simp] theorem setReq_poison (i : Nat) (r : Req) : (setReq s i r).poison = s.poison := rfl
@[simp] theorem setReq_quar (i : Nat) (r : Req) : (setReq s i r).quar = s.quar := rfl
@[simp] theorem setReq_dark (i : Nat) (r : Req) : (setReq s i r).dark = s.dark := rfl
@[simp] theorem setReq_tray (i : Nat) (r : Req) : (setReq s i r).tray = s.tray := rfl
@[simp] theorem setReq_mcmd (i : Nat) (r : Req) : (setReq s i r).mcmd = s.mcmd := rfl
@[simp] theorem setReq_migs (i : Nat) (r : Req) : (setReq s i r).migs = s.migs := rfl
@[simp] theorem setReq_migWait (i : Nat) (r : Req) : (setReq s i r).migWait = s.migWait := rfl
@[simp] theorem setReq_farRet (i : Nat) (r : Req) : (setReq s i r).farRet = s.farRet := rfl
@[simp] theorem setReq_loft (i : Nat) (r : Req) : (setReq s i r).loft = s.loft := rfl
@[simp] theorem setReq_lcmd (i : Nat) (r : Req) : (setReq s i r).lcmd = s.lcmd := rfl
@[simp] theorem setReq_fab (i : Nat) (r : Req) : (setReq s i r).fab = s.fab := rfl
@[simp] theorem setReq_d2dBad (i : Nat) (r : Req) : (setReq s i r).d2dBad = s.d2dBad := rfl
@[simp] theorem setReq_criSeq (i : Nat) (r : Req) : (setReq s i r).criSeq = s.criSeq := rfl
@[simp] theorem setReq_criQ (i : Nat) (r : Req) : (setReq s i r).criQ = s.criQ := rfl
@[simp] theorem setReq_criTok (i : Nat) (r : Req) : (setReq s i r).criTok = s.criTok := rfl
@[simp] theorem setReq_criAt (i : Nat) (r : Req) : (setReq s i r).criAt = s.criAt := rfl
@[simp] theorem setReq_criRx (i : Nat) (r : Req) : (setReq s i r).criRx = s.criRx := rfl
@[simp] theorem setReq_deaths (i : Nat) (r : Req) : (setReq s i r).deaths = s.deaths := rfl
@[simp] theorem setReq_isl (i : Nat) (r : Req) : (setReq s i r).isl = s.isl := rfl
@[simp] theorem setReq_clamps (i : Nat) (r : Req) : (setReq s i r).clamps = s.clamps := rfl
@[simp] theorem setReq_vf (i : Nat) (r : Req) : (setReq s i r).vf = s.vf := rfl
@[simp] theorem setReq_power (i : Nat) (r : Req) : (setReq s i r).power = s.power := rfl
@[simp] theorem setReq_hotNs (i : Nat) (r : Req) : (setReq s i r).hotNs = s.hotNs := rfl
@[simp] theorem setReq_live (i : Nat) (r : Req) : (setReq s i r).live = s.live := rfl
@[simp] theorem setReq_meas (i : Nat) (r : Req) : (setReq s i r).meas = s.meas := rfl
@[simp] theorem setReq_ownKeys (i : Nat) (r : Req) : (setReq s i r).ownKeys = s.ownKeys := rfl
@[simp] theorem setReq_ownRev (i : Nat) (r : Req) : (setReq s i r).ownRev = s.ownRev := rfl
@[simp] theorem setReq_fw (i : Nat) (r : Req) : (setReq s i r).fw = s.fw := rfl
@[simp] theorem setReq_spdm (i : Nat) (r : Req) : (setReq s i r).spdm = s.spdm := rfl
@[simp] theorem setReq_pldm (i : Nat) (r : Req) : (setReq s i r).pldm = s.pldm := rfl
@[simp] theorem setReq_vinLow (i : Nat) (r : Req) : (setReq s i r).vinLow = s.vinLow := rfl
@[simp] theorem setReq_tripped (i : Nat) (r : Req) : (setReq s i r).tripped = s.tripped := rfl
@[simp] theorem setReq_swapReq (i : Nat) (r : Req) : (setReq s i r).swapReq = s.swapReq := rfl
@[simp] theorem setReq_swapOk (i : Nat) (r : Req) : (setReq s i r).swapOk = s.swapOk := rfl
@[simp] theorem setReq_paused (i : Nat) (r : Req) : (setReq s i r).paused = s.paused := rfl
@[simp] theorem setReq_criHold (i : Nat) (r : Req) : (setReq s i r).criHold = s.criHold := rfl
@[simp] theorem setReq_gone (i : Nat) (r : Req) : (setReq s i r).gone = s.gone := rfl
@[simp] theorem setReq_heard (i : Nat) (r : Req) : (setReq s i r).heard = s.heard := rfl
@[simp] theorem setReq_hbAt (i : Nat) (r : Req) : (setReq s i r).hbAt = s.hbAt := rfl
@[simp] theorem setReq_watch (i : Nat) (r : Req) : (setReq s i r).watch = s.watch := rfl
@[simp] theorem setReq_reports (i : Nat) (r : Req) : (setReq s i r).reports = s.reports := rfl
@[simp] theorem setReq_hltAt (i : Nat) (r : Req) : (setReq s i r).hltAt = s.hltAt := rfl
@[simp] theorem setReq_hltRun (i : Nat) (r : Req) : (setReq s i r).hltRun = s.hltRun := rfl
@[simp] theorem setReq_hltOk (i : Nat) (r : Req) : (setReq s i r).hltOk = s.hltOk := rfl
@[simp] theorem setReq_hltRec (i : Nat) (r : Req) : (setReq s i r).hltRec = s.hltRec := rfl
@[simp] theorem setReq_hltSaved (i : Nat) (r : Req) : (setReq s i r).hltSaved = s.hltSaved := rfl
@[simp] theorem setReq_hltClr (i : Nat) (r : Req) : (setReq s i r).hltClr = s.hltClr := rfl
@[simp] theorem setReq_restoreDue (i : Nat) (r : Req) : (setReq s i r).restoreDue = s.restoreDue := rfl
@[simp] theorem setReq_mirrors (i : Nat) (r : Req) : (setReq s i r).mirrors = s.mirrors := rfl
@[simp] theorem setReq_ck (i : Nat) (r : Req) : (setReq s i r).ck = s.ck := rfl
@[simp] theorem setReq_leaseAt (i : Nat) (r : Req) : (setReq s i r).leaseAt = s.leaseAt := rfl
@[simp] theorem setReq_durable (i : Nat) (r : Req) : (setReq s i r).durable = s.durable := rfl
@[simp] theorem setReq_ckCheckAt (i : Nat) (r : Req) : (setReq s i r).ckCheckAt = s.ckCheckAt := rfl
@[simp] theorem setReq_restoreAt (i : Nat) (r : Req) : (setReq s i r).restoreAt = s.restoreAt := rfl
@[simp] theorem setReq_census (i : Nat) (r : Req) : (setReq s i r).census = s.census := rfl

/-! ### setSlot -/

@[simp] theorem setSlot_pending (n : Nat) (x : EpSlot) : (setSlot s n x).pending = s.pending := rfl
@[simp] theorem setSlot_time (n : Nat) (x : EpSlot) : (setSlot s n x).time = s.time := rfl
@[simp] theorem setSlot_regs (n : Nat) (x : EpSlot) : (setSlot s n x).regs = s.regs := rfl
@[simp] theorem setSlot_staged (n : Nat) (x : EpSlot) : (setSlot s n x).staged = s.staged := rfl
@[simp] theorem setSlot_capt (n : Nat) (x : EpSlot) : (setSlot s n x).capt = s.capt := rfl
@[simp] theorem setSlot_bndStaged (n : Nat) (x : EpSlot) : (setSlot s n x).bndStaged = s.bndStaged := rfl
@[simp] theorem setSlot_resp (n : Nat) (x : EpSlot) : (setSlot s n x).resp = s.resp := rfl
@[simp] theorem setSlot_irqs (n : Nat) (x : EpSlot) : (setSlot s n x).irqs = s.irqs := rfl
@[simp] theorem setSlot_mem (n : Nat) (x : EpSlot) : (setSlot s n x).mem = s.mem := rfl
@[simp] theorem setSlot_host (n : Nat) (x : EpSlot) : (setSlot s n x).host = s.host := rfl
@[simp] theorem setSlot_freeCtr (n : Nat) (x : EpSlot) : (setSlot s n x).freeCtr = s.freeCtr := rfl
@[simp] theorem setSlot_sigOrd (n : Nat) (x : EpSlot) : (setSlot s n x).sigOrd = s.sigOrd := rfl
@[simp] theorem setSlot_ledger (n : Nat) (x : EpSlot) : (setSlot s n x).ledger = s.ledger := rfl
@[simp] theorem setSlot_mram (n : Nat) (x : EpSlot) : (setSlot s n x).mram = s.mram := rfl
@[simp] theorem setSlot_mepoch (n : Nat) (x : EpSlot) : (setSlot s n x).mepoch = s.mepoch := rfl
@[simp] theorem setSlot_streams (n : Nat) (x : EpSlot) : (setSlot s n x).streams = s.streams := rfl
@[simp] theorem setSlot_tiles (n : Nat) (x : EpSlot) : (setSlot s n x).tiles = s.tiles := rfl
@[simp] theorem setSlot_hams (n : Nat) (x : EpSlot) : (setSlot s n x).hams = s.hams := rfl
@[simp] theorem setSlot_parts (n : Nat) (x : EpSlot) : (setSlot s n x).parts = s.parts := rfl
@[simp] theorem setSlot_kcmLeft (n : Nat) (x : EpSlot) : (setSlot s n x).kcmLeft = s.kcmLeft := rfl
@[simp] theorem setSlot_reqs (n : Nat) (x : EpSlot) : (setSlot s n x).reqs = s.reqs := rfl
@[simp] theorem setSlot_reqWin (n : Nat) (x : EpSlot) : (setSlot s n x).reqWin = s.reqWin := rfl
@[simp] theorem setSlot_admitSeq (n : Nat) (x : EpSlot) : (setSlot s n x).admitSeq = s.admitSeq := rfl
@[simp] theorem setSlot_kvUsed (n : Nat) (x : EpSlot) : (setSlot s n x).kvUsed = s.kvUsed := rfl
@[simp] theorem setSlot_hub (n : Nat) (x : EpSlot) : (setSlot s n x).hub = s.hub := rfl
@[simp] theorem setSlot_hrWait (n : Nat) (x : EpSlot) : (setSlot s n x).hrWait = s.hrWait := rfl
@[simp] theorem setSlot_cqProd (n : Nat) (x : EpSlot) : (setSlot s n x).cqProd = s.cqProd := rfl
@[simp] theorem setSlot_cqOrder (n : Nat) (x : EpSlot) : (setSlot s n x).cqOrder = s.cqOrder := rfl
@[simp] theorem setSlot_shipIn (n : Nat) (x : EpSlot) : (setSlot s n x).shipIn = s.shipIn := rfl
@[simp] theorem setSlot_out (n : Nat) (x : EpSlot) : (setSlot s n x).out = s.out := rfl
@[simp] theorem setSlot_lastEpoch (n : Nat) (x : EpSlot) : (setSlot s n x).lastEpoch = s.lastEpoch := rfl
@[simp] theorem setSlot_lastSw (n : Nat) (x : EpSlot) : (setSlot s n x).lastSw = s.lastSw := rfl
@[simp] theorem setSlot_epLoad (n : Nat) (x : EpSlot) : (setSlot s n x).epLoad = s.epLoad := rfl
@[simp] theorem setSlot_recheckAt (n : Nat) (x : EpSlot) : (setSlot s n x).recheckAt = s.recheckAt := rfl
@[simp] theorem setSlot_pubs (n : Nat) (x : EpSlot) : (setSlot s n x).pubs = s.pubs := rfl
@[simp] theorem setSlot_epoAsm (n : Nat) (x : EpSlot) : (setSlot s n x).epoAsm = s.epoAsm := rfl
@[simp] theorem setSlot_epoGot (n : Nat) (x : EpSlot) : (setSlot s n x).epoGot = s.epoGot := rfl
@[simp] theorem setSlot_poison (n : Nat) (x : EpSlot) : (setSlot s n x).poison = s.poison := rfl
@[simp] theorem setSlot_quar (n : Nat) (x : EpSlot) : (setSlot s n x).quar = s.quar := rfl
@[simp] theorem setSlot_dark (n : Nat) (x : EpSlot) : (setSlot s n x).dark = s.dark := rfl
@[simp] theorem setSlot_tray (n : Nat) (x : EpSlot) : (setSlot s n x).tray = s.tray := rfl
@[simp] theorem setSlot_mcmd (n : Nat) (x : EpSlot) : (setSlot s n x).mcmd = s.mcmd := rfl
@[simp] theorem setSlot_migs (n : Nat) (x : EpSlot) : (setSlot s n x).migs = s.migs := rfl
@[simp] theorem setSlot_migWait (n : Nat) (x : EpSlot) : (setSlot s n x).migWait = s.migWait := rfl
@[simp] theorem setSlot_farRet (n : Nat) (x : EpSlot) : (setSlot s n x).farRet = s.farRet := rfl
@[simp] theorem setSlot_loft (n : Nat) (x : EpSlot) : (setSlot s n x).loft = s.loft := rfl
@[simp] theorem setSlot_lcmd (n : Nat) (x : EpSlot) : (setSlot s n x).lcmd = s.lcmd := rfl
@[simp] theorem setSlot_fab (n : Nat) (x : EpSlot) : (setSlot s n x).fab = s.fab := rfl
@[simp] theorem setSlot_d2dBad (n : Nat) (x : EpSlot) : (setSlot s n x).d2dBad = s.d2dBad := rfl
@[simp] theorem setSlot_criSeq (n : Nat) (x : EpSlot) : (setSlot s n x).criSeq = s.criSeq := rfl
@[simp] theorem setSlot_criQ (n : Nat) (x : EpSlot) : (setSlot s n x).criQ = s.criQ := rfl
@[simp] theorem setSlot_criTok (n : Nat) (x : EpSlot) : (setSlot s n x).criTok = s.criTok := rfl
@[simp] theorem setSlot_criAt (n : Nat) (x : EpSlot) : (setSlot s n x).criAt = s.criAt := rfl
@[simp] theorem setSlot_criRx (n : Nat) (x : EpSlot) : (setSlot s n x).criRx = s.criRx := rfl
@[simp] theorem setSlot_deaths (n : Nat) (x : EpSlot) : (setSlot s n x).deaths = s.deaths := rfl
@[simp] theorem setSlot_isl (n : Nat) (x : EpSlot) : (setSlot s n x).isl = s.isl := rfl
@[simp] theorem setSlot_clamps (n : Nat) (x : EpSlot) : (setSlot s n x).clamps = s.clamps := rfl
@[simp] theorem setSlot_vf (n : Nat) (x : EpSlot) : (setSlot s n x).vf = s.vf := rfl
@[simp] theorem setSlot_power (n : Nat) (x : EpSlot) : (setSlot s n x).power = s.power := rfl
@[simp] theorem setSlot_hotNs (n : Nat) (x : EpSlot) : (setSlot s n x).hotNs = s.hotNs := rfl
@[simp] theorem setSlot_live (n : Nat) (x : EpSlot) : (setSlot s n x).live = s.live := rfl
@[simp] theorem setSlot_meas (n : Nat) (x : EpSlot) : (setSlot s n x).meas = s.meas := rfl
@[simp] theorem setSlot_ownKeys (n : Nat) (x : EpSlot) : (setSlot s n x).ownKeys = s.ownKeys := rfl
@[simp] theorem setSlot_ownRev (n : Nat) (x : EpSlot) : (setSlot s n x).ownRev = s.ownRev := rfl
@[simp] theorem setSlot_fw (n : Nat) (x : EpSlot) : (setSlot s n x).fw = s.fw := rfl
@[simp] theorem setSlot_spdm (n : Nat) (x : EpSlot) : (setSlot s n x).spdm = s.spdm := rfl
@[simp] theorem setSlot_pldm (n : Nat) (x : EpSlot) : (setSlot s n x).pldm = s.pldm := rfl
@[simp] theorem setSlot_vinLow (n : Nat) (x : EpSlot) : (setSlot s n x).vinLow = s.vinLow := rfl
@[simp] theorem setSlot_tripped (n : Nat) (x : EpSlot) : (setSlot s n x).tripped = s.tripped := rfl
@[simp] theorem setSlot_swapReq (n : Nat) (x : EpSlot) : (setSlot s n x).swapReq = s.swapReq := rfl
@[simp] theorem setSlot_swapOk (n : Nat) (x : EpSlot) : (setSlot s n x).swapOk = s.swapOk := rfl
@[simp] theorem setSlot_paused (n : Nat) (x : EpSlot) : (setSlot s n x).paused = s.paused := rfl
@[simp] theorem setSlot_criHold (n : Nat) (x : EpSlot) : (setSlot s n x).criHold = s.criHold := rfl
@[simp] theorem setSlot_gone (n : Nat) (x : EpSlot) : (setSlot s n x).gone = s.gone := rfl
@[simp] theorem setSlot_heard (n : Nat) (x : EpSlot) : (setSlot s n x).heard = s.heard := rfl
@[simp] theorem setSlot_hbAt (n : Nat) (x : EpSlot) : (setSlot s n x).hbAt = s.hbAt := rfl
@[simp] theorem setSlot_watch (n : Nat) (x : EpSlot) : (setSlot s n x).watch = s.watch := rfl
@[simp] theorem setSlot_reports (n : Nat) (x : EpSlot) : (setSlot s n x).reports = s.reports := rfl
@[simp] theorem setSlot_hltAt (n : Nat) (x : EpSlot) : (setSlot s n x).hltAt = s.hltAt := rfl
@[simp] theorem setSlot_hltRun (n : Nat) (x : EpSlot) : (setSlot s n x).hltRun = s.hltRun := rfl
@[simp] theorem setSlot_hltOk (n : Nat) (x : EpSlot) : (setSlot s n x).hltOk = s.hltOk := rfl
@[simp] theorem setSlot_hltRec (n : Nat) (x : EpSlot) : (setSlot s n x).hltRec = s.hltRec := rfl
@[simp] theorem setSlot_hltSaved (n : Nat) (x : EpSlot) : (setSlot s n x).hltSaved = s.hltSaved := rfl
@[simp] theorem setSlot_hltClr (n : Nat) (x : EpSlot) : (setSlot s n x).hltClr = s.hltClr := rfl
@[simp] theorem setSlot_restoreDue (n : Nat) (x : EpSlot) : (setSlot s n x).restoreDue = s.restoreDue := rfl
@[simp] theorem setSlot_mirrors (n : Nat) (x : EpSlot) : (setSlot s n x).mirrors = s.mirrors := rfl
@[simp] theorem setSlot_ck (n : Nat) (x : EpSlot) : (setSlot s n x).ck = s.ck := rfl
@[simp] theorem setSlot_leaseAt (n : Nat) (x : EpSlot) : (setSlot s n x).leaseAt = s.leaseAt := rfl
@[simp] theorem setSlot_durable (n : Nat) (x : EpSlot) : (setSlot s n x).durable = s.durable := rfl
@[simp] theorem setSlot_ckCheckAt (n : Nat) (x : EpSlot) : (setSlot s n x).ckCheckAt = s.ckCheckAt := rfl
@[simp] theorem setSlot_restoreAt (n : Nat) (x : EpSlot) : (setSlot s n x).restoreAt = s.restoreAt := rfl
@[simp] theorem setSlot_census (n : Nat) (x : EpSlot) : (setSlot s n x).census = s.census := rfl

/-! ### setObj -/

@[simp] theorem setObj_pending (i : Nat) (o : LoftObj) : (setObj s i o).pending = s.pending := rfl
@[simp] theorem setObj_time (i : Nat) (o : LoftObj) : (setObj s i o).time = s.time := rfl
@[simp] theorem setObj_regs (i : Nat) (o : LoftObj) : (setObj s i o).regs = s.regs := rfl
@[simp] theorem setObj_staged (i : Nat) (o : LoftObj) : (setObj s i o).staged = s.staged := rfl
@[simp] theorem setObj_capt (i : Nat) (o : LoftObj) : (setObj s i o).capt = s.capt := rfl
@[simp] theorem setObj_bndStaged (i : Nat) (o : LoftObj) : (setObj s i o).bndStaged = s.bndStaged := rfl
@[simp] theorem setObj_resp (i : Nat) (o : LoftObj) : (setObj s i o).resp = s.resp := rfl
@[simp] theorem setObj_irqs (i : Nat) (o : LoftObj) : (setObj s i o).irqs = s.irqs := rfl
@[simp] theorem setObj_mem (i : Nat) (o : LoftObj) : (setObj s i o).mem = s.mem := rfl
@[simp] theorem setObj_host (i : Nat) (o : LoftObj) : (setObj s i o).host = s.host := rfl
@[simp] theorem setObj_freeCtr (i : Nat) (o : LoftObj) : (setObj s i o).freeCtr = s.freeCtr := rfl
@[simp] theorem setObj_sigOrd (i : Nat) (o : LoftObj) : (setObj s i o).sigOrd = s.sigOrd := rfl
@[simp] theorem setObj_ledger (i : Nat) (o : LoftObj) : (setObj s i o).ledger = s.ledger := rfl
@[simp] theorem setObj_mram (i : Nat) (o : LoftObj) : (setObj s i o).mram = s.mram := rfl
@[simp] theorem setObj_mepoch (i : Nat) (o : LoftObj) : (setObj s i o).mepoch = s.mepoch := rfl
@[simp] theorem setObj_streams (i : Nat) (o : LoftObj) : (setObj s i o).streams = s.streams := rfl
@[simp] theorem setObj_tiles (i : Nat) (o : LoftObj) : (setObj s i o).tiles = s.tiles := rfl
@[simp] theorem setObj_hams (i : Nat) (o : LoftObj) : (setObj s i o).hams = s.hams := rfl
@[simp] theorem setObj_parts (i : Nat) (o : LoftObj) : (setObj s i o).parts = s.parts := rfl
@[simp] theorem setObj_kcmLeft (i : Nat) (o : LoftObj) : (setObj s i o).kcmLeft = s.kcmLeft := rfl
@[simp] theorem setObj_reqs (i : Nat) (o : LoftObj) : (setObj s i o).reqs = s.reqs := rfl
@[simp] theorem setObj_reqWin (i : Nat) (o : LoftObj) : (setObj s i o).reqWin = s.reqWin := rfl
@[simp] theorem setObj_admitSeq (i : Nat) (o : LoftObj) : (setObj s i o).admitSeq = s.admitSeq := rfl
@[simp] theorem setObj_kvUsed (i : Nat) (o : LoftObj) : (setObj s i o).kvUsed = s.kvUsed := rfl
@[simp] theorem setObj_hub (i : Nat) (o : LoftObj) : (setObj s i o).hub = s.hub := rfl
@[simp] theorem setObj_hrWait (i : Nat) (o : LoftObj) : (setObj s i o).hrWait = s.hrWait := rfl
@[simp] theorem setObj_cqProd (i : Nat) (o : LoftObj) : (setObj s i o).cqProd = s.cqProd := rfl
@[simp] theorem setObj_cqOrder (i : Nat) (o : LoftObj) : (setObj s i o).cqOrder = s.cqOrder := rfl
@[simp] theorem setObj_shipIn (i : Nat) (o : LoftObj) : (setObj s i o).shipIn = s.shipIn := rfl
@[simp] theorem setObj_out (i : Nat) (o : LoftObj) : (setObj s i o).out = s.out := rfl
@[simp] theorem setObj_slots (i : Nat) (o : LoftObj) : (setObj s i o).slots = s.slots := rfl
@[simp] theorem setObj_lastEpoch (i : Nat) (o : LoftObj) : (setObj s i o).lastEpoch = s.lastEpoch := rfl
@[simp] theorem setObj_lastSw (i : Nat) (o : LoftObj) : (setObj s i o).lastSw = s.lastSw := rfl
@[simp] theorem setObj_epLoad (i : Nat) (o : LoftObj) : (setObj s i o).epLoad = s.epLoad := rfl
@[simp] theorem setObj_recheckAt (i : Nat) (o : LoftObj) : (setObj s i o).recheckAt = s.recheckAt := rfl
@[simp] theorem setObj_pubs (i : Nat) (o : LoftObj) : (setObj s i o).pubs = s.pubs := rfl
@[simp] theorem setObj_epoAsm (i : Nat) (o : LoftObj) : (setObj s i o).epoAsm = s.epoAsm := rfl
@[simp] theorem setObj_epoGot (i : Nat) (o : LoftObj) : (setObj s i o).epoGot = s.epoGot := rfl
@[simp] theorem setObj_poison (i : Nat) (o : LoftObj) : (setObj s i o).poison = s.poison := rfl
@[simp] theorem setObj_quar (i : Nat) (o : LoftObj) : (setObj s i o).quar = s.quar := rfl
@[simp] theorem setObj_dark (i : Nat) (o : LoftObj) : (setObj s i o).dark = s.dark := rfl
@[simp] theorem setObj_tray (i : Nat) (o : LoftObj) : (setObj s i o).tray = s.tray := rfl
@[simp] theorem setObj_mcmd (i : Nat) (o : LoftObj) : (setObj s i o).mcmd = s.mcmd := rfl
@[simp] theorem setObj_migs (i : Nat) (o : LoftObj) : (setObj s i o).migs = s.migs := rfl
@[simp] theorem setObj_migWait (i : Nat) (o : LoftObj) : (setObj s i o).migWait = s.migWait := rfl
@[simp] theorem setObj_farRet (i : Nat) (o : LoftObj) : (setObj s i o).farRet = s.farRet := rfl
@[simp] theorem setObj_lcmd (i : Nat) (o : LoftObj) : (setObj s i o).lcmd = s.lcmd := rfl
@[simp] theorem setObj_fab (i : Nat) (o : LoftObj) : (setObj s i o).fab = s.fab := rfl
@[simp] theorem setObj_d2dBad (i : Nat) (o : LoftObj) : (setObj s i o).d2dBad = s.d2dBad := rfl
@[simp] theorem setObj_criSeq (i : Nat) (o : LoftObj) : (setObj s i o).criSeq = s.criSeq := rfl
@[simp] theorem setObj_criQ (i : Nat) (o : LoftObj) : (setObj s i o).criQ = s.criQ := rfl
@[simp] theorem setObj_criTok (i : Nat) (o : LoftObj) : (setObj s i o).criTok = s.criTok := rfl
@[simp] theorem setObj_criAt (i : Nat) (o : LoftObj) : (setObj s i o).criAt = s.criAt := rfl
@[simp] theorem setObj_criRx (i : Nat) (o : LoftObj) : (setObj s i o).criRx = s.criRx := rfl
@[simp] theorem setObj_deaths (i : Nat) (o : LoftObj) : (setObj s i o).deaths = s.deaths := rfl
@[simp] theorem setObj_isl (i : Nat) (o : LoftObj) : (setObj s i o).isl = s.isl := rfl
@[simp] theorem setObj_clamps (i : Nat) (o : LoftObj) : (setObj s i o).clamps = s.clamps := rfl
@[simp] theorem setObj_vf (i : Nat) (o : LoftObj) : (setObj s i o).vf = s.vf := rfl
@[simp] theorem setObj_power (i : Nat) (o : LoftObj) : (setObj s i o).power = s.power := rfl
@[simp] theorem setObj_hotNs (i : Nat) (o : LoftObj) : (setObj s i o).hotNs = s.hotNs := rfl
@[simp] theorem setObj_live (i : Nat) (o : LoftObj) : (setObj s i o).live = s.live := rfl
@[simp] theorem setObj_meas (i : Nat) (o : LoftObj) : (setObj s i o).meas = s.meas := rfl
@[simp] theorem setObj_ownKeys (i : Nat) (o : LoftObj) : (setObj s i o).ownKeys = s.ownKeys := rfl
@[simp] theorem setObj_ownRev (i : Nat) (o : LoftObj) : (setObj s i o).ownRev = s.ownRev := rfl
@[simp] theorem setObj_fw (i : Nat) (o : LoftObj) : (setObj s i o).fw = s.fw := rfl
@[simp] theorem setObj_spdm (i : Nat) (o : LoftObj) : (setObj s i o).spdm = s.spdm := rfl
@[simp] theorem setObj_pldm (i : Nat) (o : LoftObj) : (setObj s i o).pldm = s.pldm := rfl
@[simp] theorem setObj_vinLow (i : Nat) (o : LoftObj) : (setObj s i o).vinLow = s.vinLow := rfl
@[simp] theorem setObj_tripped (i : Nat) (o : LoftObj) : (setObj s i o).tripped = s.tripped := rfl
@[simp] theorem setObj_swapReq (i : Nat) (o : LoftObj) : (setObj s i o).swapReq = s.swapReq := rfl
@[simp] theorem setObj_swapOk (i : Nat) (o : LoftObj) : (setObj s i o).swapOk = s.swapOk := rfl
@[simp] theorem setObj_paused (i : Nat) (o : LoftObj) : (setObj s i o).paused = s.paused := rfl
@[simp] theorem setObj_criHold (i : Nat) (o : LoftObj) : (setObj s i o).criHold = s.criHold := rfl
@[simp] theorem setObj_gone (i : Nat) (o : LoftObj) : (setObj s i o).gone = s.gone := rfl
@[simp] theorem setObj_heard (i : Nat) (o : LoftObj) : (setObj s i o).heard = s.heard := rfl
@[simp] theorem setObj_hbAt (i : Nat) (o : LoftObj) : (setObj s i o).hbAt = s.hbAt := rfl
@[simp] theorem setObj_watch (i : Nat) (o : LoftObj) : (setObj s i o).watch = s.watch := rfl
@[simp] theorem setObj_reports (i : Nat) (o : LoftObj) : (setObj s i o).reports = s.reports := rfl
@[simp] theorem setObj_hltAt (i : Nat) (o : LoftObj) : (setObj s i o).hltAt = s.hltAt := rfl
@[simp] theorem setObj_hltRun (i : Nat) (o : LoftObj) : (setObj s i o).hltRun = s.hltRun := rfl
@[simp] theorem setObj_hltOk (i : Nat) (o : LoftObj) : (setObj s i o).hltOk = s.hltOk := rfl
@[simp] theorem setObj_hltRec (i : Nat) (o : LoftObj) : (setObj s i o).hltRec = s.hltRec := rfl
@[simp] theorem setObj_hltSaved (i : Nat) (o : LoftObj) : (setObj s i o).hltSaved = s.hltSaved := rfl
@[simp] theorem setObj_hltClr (i : Nat) (o : LoftObj) : (setObj s i o).hltClr = s.hltClr := rfl
@[simp] theorem setObj_restoreDue (i : Nat) (o : LoftObj) : (setObj s i o).restoreDue = s.restoreDue := rfl
@[simp] theorem setObj_mirrors (i : Nat) (o : LoftObj) : (setObj s i o).mirrors = s.mirrors := rfl
@[simp] theorem setObj_ck (i : Nat) (o : LoftObj) : (setObj s i o).ck = s.ck := rfl
@[simp] theorem setObj_leaseAt (i : Nat) (o : LoftObj) : (setObj s i o).leaseAt = s.leaseAt := rfl
@[simp] theorem setObj_durable (i : Nat) (o : LoftObj) : (setObj s i o).durable = s.durable := rfl
@[simp] theorem setObj_ckCheckAt (i : Nat) (o : LoftObj) : (setObj s i o).ckCheckAt = s.ckCheckAt := rfl
@[simp] theorem setObj_restoreAt (i : Nat) (o : LoftObj) : (setObj s i o).restoreAt = s.restoreAt := rfl
@[simp] theorem setObj_census (i : Nat) (o : LoftObj) : (setObj s i o).census = s.census := rfl

/-! ### setLink -/

@[simp] theorem setLink_pending (p : Nat) (l : Link) : (setLink s p l).pending = s.pending := rfl
@[simp] theorem setLink_time (p : Nat) (l : Link) : (setLink s p l).time = s.time := rfl
@[simp] theorem setLink_regs (p : Nat) (l : Link) : (setLink s p l).regs = s.regs := rfl
@[simp] theorem setLink_staged (p : Nat) (l : Link) : (setLink s p l).staged = s.staged := rfl
@[simp] theorem setLink_capt (p : Nat) (l : Link) : (setLink s p l).capt = s.capt := rfl
@[simp] theorem setLink_bndStaged (p : Nat) (l : Link) : (setLink s p l).bndStaged = s.bndStaged := rfl
@[simp] theorem setLink_resp (p : Nat) (l : Link) : (setLink s p l).resp = s.resp := rfl
@[simp] theorem setLink_irqs (p : Nat) (l : Link) : (setLink s p l).irqs = s.irqs := rfl
@[simp] theorem setLink_mem (p : Nat) (l : Link) : (setLink s p l).mem = s.mem := rfl
@[simp] theorem setLink_host (p : Nat) (l : Link) : (setLink s p l).host = s.host := rfl
@[simp] theorem setLink_freeCtr (p : Nat) (l : Link) : (setLink s p l).freeCtr = s.freeCtr := rfl
@[simp] theorem setLink_sigOrd (p : Nat) (l : Link) : (setLink s p l).sigOrd = s.sigOrd := rfl
@[simp] theorem setLink_ledger (p : Nat) (l : Link) : (setLink s p l).ledger = s.ledger := rfl
@[simp] theorem setLink_mram (p : Nat) (l : Link) : (setLink s p l).mram = s.mram := rfl
@[simp] theorem setLink_mepoch (p : Nat) (l : Link) : (setLink s p l).mepoch = s.mepoch := rfl
@[simp] theorem setLink_streams (p : Nat) (l : Link) : (setLink s p l).streams = s.streams := rfl
@[simp] theorem setLink_tiles (p : Nat) (l : Link) : (setLink s p l).tiles = s.tiles := rfl
@[simp] theorem setLink_hams (p : Nat) (l : Link) : (setLink s p l).hams = s.hams := rfl
@[simp] theorem setLink_parts (p : Nat) (l : Link) : (setLink s p l).parts = s.parts := rfl
@[simp] theorem setLink_kcmLeft (p : Nat) (l : Link) : (setLink s p l).kcmLeft = s.kcmLeft := rfl
@[simp] theorem setLink_reqs (p : Nat) (l : Link) : (setLink s p l).reqs = s.reqs := rfl
@[simp] theorem setLink_reqWin (p : Nat) (l : Link) : (setLink s p l).reqWin = s.reqWin := rfl
@[simp] theorem setLink_admitSeq (p : Nat) (l : Link) : (setLink s p l).admitSeq = s.admitSeq := rfl
@[simp] theorem setLink_kvUsed (p : Nat) (l : Link) : (setLink s p l).kvUsed = s.kvUsed := rfl
@[simp] theorem setLink_hub (p : Nat) (l : Link) : (setLink s p l).hub = s.hub := rfl
@[simp] theorem setLink_hrWait (p : Nat) (l : Link) : (setLink s p l).hrWait = s.hrWait := rfl
@[simp] theorem setLink_cqProd (p : Nat) (l : Link) : (setLink s p l).cqProd = s.cqProd := rfl
@[simp] theorem setLink_cqOrder (p : Nat) (l : Link) : (setLink s p l).cqOrder = s.cqOrder := rfl
@[simp] theorem setLink_shipIn (p : Nat) (l : Link) : (setLink s p l).shipIn = s.shipIn := rfl
@[simp] theorem setLink_out (p : Nat) (l : Link) : (setLink s p l).out = s.out := rfl
@[simp] theorem setLink_slots (p : Nat) (l : Link) : (setLink s p l).slots = s.slots := rfl
@[simp] theorem setLink_lastEpoch (p : Nat) (l : Link) : (setLink s p l).lastEpoch = s.lastEpoch := rfl
@[simp] theorem setLink_lastSw (p : Nat) (l : Link) : (setLink s p l).lastSw = s.lastSw := rfl
@[simp] theorem setLink_epLoad (p : Nat) (l : Link) : (setLink s p l).epLoad = s.epLoad := rfl
@[simp] theorem setLink_recheckAt (p : Nat) (l : Link) : (setLink s p l).recheckAt = s.recheckAt := rfl
@[simp] theorem setLink_pubs (p : Nat) (l : Link) : (setLink s p l).pubs = s.pubs := rfl
@[simp] theorem setLink_epoAsm (p : Nat) (l : Link) : (setLink s p l).epoAsm = s.epoAsm := rfl
@[simp] theorem setLink_epoGot (p : Nat) (l : Link) : (setLink s p l).epoGot = s.epoGot := rfl
@[simp] theorem setLink_poison (p : Nat) (l : Link) : (setLink s p l).poison = s.poison := rfl
@[simp] theorem setLink_quar (p : Nat) (l : Link) : (setLink s p l).quar = s.quar := rfl
@[simp] theorem setLink_dark (p : Nat) (l : Link) : (setLink s p l).dark = s.dark := rfl
@[simp] theorem setLink_tray (p : Nat) (l : Link) : (setLink s p l).tray = s.tray := rfl
@[simp] theorem setLink_mcmd (p : Nat) (l : Link) : (setLink s p l).mcmd = s.mcmd := rfl
@[simp] theorem setLink_migs (p : Nat) (l : Link) : (setLink s p l).migs = s.migs := rfl
@[simp] theorem setLink_migWait (p : Nat) (l : Link) : (setLink s p l).migWait = s.migWait := rfl
@[simp] theorem setLink_farRet (p : Nat) (l : Link) : (setLink s p l).farRet = s.farRet := rfl
@[simp] theorem setLink_loft (p : Nat) (l : Link) : (setLink s p l).loft = s.loft := rfl
@[simp] theorem setLink_lcmd (p : Nat) (l : Link) : (setLink s p l).lcmd = s.lcmd := rfl
@[simp] theorem setLink_d2dBad (p : Nat) (l : Link) : (setLink s p l).d2dBad = s.d2dBad := rfl
@[simp] theorem setLink_criSeq (p : Nat) (l : Link) : (setLink s p l).criSeq = s.criSeq := rfl
@[simp] theorem setLink_criQ (p : Nat) (l : Link) : (setLink s p l).criQ = s.criQ := rfl
@[simp] theorem setLink_criTok (p : Nat) (l : Link) : (setLink s p l).criTok = s.criTok := rfl
@[simp] theorem setLink_criAt (p : Nat) (l : Link) : (setLink s p l).criAt = s.criAt := rfl
@[simp] theorem setLink_criRx (p : Nat) (l : Link) : (setLink s p l).criRx = s.criRx := rfl
@[simp] theorem setLink_deaths (p : Nat) (l : Link) : (setLink s p l).deaths = s.deaths := rfl
@[simp] theorem setLink_isl (p : Nat) (l : Link) : (setLink s p l).isl = s.isl := rfl
@[simp] theorem setLink_clamps (p : Nat) (l : Link) : (setLink s p l).clamps = s.clamps := rfl
@[simp] theorem setLink_vf (p : Nat) (l : Link) : (setLink s p l).vf = s.vf := rfl
@[simp] theorem setLink_power (p : Nat) (l : Link) : (setLink s p l).power = s.power := rfl
@[simp] theorem setLink_hotNs (p : Nat) (l : Link) : (setLink s p l).hotNs = s.hotNs := rfl
@[simp] theorem setLink_live (p : Nat) (l : Link) : (setLink s p l).live = s.live := rfl
@[simp] theorem setLink_meas (p : Nat) (l : Link) : (setLink s p l).meas = s.meas := rfl
@[simp] theorem setLink_ownKeys (p : Nat) (l : Link) : (setLink s p l).ownKeys = s.ownKeys := rfl
@[simp] theorem setLink_ownRev (p : Nat) (l : Link) : (setLink s p l).ownRev = s.ownRev := rfl
@[simp] theorem setLink_fw (p : Nat) (l : Link) : (setLink s p l).fw = s.fw := rfl
@[simp] theorem setLink_spdm (p : Nat) (l : Link) : (setLink s p l).spdm = s.spdm := rfl
@[simp] theorem setLink_pldm (p : Nat) (l : Link) : (setLink s p l).pldm = s.pldm := rfl
@[simp] theorem setLink_vinLow (p : Nat) (l : Link) : (setLink s p l).vinLow = s.vinLow := rfl
@[simp] theorem setLink_tripped (p : Nat) (l : Link) : (setLink s p l).tripped = s.tripped := rfl
@[simp] theorem setLink_swapReq (p : Nat) (l : Link) : (setLink s p l).swapReq = s.swapReq := rfl
@[simp] theorem setLink_swapOk (p : Nat) (l : Link) : (setLink s p l).swapOk = s.swapOk := rfl
@[simp] theorem setLink_paused (p : Nat) (l : Link) : (setLink s p l).paused = s.paused := rfl
@[simp] theorem setLink_criHold (p : Nat) (l : Link) : (setLink s p l).criHold = s.criHold := rfl
@[simp] theorem setLink_gone (p : Nat) (l : Link) : (setLink s p l).gone = s.gone := rfl
@[simp] theorem setLink_heard (p : Nat) (l : Link) : (setLink s p l).heard = s.heard := rfl
@[simp] theorem setLink_hbAt (p : Nat) (l : Link) : (setLink s p l).hbAt = s.hbAt := rfl
@[simp] theorem setLink_watch (p : Nat) (l : Link) : (setLink s p l).watch = s.watch := rfl
@[simp] theorem setLink_reports (p : Nat) (l : Link) : (setLink s p l).reports = s.reports := rfl
@[simp] theorem setLink_hltAt (p : Nat) (l : Link) : (setLink s p l).hltAt = s.hltAt := rfl
@[simp] theorem setLink_hltRun (p : Nat) (l : Link) : (setLink s p l).hltRun = s.hltRun := rfl
@[simp] theorem setLink_hltOk (p : Nat) (l : Link) : (setLink s p l).hltOk = s.hltOk := rfl
@[simp] theorem setLink_hltRec (p : Nat) (l : Link) : (setLink s p l).hltRec = s.hltRec := rfl
@[simp] theorem setLink_hltSaved (p : Nat) (l : Link) : (setLink s p l).hltSaved = s.hltSaved := rfl
@[simp] theorem setLink_hltClr (p : Nat) (l : Link) : (setLink s p l).hltClr = s.hltClr := rfl
@[simp] theorem setLink_restoreDue (p : Nat) (l : Link) : (setLink s p l).restoreDue = s.restoreDue := rfl
@[simp] theorem setLink_mirrors (p : Nat) (l : Link) : (setLink s p l).mirrors = s.mirrors := rfl
@[simp] theorem setLink_ck (p : Nat) (l : Link) : (setLink s p l).ck = s.ck := rfl
@[simp] theorem setLink_leaseAt (p : Nat) (l : Link) : (setLink s p l).leaseAt = s.leaseAt := rfl
@[simp] theorem setLink_durable (p : Nat) (l : Link) : (setLink s p l).durable = s.durable := rfl
@[simp] theorem setLink_ckCheckAt (p : Nat) (l : Link) : (setLink s p l).ckCheckAt = s.ckCheckAt := rfl
@[simp] theorem setLink_restoreAt (p : Nat) (l : Link) : (setLink s p l).restoreAt = s.restoreAt := rfl
@[simp] theorem setLink_census (p : Nat) (l : Link) : (setLink s p l).census = s.census := rfl

end Sys2Proof.Machine
end

