-- ==== Sys2Proof/Laws/Ops.lean ====
section
/-! SUPPORT. Each shared operation, once: what it can change, and that it keeps the memories' form. -/

namespace Sys2Proof.Machine

/-! ### Outcomes -/

/-- A meaning answers a next state exactly when its operands are well formed. -/
theorem checked_next_iff (i : Instr) (s t : State) : checked i s = .next t ↔ i.wf = true ∧ s = t := by
  unfold checked
  split <;> simp_all

theorem checked_of_wf (i : Instr) (s : State) (h : i.wf = true) : checked i s = .next s := by simp [checked, h]

@[simp] theorem when_true (f : State → State) (s : State) : when true f s = f s := rfl

@[simp] theorem when_false (f : State → State) (s : State) : when false f s = s := rfl

/-! ### Registers and interrupts -/

/-- From `s` to `t` only registers and interrupt messages changed. -/
def RegsOnly (s t : State) : Prop := ∃ r i, t = { s with regs := r, irqs := i }

theorem RegsOnly.refl (s : State) : RegsOnly s s := ⟨s.regs, s.irqs, rfl⟩

theorem RegsOnly.trans {s t u : State} (h : RegsOnly s t) (k : RegsOnly t u) : RegsOnly s u := by
  obtain ⟨r, i, rfl⟩ := h
  obtain ⟨r', i', rfl⟩ := k
  exact ⟨r', i', rfl⟩

theorem RegsOnly.eq {s t : State} (h : RegsOnly s t) : t = { s with regs := t.regs, irqs := t.irqs } := by
  obtain ⟨r, i, rfl⟩ := h; rfl

theorem RegsOnly.ite {s t u : State} {c : Prop} [Decidable c] (h : RegsOnly s t) (k : RegsOnly s u) :
    RegsOnly s (if c then t else u) := by
  split
  · exact h
  · exact k

theorem regsOnly_setReg (s : State) (a : Nat) (v : W32) : RegsOnly s (setReg s a v) := ⟨_, s.irqs, rfl⟩

theorem regsOnly_setRegAt (s : State) (a b : Nat) (v : W32) : RegsOnly s (setRegAt s a b v) := ⟨_, s.irqs, rfl⟩

theorem regsOnly_setRegF (s : State) (a hi lo v : Nat) : RegsOnly s (setRegF s a hi lo v) := regsOnly_setReg ..

theorem regsOnly_bump (s : State) (a k : Nat) : RegsOnly s (bump s a k) := regsOnly_setReg ..

theorem regsOnly_setPair (s : State) (a v : Nat) : RegsOnly s (setPair s a v) := (regsOnly_setReg ..).trans (regsOnly_setReg ..)

theorem regsOnly_intEdge (s t : State) (p : Nat) : RegsOnly t (intEdge s t p) := by
  unfold intEdge; split
  · exact ⟨t.regs, _, rfl⟩
  · exact RegsOnly.refl t

theorem regsOnly_intSet (s : State) (p : Nat) (b : W32) : RegsOnly s (intSet s p b) := (regsOnly_setReg ..).trans (regsOnly_intEdge ..)

theorem regsOnly_intBit (s : State) (p i : Nat) : RegsOnly s (intBit s p i) := regsOnly_intSet ..

theorem regsOnly_errInc (s : State) (p : Nat) : RegsOnly s (errInc s p) := (regsOnly_bump ..).trans (regsOnly_intBit ..)

theorem regsOnly_countM (s : State) (i n : Nat) : RegsOnly s (countM s i n) := by
  unfold countM; split
  · exact RegsOnly.refl s
  · exact (regsOnly_setRegAt ..).trans (regsOnly_setRegAt ..)

@[simp] theorem intEdge_regs (s t : State) (p : Nat) : (intEdge s t p).regs = t.regs := by
  unfold intEdge; split <;> rfl

/-- INT_STAT bits set: of the registers, the page's INT_STAT changes. -/
theorem intSet_regs (s : State) (p : Nat) (b : W32) :
    (intSet s p b).regs = (setReg s (p + Off.intStat) (reg s (p + Off.intStat) ||| b)).regs := intEdge_regs _ _ _

/-- What a register reads as depends on the stored registers alone. -/
theorem reg_congr (s t : State) (a : Nat) (h : s.regs = t.regs) : reg s a = reg t a := by
  unfold reg regKey; rw [h]

theorem reg_intSet_self (s : State) (p : Nat) (b : W32) (h : p + Off.intStat < 0x20000000) :
    reg (intSet s p b) (p + Off.intStat) = reg s (p + Off.intStat) ||| b := by
  rw [reg_congr _ _ _ (intSet_regs s p b), reg_setReg_self _ _ _ h]

/-! ### The black-box record and the ledger -/

theorem regsOnly_lost (s : State) (a b : Nat) (v : Nat) (p q : Nat) (c : Bool) :
    RegsOnly s (if c = true then intBit (bump (intBit (setPair s a v) p q) b 1) p 1 else intBit (setPair s a v) p q) :=
  RegsOnly.ite
    ((regsOnly_setPair ..).trans ((regsOnly_intBit ..).trans ((regsOnly_bump ..).trans (regsOnly_intBit ..))))
    ((regsOnly_setPair ..).trans (regsOnly_intBit ..))

/-- A black-box record writes its MRAM slot; beside it only registers and interrupts change. -/
theorem bbrRaw_only (s : State) (b : Bb) (d : List Byte) :
    ∃ m, RegsOnly { s with mram := m } (bbrRaw s b d) ∧ ∃ bs,
      m = wrBytes s.mram (64 * ((pair s (pBbr + Off.bbrHeadLo) + 1) % 2 ^ 64 % bbrSlots)) bs :=
  ⟨_, regsOnly_lost _ _ _ _ _ _ _, _, rfl⟩

/-- A CPER record writes its slot of the ring, or nothing while the ring is off. -/
theorem cperAdd_only (s : State) (b : Bb) (n : Nat) :
    RegsOnly s (cperAdd s b n) ∨ ∃ bs,
      let a := tableOff s (pRas + Off.rasCperBaseLo) + 512 * ((reg s (pRas + Off.rasCperHead)).toNat % 2 ^ regF s (pRas + Off.rasCperCfg) 4 0)
      RegsOnly { s with mem := wrBytes (zeroRange s.mem a 512) a bs } (cperAdd s b n) := by
  simp only [cperAdd]
  split
  · exact .inl (RegsOnly.refl s)
  · exact .inr ⟨_, (regsOnly_setReg ..).trans (regsOnly_intBit ..)⟩

theorem cperAdd_off (s : State) (b : Bb) (n : Nat) (h : s.cperOff) : cperAdd s b n = s := by
  unfold State.cperOff at h
  simp [cperAdd, h]

/-- A record in the ring, or in the staging area. -/
theorem ringPut_only (s : State) (n : Nat) (r : List Byte) : ∃ l m, ringPut s n r = { s with ledger := l, mem := m } := by
  unfold ringPut; split
  · exact ⟨s.ledger, _, rfl⟩
  · exact ⟨_, s.mem, rfl⟩

/-- From `s` to `t` only registers, interrupts, the ledger and the tiers changed. -/
def LedgerOnly (s t : State) : Prop := ∃ r i l m, t = { s with regs := r, irqs := i, ledger := l, mem := m }

theorem LedgerOnly.refl (s : State) : LedgerOnly s s := ⟨s.regs, s.irqs, s.ledger, s.mem, rfl⟩

theorem LedgerOnly.trans {s t u : State} (h : LedgerOnly s t) (k : LedgerOnly t u) : LedgerOnly s u := by
  obtain ⟨_, _, _, _, rfl⟩ := h
  obtain ⟨r, i, l, m, rfl⟩ := k
  exact ⟨r, i, l, m, rfl⟩

theorem LedgerOnly.eq {s t : State} (h : LedgerOnly s t) :
    t = { s with regs := t.regs, irqs := t.irqs, ledger := t.ledger, mem := t.mem } := by
  obtain ⟨_, _, _, _, rfl⟩ := h; rfl

theorem RegsOnly.ledger {s t : State} (h : RegsOnly s t) : LedgerOnly s t := by
  obtain ⟨r, i, rfl⟩ := h; exact ⟨r, i, s.ledger, s.mem, rfl⟩

theorem ledgerOnly_ringPut (s : State) (n : Nat) (r : List Byte) : LedgerOnly s (ringPut s n r) := by
  obtain ⟨l, m, h⟩ := ringPut_only s n r
  exact ⟨s.regs, s.irqs, l, m, h⟩

theorem ledgerOnly_ledger (s : State) (l : Ledger) : LedgerOnly s { s with ledger := l } := ⟨s.regs, s.irqs, l, s.mem, rfl⟩

theorem regsOnly_ledgerNumber (s : State) (a n : Nat) : RegsOnly s (ledgerNumber s a n) :=
  (regsOnly_setReg ..).trans (regsOnly_setPair ..)

theorem ledgerOnly_ledgerChain (s : State) (n : Nat) (c : List Byte) : LedgerOnly s (ledgerChain s n c) := ledgerOnly_ledger s _

theorem regsOnly_ledgerAlarm (s : State) (n : Nat) (l : Bool) : RegsOnly s (ledgerAlarm s n l) := by
  have h : RegsOnly s (if l = true then intBit (bump s (pLdg + Off.ldgLost) 1) pLdg 1 else s) :=
    RegsOnly.ite ((regsOnly_bump ..).trans (regsOnly_intBit ..)) (RegsOnly.refl s)
  exact RegsOnly.ite (h.trans (regsOnly_intBit ..)) h

/-- A ledger record changes registers, interrupts, the ledger and its ring slot. -/
theorem ledgerOnly_ledgerAdd (s : State) (w : Writer) (f a : Nat) (o n : W32) : LedgerOnly s (ledgerAdd s w f a o n) :=
  ((ledgerOnly_ringPut s _ _).trans (regsOnly_ledgerNumber _ _ _).ledger).trans
    ((ledgerOnly_ledgerChain _ _ _).trans (regsOnly_ledgerAlarm _ _ _).ledger)

theorem ledgerAlarm_mem (s : State) (n : Nat) (l : Bool) : (ledgerAlarm s n l).mem = s.mem := by
  obtain ⟨_, _, e⟩ := regsOnly_ledgerAlarm s n l
  rw [e]

theorem ledgerNumber_mem (s : State) (a n : Nat) : (ledgerNumber s a n).mem = s.mem := by
  obtain ⟨_, _, e⟩ := regsOnly_ledgerNumber s a n
  rw [e]

theorem ledgerChain_mem (s : State) (n : Nat) (c : List Byte) : (ledgerChain s n c).mem = s.mem := by rw [ledgerChain]

theorem ringPut_mem (s : State) (n : Nat) (r : List Byte) : (ringPut s n r).mem =
    if s.ledger.ringUp then wrBytes s.mem (tableOff s (pLdg + Off.ldgRingBaseLo) + 64 * (n % ringSlots)) r else s.mem := by
  unfold ringPut; split <;> rfl

theorem ledgerAdd_form (s : State) (w : Writer) (f a : Nat) (o n : W32) :
    ∃ q r c l, ledgerAdd s w f a o n = ledgerAlarm (ledgerChain (ledgerNumber (ringPut s q r) a q) q c) q l := ⟨_, _, _, _, rfl⟩

/-- The tiers after a record: its slot of the ring, or what they were. -/
theorem ledgerAdd_mem (s : State) (w : Writer) (f a : Nat) (o n : W32) : ∃ q r, (ledgerAdd s w f a o n).mem =
    if s.ledger.ringUp then wrBytes s.mem (tableOff s (pLdg + Off.ldgRingBaseLo) + 64 * (q % ringSlots)) r else s.mem := by
  obtain ⟨q, r, c, l, e⟩ := ledgerAdd_form s w f a o n
  exact ⟨q, r, by rw [e, ledgerAlarm_mem, ledgerChain_mem, ledgerNumber_mem, ringPut_mem]⟩

theorem ledgerOnly_ledgerIf (s : State) (w : Writer) (b : Bool) (a : Nat) (o n x : W32) : LedgerOnly s (ledgerIf s w b a o n x) := by
  unfold ledgerIf; split
  · exact LedgerOnly.refl s
  · exact ledgerOnly_ledgerAdd ..

/-! ### The memories' form -/

theorem memOk_iff (s : State) : s.memOk = true ↔ memWf s.mem = true ∧ memWf s.host = true ∧ memWf s.mram = true := by
  simp [State.memOk, and_assoc]

theorem RegsOnly.memOk {s t : State} (h : RegsOnly s t) (k : s.memOk = true) : t.memOk = true := by
  obtain ⟨r, i, rfl⟩ := h; exact k

theorem memOk_ledgerAdd (s : State) (w : Writer) (f a : Nat) (o n : W32) (h : s.memOk = true) :
    (ledgerAdd s w f a o n).memOk = true := by
  rw [memOk_iff] at h ⊢
  have hm : memWf (ledgerAdd s w f a o n).mem = true := by
    obtain ⟨q, r, e⟩ := ledgerAdd_mem s w f a o n
    rw [e]
    split
    · exact memWf_wrBytes _ _ _ h.1
    · exact h.1
  obtain ⟨_, _, _, _, e⟩ := ledgerOnly_ledgerAdd s w f a o n
  refine ⟨hm, ?_, ?_⟩ <;> rw [e]
  · exact h.2.1
  · exact h.2.2

theorem memOk_ledgerIf (s : State) (w : Writer) (b : Bool) (a : Nat) (o n x : W32) (h : s.memOk = true) :
    (ledgerIf s w b a o n x).memOk = true := by
  unfold ledgerIf; split
  · exact h
  · exact memOk_ledgerAdd _ _ _ _ _ _ h

theorem memOk_bbrRaw (s : State) (b : Bb) (d : List Byte) (h : s.memOk = true) : (bbrRaw s b d).memOk = true := by
  obtain ⟨m, k, bs, rfl⟩ := bbrRaw_only s b d
  rw [memOk_iff] at h
  exact k.memOk ((memOk_iff _).2 ⟨h.1, h.2.1, memWf_wrBytes _ _ _ h.2.2⟩)

theorem memOk_cperAdd (s : State) (b : Bb) (n : Nat) (h : s.memOk = true) : (cperAdd s b n).memOk = true := by
  rcases cperAdd_only s b n with k | ⟨bs, k⟩
  · exact k.memOk h
  · rw [memOk_iff] at h
    exact k.memOk ((memOk_iff _).2 ⟨memWf_wrBytes _ _ _ (memWf_zeroRange _ _ _ h.1), h.2⟩)

theorem memOk_bbr (s : State) (b : Bb) (h : s.memOk = true) : (bbr s b).memOk = true :=
  memOk_cperAdd _ _ _ (memOk_bbrRaw _ _ _ h)

/-! ### Register writes -/

/-- From `s` to `t` only what a register write can change changed: registers, staged HI writes, interrupts, the ledger and its ring. -/
def WriteOnly (s t : State) : Prop := ∃ g, LedgerOnly { s with staged := g } t

theorem LedgerOnly.write {s t : State} (h : LedgerOnly s t) : WriteOnly s t := ⟨s.staged, h⟩

theorem WriteOnly.trans {s t u : State} (h : WriteOnly s t) (k : LedgerOnly t u) : WriteOnly s u := by
  obtain ⟨g, h⟩ := h
  exact ⟨g, h.trans k⟩

theorem writeOnly_staged (s : State) (g : Store W32) : WriteOnly s { s with staged := g } := ⟨g, LedgerOnly.refl _⟩

theorem RegsOnly.write {s t : State} (h : RegsOnly s t) : WriteOnly s t := h.ledger.write

theorem writeOnly_two (s t : State) (g : Store W32) (w : Writer) (a p : Nat) (o n x q m y : W32) (k : RegsOnly s t) :
    WriteOnly s (ledgerIf (ledgerIf { t with staged := g } w false a o n x) w false p q m y) := by
  obtain ⟨r, i, rfl⟩ := k
  exact ⟨g, LedgerOnly.trans ⟨r, i, s.ledger, s.mem, rfl⟩ ((ledgerOnly_ledgerIf ..).trans (ledgerOnly_ledgerIf ..))⟩

/-- The write of a pair's LO register: both halves, a record for each that changes, and nothing staged any more. -/
theorem writeOnly_writeLo (s : State) (w : Writer) (a : Nat) (v : W32) : WriteOnly s (writeLo s w a v) :=
  writeOnly_two _ _ _ _ _ _ _ _ _ _ _ _ ((regsOnly_setReg ..).trans (regsOnly_setReg ..))

/-- A plain register write, admitted or not, changes registers, staged writes, interrupts, the ledger and its ring alone. -/
theorem writeOnly_writeCore (w : Writer) (a : Nat) (v : W32) (b : Bool) (adj : W32 → W32 → Option W32) (s : State) :
    WriteOnly s (writeCore w a v b adj s).st := by
  have err (t : State) (h : RegsOnly s t) (p : Nat) : WriteOnly s (Written.none (errInc t p)).st := (h.trans (regsOnly_errInc ..)).write
  have same : WriteOnly s (Written.none s).st := (RegsOnly.refl s).write
  unfold writeCore
  dsimp only
  refine iteInduction (motive := fun x => WriteOnly s (Written.st x)) (fun _ => err s (RegsOnly.refl s) _) (fun _ => ?_)
  cases rowAt a with
  | none => exact same
  | some r =>
    dsimp only
    refine iteInduction (motive := fun x => WriteOnly s (Written.st x)) (fun _ => same) (fun _ => ?_)
    refine iteInduction (motive := fun x => WriteOnly s (Written.st x)) (fun _ => err s (RegsOnly.refl s) _) (fun _ => ?_)
    refine iteInduction (motive := fun x => WriteOnly s (Written.st x)) (fun _ => writeOnly_staged ..) (fun _ => ?_)
    refine iteInduction (motive := fun x => WriteOnly s (Written.st x)) (fun _ => writeOnly_writeLo ..) (fun _ => ?_)
    generalize e1 : (if (decide (a % 4096 = Off.pageCtl) && bit v 3) = true then setReg s (pageOf a + Off.errCnt) 0 else s) = s1
    have h1 : RegsOnly s s1 := e1 ▸ RegsOnly.ite (regsOnly_setReg ..) (RegsOnly.refl s)
    generalize headerVal s1 w a (reg s a) v (applyFields r (reg s a) v) = n
    generalize e2 : (if (decide (a % 4096 = Off.pageCtl) && bit n 0 && !bit (applyFields r (reg s a) v) 0) = true
      then errInc s1 (pageOf a) else s1) = s2
    have h2 : RegsOnly s s2 := h1.trans (e2 ▸ RegsOnly.ite (regsOnly_errInc ..) (RegsOnly.refl s1))
    cases adj (reg s a) n with
    | none => exact err s2 h2 _
    | some n => exact ((h2.trans (regsOnly_setReg ..)).ledger.trans (ledgerOnly_ledgerIf ..)).write

theorem WriteOnly.host {s t : State} (h : WriteOnly s t) : t.host = s.host ∧ t.mram = s.mram ∧ t.pending = s.pending := by
  obtain ⟨g, _, _, _, _, rfl⟩ := h
  exact ⟨rfl, rfl, rfl⟩

/-! ### Memory writes -/

theorem memWrite_only (s : State) (off : Nat) (bs : List Byte) :
    RegsOnly { s with mem := wrBytes s.mem off bs, poison := unpoison s.poison off bs.length } (memWrite s off bs) :=
  regsOnly_countM ..

theorem memWrite_mem (s : State) (off : Nat) (bs : List Byte) : (memWrite s off bs).mem = wrBytes s.mem off bs := by
  obtain ⟨_, _, e⟩ := memWrite_only s off bs
  rw [e]

theorem memOk_memWrite (s : State) (off : Nat) (bs : List Byte) (h : s.memOk = true) : (memWrite s off bs).memOk = true := by
  rw [memOk_iff] at h
  exact (memWrite_only s off bs).memOk ((memOk_iff _).2 ⟨memWf_wrBytes _ _ _ h.1, h.2⟩)

theorem rdB_memWrite_outside (s : State) (off c : Nat) (bs : List Byte) (h : c < off ∨ off + bs.length ≤ c) :
    rdB (memWrite s off bs).mem c = rdB s.mem c := by
  rw [memWrite_mem]; exact rdB_wrBytes_outside _ _ _ _ h

end Sys2Proof.Machine
end

