-- ==== Sys2Proof/Tests/Slice0.lean ====
section
/-! SUPPORT. The author's own tests: ill-formed operands, small steps on small states, and for each statement states that meet its
hypotheses. -/

namespace Sys2Proof.Machine

set_option Elab.async false

/-! ### Operands and states -/

/-- A class M writer over PCIe. -/
def wM : Writer := ⟨.m, 0, 0, 0, 0, false⟩

/-- A class M writer over a path that class M has not. -/
def wBad : Writer := ⟨.m, 3, 0, 0, 0, false⟩

/-- The dispatch of tile 0 of hamlet 0, and one of a hamlet that no module has. -/
def d0 : Disp := ⟨0, 0, 0, 0, 0, none⟩
def dBad : Disp := ⟨128, 0, 0, 0, 0, none⟩

/-- A memory error at an offset of no tier. -/
def memBad : MemOutcome := ⟨[0x6000000000], none, none⟩

/-- A packet and a crier packet with every field 0, and each with one field too wide. -/
def p0 : Packet := ⟨0, 0, 0, 1, 0, 0, 0, 0, 0, 0, [], 0, 0⟩
def pBad : Packet := { p0 with vc := 8 }
def k0 : Crier := ⟨0, 0, 0, 0, 0, 0, 0, List.replicate 48 0, 0⟩
def kBad : Crier := { k0 with plane := 20 }

/-! ### Operands: each check of WellFormed refuses a term that breaks it alone -/

/-- Beside the terms below, which each break one check, the same commands with every operand in range are well formed. -/
theorem test_well_formed_1 : ([
   .registerWrite wM 0 0 0, .broadcastWrite wM 0 0, .pairHiWrite wM 0 0, .pairLoWrite wM 0 0, .pairLoRead 0 0 none, .rcRead 0 0 none,
   .errClr wM 0 0, .pageFence wM 0 0, .fenceComplete 0, .quiesceReq wM 0 0, .quiesceResume wM 0 0, .unitQuiesced 0, .pageEnable wM 0 0,
   .pageDisable wM 0 0, .intStatClear wM 0 0 0, .intForce wM 0 0, .ownerWrite wM 0 0, .ledgerSeal, .ctlNop d0, .ctlSync d0, .waitn d0,
   .ctlFence d0, .setp d0, .stepEnd d0, .mmaFull d0, .mmaQuad d0, .mmaBlock d0, .mv d0, .vecAdd d0, .vecSub d0, .vecMul d0, .vecFma d0,
   .vecMin d0, .vecMax d0, .vecCmp d0, .vecSel d0, .vecIadd d0, .vecIsub d0, .vecAnd d0, .vecOr d0, .vecXor d0, .vecShl d0, .vecShr d0,
   .vecRotl d0, .vecCvt d0] : List Instr).all (fun i => i.wf) = true := by decide +kernel

theorem test_well_formed_2 : ([
   .vecExp2 d0, .vecLn d0, .vecRcp d0, .vecRsqrt d0, .vecRed d0, .vecScan d0, .vecLrscan d0, .vecLrscanRev d0, .vecLd d0, .vecSt d0,
   .ldslot d0, .vecKcm d0, .crtSubmit d0, .atsSubmit d0, .updSubmit d0, .penTrigger d0, .commandComplete 0 0 .grid, .shadowRun 0 0 0 false,
   .nfFlagClear wM (tilPg 0 0) false 0 none, .bndBoundWrite wM (tilPg 0 0) false 0, .bndKeyWrite wM (tilPg 0 0) 0, .rngCntRead (tilPg 0 0),
   .stepRelease 0, .hamletStepBoundary 0, .stepHung 0 0, .idleBoundaryTick 0 0, .prologueComplete 0, .cartListStart 0, .cartCopy 0 .clean,
   .cartFill 0, .cartSignal 0, .cartLink 0, .crtFaultClear wM (hamPg 0 0x1E) 0, .attentionJobStart 0 .clean,
   .atsFaultClear wM (hamPg 0 0x19) 0, .tokenDraw 0 0 [], .kcmTestStart wM 0, .kcmTestRun 0 0 false, .smpLastFaultClear wM 0,
   .cmdqDoorbell 0 false 0 0 0, .hringDoorbell 0 false 0 0 0, .commandFetch 0 0, .submit ⟨0⟩ 0, .append ⟨0⟩ 0, .resume ⟨0⟩ 0] : List Instr).all (fun i => i.wf) = true := by decide +kernel

theorem test_well_formed_3 : ([
   .pause ⟨0⟩ 0, .park ⟨0⟩ 0, .cancel ⟨0⟩ 0, .release ⟨0⟩ 0, .draft ⟨0⟩ 0, .setprio ⟨0⟩ 0, .reward ⟨0⟩ 0, .environmentMessage 0 0 [],
   .qpError 0, .budgetRefill 0, .parkAfterExpiry 0 0, .parkedExpiry 0 0, .shipAccept (.source 0 0 []), .shipCopyComplete 0 0,
   .shipRefused 0 0, .shipRetry 0 0, .shipDeadline 0 0, .spillComplete 0, .reqLastRejClear wM 0, .updateProgramStart 0 false, .uopLdt 0 false,
   .uopStt 0, .uopLdh 0, .uopAdd 0, .uopSub 0, .uopMul 0, .uopFma 0, .uopMin 0, .uopMax 0, .uopRsqrt 0, .uopRcp 0, .uopCvtw 0, .uopNorm 0,
   .uopAmax 0, .uopEnd 0, .updFaultClear wM (hamPg 0 0x1D) 0, .vote 0, .epochShardArrive 0 [] 0, .epochAck 0 0 false, .epochRecheck 0,
   .epochLoad wM 0, .epochLoadComplete false, .slotBaseWrite wM 0 false 0, .scrubPass 0 [], .pcRetire wM pFtm0 0] : List Instr).all (fun i => i.wf) = true := by decide +kernel

theorem test_well_formed_4 : ([
   .map wM 0, .unmap wM 0, .move wM 0, .attr wM 0, .clrcnt wM 0, .farown wM 0, .mapCommandDone, .migrationComplete 0, .prefetchEntryStart 0,
   .loftRead wM 0 0 0, .loftWrite wM 0, .loftDelete wM 0, .loftDir wM 0, .loftFetch wM 0 [], .loftCommandDone, .loftPatrol 0 [],
   .loftMemberFail 0 [], .loftRebuildDone, .ntmErrClear wM pFtm0 0, .laneBad 0 0, .ylkRetrain wM 0 0, .retrainComplete 0 0,
   .flitReceive 0 (List.replicate 256 0) 0 0, .nak 0 0, .retryLimit 0 0, .load p0, .loadResp p0, .store p0, .put p0, .get p0, .getResp p0,
   .reducePut p0, .ack p0, .e2eResend 0 0 0 0, .portDown 0 0, .portUp 0 0, .d2dLaneRepair 0 0, .routerStall (hamPg 0 0x1F) 0 [],
   .firingStart 0 0, .descPut 0 0 0 .clean, .descGet 0 0 0, .allreduce 0 0 0, .descSignal 0 0 0, .publish 0 0 0, .segmentCombine 0 0 0 0] : List Instr).all (fun i => i.wf) = true := by decide +kernel

theorem test_well_formed_5 : ([
   .descriptorComplete 0 0 0, .penFaultClear wM 0, .groupReform 0 false, .crierOriginate wM 0, .crierSend, .suspect k0, .clear k0, .dead k0,
   .fenceModule k0, .fenceStep k0, .regWrite k0, .census k0, .flr 0, .flrComplete 0, .functionEnable wM 0 0, .functionDisable wM 0 0,
   .ringBaseWrite wM 0x10011C 0, .apertureAccess 0 false 0 [], .vfApertureAccess 0 0 false 0 [], .create wM 0 0, .destroy wM 0 0,
   .destroyProceed 0, .loadImage wM 0 0, .reset wM 0 0, .islFreqWrite wM (hamPg 0 0x1B) 0, .boundaryEvaluate 0 0 0 0 0 0,
   .clampLower 0 0 0 0 0 0, .droopCross 0 0 0, .stretchRelease 0 0, .escalation 0 0, .escalationLower 0 0, .islandRestore 0 0,
   .powerSample 0 0, .capStep, .thermalLower 0 0 0, .thermalTrip 0 0 0, .refLoss 0, .coldReset .power ⟨0, []⟩, .warmReset .pcie ⟨0, []⟩,
   .hamletReset wM 0, .bootReady, .svnCommit wM 0, .bootFailClear wM 0, .liveSwitch wM 0, .liveSwitchComplete none] : List Instr).all (fun i => i.wf) = true := by decide +kernel

theorem test_well_formed_6 : ([
   .slotExtend wM 0, .ownerEnrol wM 0, .ownerRevoke wM 0, .getVersion [0x12, 0x84], .capabilities [0x12, 0xE1],
   .negotiateAlgorithms [0x12, 0xE3], .getDigests [0x12, 0x81], .getCertificate [0x12, 0x82], .challenge [0x12, 0x83],
   .getMeasurements [0x12, 0xE0], .spdmUnsupported [0x12, 0x99], .queryDeviceIdentifiers, .getFirmwareParameters, .requestUpdate 0,
   .passComponentTable 0, .updateComponent 0 0, .requestFirmwareData 0 [], .transferComplete, .verifyComplete, .applyComplete,
   .activateFirmware false, .getStatus, .cancelUpdate, .faultedStepEnd 0 [], .bbrMirror, .tileTest 0 0 false, .rasLastMmClear wM 0,
   .heartbeatSend 0, .heartbeat 0 0 0, .echo 0 0 0, .heartbeatMiss 0 0, .reportExpiry 0 0, .selfFence 0, .mbrIdWrite wM 0, .mbrInit wM 0,
   .haltSample false false 0, .haltCheckpointDone, .haltAck wM 0, .haltClear, .mirrorComplete, .ckpRecheck 0, .shardFlushComplete 0 [] 0,
   .manifestWrite, .restoreStepDecide [], .restoreLoad 0 [] false] : List Instr).all (fun i => i.wf) = true := by decide +kernel

theorem test_well_formed_7 : ([
   .ckpRestore wM 0 [] [], .counterSelectWrite wM 0 0, .counterClear wM (hamPg 0 0x1C) 0, .censusStart wM 0, .censusMarker 0, .censusDone,
   .vinLow, .vinRestore ⟨0, []⟩, .auxLoss ⟨0, []⟩, .perst ⟨0, []⟩, .swapRequest, .swapCancel ⟨0, []⟩, .spillRestoreComplete 0,
   .ethernetLinkChange 0 false, .ptpMessage 0 false 0 0, .referenceClockReturn 0, .pfcPauseFrame 0 0 0, .pcieLinkTraining 1 1 0] : List Instr).all (fun i => i.wf) = true := by decide +kernel

theorem test_ill_formed_1 : ([
   .registerWrite wBad 0 0 0, .registerWrite wM 0x20000000 0 0, .broadcastWrite wBad 0 0, .broadcastWrite wM 0x20000000 0,
   .pairHiWrite wBad 0 0, .pairHiWrite wM 0x20000000 0, .pairLoWrite wBad 0 0, .pairLoWrite wM 0x20000000 0, .pairLoRead 0x20000000 0 none,
   .pairLoRead 0 65 none, .pairLoRead 0 0 (some 512), .rcRead 0x20000000 0 none, .rcRead 0 65 none, .rcRead 0 0 (some 512), .errClr wBad 0 0,
   .errClr wM 1 0, .pageFence wBad 0 0, .pageFence wM 1 0, .fenceComplete 1, .quiesceReq wBad 0 0, .quiesceReq wM 1 0,
   .quiesceResume wBad 0 0, .quiesceResume wM 1 0, .unitQuiesced 1, .pageEnable wBad 0 0, .pageEnable wM 1 0, .pageDisable wBad 0 0,
   .pageDisable wM 1 0, .intStatClear wBad 0 0 0, .intStatClear wM 1 0 0, .intForce wBad 0 0, .intForce wM 1 0, .ownerWrite wBad 0 0,
   .ownerWrite wM 1 0, .ctlNop dBad, .ctlSync dBad, .waitn dBad, .ctlFence dBad, .setp dBad, .stepEnd dBad, .mmaFull dBad, .mmaQuad dBad,
   .mmaBlock dBad, .mv dBad, .vecAdd dBad] : List Instr).all (fun i => !i.wf) = true := by decide +kernel

theorem test_ill_formed_2 : ([
   .vecSub dBad, .vecMul dBad, .vecFma dBad, .vecMin dBad, .vecMax dBad, .vecCmp dBad, .vecSel dBad, .vecIadd dBad, .vecIsub dBad,
   .vecAnd dBad, .vecOr dBad, .vecXor dBad, .vecShl dBad, .vecShr dBad, .vecRotl dBad, .vecCvt dBad, .vecExp2 dBad, .vecLn dBad, .vecRcp dBad,
   .vecRsqrt dBad, .vecRed dBad, .vecScan dBad, .vecLrscan dBad, .vecLrscanRev dBad, .vecLd dBad, .vecSt dBad, .ldslot dBad, .vecKcm dBad,
   .crtSubmit dBad, .atsSubmit dBad, .updSubmit dBad, .penTrigger dBad, .commandComplete 128 0 .grid, .commandComplete 0 16 .grid,
   .shadowRun 128 0 0 false, .shadowRun 0 16 0 false, .nfFlagClear wBad (tilPg 0 0) false 0 none, .nfFlagClear wM (hamPgOf 0) false 0 none,
   .bndBoundWrite wBad (tilPg 0 0) false 0, .bndBoundWrite wM (hamPgOf 0) false 0, .bndKeyWrite wBad (tilPg 0 0) 0,
   .bndKeyWrite wM (hamPgOf 0) 0, .rngCntRead (hamPgOf 0), .stepRelease 32, .hamletStepBoundary 128] : List Instr).all (fun i => !i.wf) = true := by decide +kernel

theorem test_ill_formed_3 : ([
   .stepHung 128 0, .stepHung 0 16, .idleBoundaryTick 32 0, .prologueComplete 32, .cartListStart 128, .cartCopy 128 .clean,
   .cartCopy 0 memBad, .cartFill 128, .cartSignal 128, .cartLink 128, .crtFaultClear wBad (hamPg 0 0x1E) 0, .crtFaultClear wM (tilPg 0 0) 0,
   .attentionJobStart 128 .clean, .attentionJobStart 0 memBad, .atsFaultClear wBad (hamPg 0 0x19) 0, .atsFaultClear wM (tilPg 0 0) 0,
   .tokenDraw 16384 0 [], .kcmTestStart wBad 0, .kcmTestRun 128 0 false, .kcmTestRun 0 17 false, .smpLastFaultClear wBad 0,
   .cmdqDoorbell 513 false 0 0 0, .hringDoorbell 513 false 0 0 0, .commandFetch 513 0, .submit ⟨513⟩ 0, .append ⟨513⟩ 0, .resume ⟨513⟩ 0,
   .pause ⟨513⟩ 0, .park ⟨513⟩ 0, .cancel ⟨513⟩ 0, .release ⟨513⟩ 0, .draft ⟨513⟩ 0, .setprio ⟨513⟩ 0, .reward ⟨513⟩ 0,
   .environmentMessage 16384 0 [], .qpError 16384, .parkAfterExpiry 16384 0, .parkedExpiry 16384 0, .shipAccept (.source 16384 0 []),
   .shipCopyComplete 16384 0, .shipCopyComplete 0 16384, .shipRefused 16384 0, .shipRetry 16384 0, .shipDeadline 16384 0, .spillComplete 32] : List Instr).all (fun i => !i.wf) = true := by decide +kernel

theorem test_ill_formed_4 : ([
   .reqLastRejClear wBad 0, .updateProgramStart 128 false, .uopLdt 128 false, .uopStt 128, .uopLdh 128, .uopAdd 128, .uopSub 128, .uopMul 128,
   .uopFma 128, .uopMin 128, .uopMax 128, .uopRsqrt 128, .uopRcp 128, .uopCvtw 128, .uopNorm 128, .uopAmax 128, .uopEnd 128,
   .updFaultClear wBad (hamPg 0 0x1D) 0, .updFaultClear wM (tilPg 0 0) 0, .vote 128, .epochShardArrive 0 [] 65536, .epochLoad wBad 0,
   .slotBaseWrite wBad 0 false 0, .slotBaseWrite wM 3 false 0, .scrubPass 16 [], .scrubPass 0 [⟨0x6000000000, 0, [], 0, []⟩],
   .scrubPass 0 [⟨0, 0, [0x6000000000], 0, []⟩], .scrubPass 0 [⟨0, 0, [], 0, [851968]⟩], .pcRetire wBad pFtm0 0, .pcRetire wM 0 0,
   .map wBad 0, .unmap wBad 0, .move wBad 0, .attr wBad 0, .clrcnt wBad 0, .farown wBad 0, .migrationComplete 2097152, .prefetchEntryStart 32,
   .loftRead wBad 0 0 0, .loftRead wM 0 0 3, .loftWrite wBad 0, .loftDelete wBad 0, .loftDir wBad 0, .loftFetch wBad 0 [],
   .loftMemberFail 10 []] : List Instr).all (fun i => !i.wf) = true := by decide +kernel

theorem test_ill_formed_5 : ([
   .ntmErrClear wBad pFtm0 0, .ntmErrClear wM 0 0, .laneBad 16 0, .laneBad 0 5, .ylkRetrain wBad 0 0, .ylkRetrain wM 16 0,
   .retrainComplete 16 0, .retrainComplete 0 32, .flitReceive 16 (List.replicate 256 0) 0 0, .flitReceive 0 (List.replicate 0 0) 0 0,
   .nak 16 0, .nak 0 1024, .retryLimit 16 0, .retryLimit 0 1024, .load pBad, .loadResp pBad, .loadResp ({ p0 with len := 1 }), .store pBad,
   .store ({ p0 with len := 1 }), .put pBad, .put ({ p0 with len := 1 }), .get pBad, .getResp pBad, .getResp ({ p0 with len := 1 }),
   .reducePut pBad, .reducePut ({ p0 with len := 1 }), .ack pBad, .e2eResend 0 8 0 0, .portDown 16 0, .portDown 0 65536, .portUp 16 0,
   .portUp 0 65536, .d2dLaneRepair 4 0, .d2dLaneRepair 0 2, .routerStall 0 0 [], .routerStall (hamPg 0 0x1F) 35 [], .firingStart 32 0,
   .firingStart 0 4096, .descPut 32 0 0 .clean, .descPut 0 4096 0 .clean, .descPut 0 0 0 memBad, .descGet 32 0 0, .descGet 0 4096 0,
   .allreduce 32 0 0, .allreduce 0 4096 0] : List Instr).all (fun i => !i.wf) = true := by decide +kernel

theorem test_ill_formed_6 : ([
   .descSignal 32 0 0, .descSignal 0 4096 0, .publish 32 0 0, .publish 0 4096 0, .segmentCombine 32 0 0 0, .segmentCombine 0 4096 0 0,
   .descriptorComplete 32 0 0, .descriptorComplete 0 4096 0, .penFaultClear wBad 0, .groupReform 64 false, .crierOriginate wBad 0,
   .suspect kBad, .clear kBad, .dead kBad, .fenceModule kBad, .fenceStep kBad, .regWrite kBad, .census kBad, .flr 512, .flrComplete 512,
   .functionEnable wBad 0 0, .functionEnable wM 512 0, .functionDisable wBad 0 0, .functionDisable wM 512 0, .ringBaseWrite wBad 0x10011C 0,
   .ringBaseWrite wM 0x100100 0, .apertureAccess 68719476736 false 0 [], .apertureAccess 0 false 4097 [],
   .apertureAccess 0 false 0 (List.replicate 4097 0), .vfApertureAccess 512 0 false 0 [], .vfApertureAccess 0 17179869184 false 0 [],
   .vfApertureAccess 0 0 false 4097 [], .vfApertureAccess 0 0 false 0 (List.replicate 4097 0), .create wBad 0 0, .create wM 32 0,
   .destroy wBad 0 0, .destroy wM 32 0, .destroyProceed 32, .loadImage wBad 0 0, .loadImage wM 32 0, .reset wBad 0 0, .reset wM 32 0,
   .islFreqWrite wBad (hamPg 0 0x1B) 0, .islFreqWrite wM (tilPg 0 0) 0, .boundaryEvaluate 128 0 0 0 0 0] : List Instr).all (fun i => !i.wf) = true := by decide +kernel

theorem test_ill_formed_7 : ([
   .boundaryEvaluate 0 18 0 0 0 0, .boundaryEvaluate 0 0 0 0 128 0, .boundaryEvaluate 0 0 0 0 0 128, .clampLower 128 0 0 0 0 0,
   .clampLower 0 18 0 0 0 0, .clampLower 0 0 0 0 128 0, .clampLower 0 0 0 0 0 128, .droopCross 128 0 0, .droopCross 0 18 0,
   .stretchRelease 128 0, .stretchRelease 0 18, .escalation 128 0, .escalation 0 18, .escalationLower 128 0, .escalationLower 0 18,
   .islandRestore 128 0, .islandRestore 0 18, .thermalLower 128 0 0, .thermalLower 0 18 0, .thermalLower 0 0 128, .thermalTrip 128 0 0,
   .thermalTrip 0 18 0, .thermalTrip 0 0 128, .refLoss 2, .coldReset (.write wBad 0) ⟨0, []⟩, .coldReset .power ⟨4, []⟩,
   .warmReset (.write wBad 0) ⟨0, []⟩, .warmReset .pcie ⟨4, []⟩, .hamletReset wBad 0, .svnCommit wBad 0, .bootFailClear wBad 0,
   .liveSwitch wBad 0, .liveSwitchComplete (some 128), .slotExtend wBad 0, .ownerEnrol wBad 0, .ownerRevoke wBad 0, .getVersion [0x12, 0x99],
   .capabilities [0x12, 0x99], .negotiateAlgorithms [0x12, 0x99], .getDigests [0x12, 0x99], .getCertificate [0x12, 0x99],
   .challenge [0x12, 0x99], .getMeasurements [0x12, 0x99], .spdmUnsupported [0x12, 0x84], .requestFirmwareData 0 (List.replicate 4097 0)] : List Instr).all (fun i => !i.wf) = true := by decide +kernel

theorem test_ill_formed_8 : ([
   .faultedStepEnd 32 [], .tileTest 128 0 false, .tileTest 0 17 false, .rasLastMmClear wBad 0, .heartbeat 65536 0 0, .heartbeat 0 65536 0,
   .heartbeat 0 0 0x100000000, .echo 65536 0 0, .echo 0 65536 0, .echo 0 0 0x100000000, .heartbeatMiss 65536 0, .reportExpiry 65536 0,
   .mbrIdWrite wBad 0, .mbrInit wBad 0, .haltAck wBad 0, .ckpRestore wBad 0 [] [], .counterSelectWrite wBad 0 0,
   .counterSelectWrite wM 0x20000000 0, .counterClear wBad (hamPg 0 0x1C) 0, .counterClear wM (tilPg 0 0) 0, .censusStart wBad 0,
   .censusMarker 1, .vinRestore ⟨4, []⟩, .auxLoss ⟨4, []⟩, .perst ⟨4, []⟩, .swapCancel ⟨4, []⟩, .spillRestoreComplete 32,
   .ethernetLinkChange 4 false, .ptpMessage 4 false 0 0, .referenceClockReturn 2, .pfcPauseFrame 4 0 0, .pfcPauseFrame 0 8 0,
   .pfcPauseFrame 0 0 65536, .pcieLinkTraining 3 1 0, .pcieLinkTraining 1 0 0, .pcieLinkTraining 1 7 0, .pcieLinkTraining 1 1 513] : List Instr).all (fun i => !i.wf) = true := by decide +kernel


/-! ### Ill-formed fields of operands -/

theorem test_ill_formed_writers : ([⟨.m, 3, 0, 0, 0, false⟩, ⟨.f, 0, 0, 0, 0, false⟩, ⟨.t, 1, 0, 0, 0, false⟩, ⟨.d, 3, 0, 0, 0, false⟩,
    ⟨.x, 4, 0, 0, 0, false⟩, { wM with fn := 512 }, { wM with source := 65536 }, { wM with mepoch := 65536 }] : List Writer).all (fun w => !w.wf) = true := by
  decide +kernel

theorem test_ill_formed_dispatches : ([dBad, { d0 with tile := 16 }, { d0 with kind := 4 }, { d0 with unc := some 0x40000 }] : List Disp).all
    (fun d => !d.wf) = true := by decide +kernel

theorem test_ill_formed_memory_errors : ([memBad, { memBad with corr := [0x3A000000000] }, ⟨[], some 0x1FFFFFFFFFF, none⟩, ⟨[], none, some (0x800000, true)⟩] :
    List MemOutcome).all (fun m => !m.wf) = true := by decide +kernel

theorem test_ill_formed_packets : ([{ p0 with dst := 65536 }, { p0 with src := 65536 }, { p0 with mepoch := 65536 }, { p0 with flags := 8 },
    { p0 with len := 4097 }, { p0 with part := 32 }, { p0 with seq := 2 ^ 32 }, { p0 with tag := 2 ^ 32 }, { p0 with addr := 2 ^ 64 }, pBad,
    { p0 with port := 20 }, { p0 with data := List.replicate 4097 0 }] : List Packet).all (fun p => !p.wf) = true := by decide +kernel

theorem test_ill_formed_crier_packets : ([{ k0 with dst := 65536 }, { k0 with origin := 65536 }, { k0 with mepoch := 65536 }, { k0 with hops := 256 },
    { k0 with seq := 65536 }, { k0 with typ := 256 }, { k0 with args := [] }, kBad] : List Crier).all (fun k => !k.wf) = true := by decide +kernel

theorem test_ill_formed_other : ([tempOk (-129), tempOk 128, BootOutcome.wf ⟨4, []⟩, BootOutcome.wf ⟨0, [256]⟩, ColdSrc.wf (.write wBad 0),
    WarmSrc.wf (.write wBad 0), ShipSide.wf (.source 16384 0 []), ShipSide.wf (.source 0 16384 []), ShipSide.wf (.target 0 65536 0 0), ShipSide.wf (.target 0 0 16384 0), ShipSide.wf (.target 0 0 0 32), inTiers 0x6000000000, inTiers 0x3A000000000] :
    List Bool).all (fun b => !b) = true := by decide +kernel

/-! ### States that the statements' witnesses use -/

/-- READY after boot. -/
def sUp : State := setReg State.reset (pBoot + Off.bootStat) 0x80000000

/-- Register values put one after another. -/
def regsAt (s : State) (l : List (Nat × W32)) : State := l.foldl (fun s x => setReg s x.1 x.2) s

/-- Bytes put into the near and far tiers. -/
def memAt (s : State) (a : Nat) (bs : List Byte) : State :=
  { s with mem := s.mem.filter (fun e => decide (e.1 < a)) ++
      (((List.range bs.length).zip bs).filter (fun x => decide (x.2 ≠ 0))).map (fun x => (a + x.1, x.2)) ++
      s.mem.filter (fun e => decide (a + bs.length ≤ e.1)) }

/-- No next record has a slot while the ring is not up, so no table meets one. -/
theorem tablesClear_of_noRing (s : State) (n : Nat) (h : s.ledger.ringUp = false) : s.tablesClear n := by
  intro a ha
  have := ha.1
  simp_all

/-- No next record has a slot while the ring is not up. -/
theorem noRecord_of_noRing (s : State) (n a : Nat) (h : s.ledger.ringUp = false) : ¬ inNextRecords s n a := by
  intro ha
  have := ha.1
  simp_all

/-! ### Witnesses: states and operands that meet the hypotheses of the statements -/

/-- Partition 0 with hamlet 0, whose tile 15 runs logical tile 15, and pseudo-channel 0; a step of it is in flight. -/
def sPart : State :=
  setHam (setPart (regsAt sUp [(pcStat 0, 0), (hamPgOf 0 + Off.hamTmap + 60, 0x8000000F)]) 0 { Part.init with
      st := .running, hams := [0], pcs := [0], ways := 0xFF, resident := some 0, images := [(0, ⟨0x100000, 0x10000⟩)], inStep := true, step := 5 }) 0
    { Hamlet.init with part := some 0, bound := false }

/-- The image at 0x100000 with sections of a type, item count and bytes, the first at 0x101000, 4 KiB apart. -/
def putImage (s : State) (l : List (Nat × Nat × List Byte)) : State :=
  (l.zip (List.range l.length)).foldl (fun s x =>
      memAt (memAt s (sectAt 0x100000 x.2) (bytesOf 4 x.1.1 ++ bytesOf 4 x.1.2.1 ++ bytesOf 8 (0x1000 * (x.2 + 1)) ++ bytesOf 8 x.1.2.2.length))
        (0x101000 + 0x1000 * x.2) x.1.2.2)
    (memAt s 0x100010 (bytesOf 4 l.length))

/-- The dispatch of tile 15. -/
def d15 : Disp := ⟨0, 15, 0, 0, 0, none⟩

/-- The first word of a command of class `cls` and opcode `op` with the other bits `lo`. -/
def wCmd (cls op lo : Nat) : W128 := BitVec.ofNat 128 (op * 2 ^ 120 + cls * 2 ^ 116 + lo)

/-- The stream of tile 15 of hamlet 0 at the command `wCmd cls op lo` with the second word `x`; two words of the tile's scratchpad
make a sub-problem with K 1, and its SYNC counters 0 and 63 hold 1 and 65,534. -/
def sCmd (cls op lo x : Nat) : State :=
  memAt (setTile (setStr sPart 0 15 { Stream.init with phase := .body, bodyAt := 0x2000, bodyLen := 4, sync := [(0, 1), (63, 65534)] })
      (ctxKey sPart 0 15) { Tile.init with spad := [(5, 1)] }) 0x2000
    (bytesOf 16 (op * 2 ^ 120 + cls * 2 ^ 116 + lo) ++ bytesOf 16 x)

/-- Partition 0 at a boundary, as a learner. -/
def sLearn : State := setPart sPart 0 { getPart sPart 0 with inStep := false, learner := true }

/-- Every stream of hamlet `h` at the end of its step. -/
def endStreams (s : State) (h : Nat) : State :=
  (List.range 16).foldl (fun s l => setStr s h l { getStr s h l with phase := .ended }) s

/-- A function with every slot and partition 0. -/
def sFn (s : State) (n : Nat) : State :=
  regsAt s [(fncPg n + Off.fncCfg, 0x80000000), (fncPg n + Off.fncPmask, 1), (fncPg n + Off.fncSlots, 16384)]

/-- A request command: OP, slot, N, ADDR and ARG. -/
def rcWord (op slot n addr arg : Nat) : W256 := BitVec.ofNat 256 (op + slot * 2 ^ 16 + n * 2 ^ 32 + addr * 2 ^ 64 + arg * 2 ^ 128)

/-- READY, with the tables of the far tier apart from each other, and unified pages 0 and 1 of partition 0 backed by near
frame 0x300 and far frame 5. -/
def sMap : State :=
  memAt (regsAt sUp [(pFtm0 + Off.ftmUmapBaseLo, 0x10000000), (pFtm0 + Off.ftmUmapBaseLo + 4, 0), (pFtm0 + Off.ftmFownBaseLo, 0x20000000),
      (pFtm0 + Off.ftmFownBaseLo + 4, 0), (pFtm0 + Off.ftmAccBaseLo, 0x30000000), (pFtm0 + Off.ftmAccBaseLo + 4, 0),
      (pcStat 0, 0)]) 0x10000000 (bytesOf 8 (2 ^ 63 + 0x300) ++ bytesOf 8 (2 ^ 63 + 2 ^ 62 + 5))

/-- Partition 0 at a boundary, as a generator with an entry in its batch. -/
def sGen : State :=
  setPart sPart 0 { getPart sPart 0 with inStep := false, batch := [⟨7, 1, 4, false, [], [], none, [], 0, 0xFFFFFFFF, [], 0⟩], subs := [0xFFFFFFFF] }

theorem witness_StepRunsFrontOfQueue : ({ State.reset with pending := [.bootReady, .censusDone] } : State).pending = [.bootReady, .censusDone] := by
  decide +kernel

theorem witness_RegisterWindow_writes :
    (sUp.managed wM (pageOf 0x1100) = true ∧ classOf (pageOf 0x1100) ∈ plainClasses ∧
      (rowAt 0x1100).any (fun r => decide (r.kind = 0 ∧ r.wr % 2 = 1)) = true) ∧
    (∀ d < 4, sUp.managed wM ((d + 1) * 0x2000000 + 31 * 0x40000 + 0x1B000) = true) ∧
    (sUp.managed wM (pageOf 0x10114) = true ∧ classOf (pageOf 0x10114) ∈ plainClasses ∧
      (rowAt 0x10114).any (fun r => decide (r.kind = 2 ∧ r.wr % 2 = 1)) = true) ∧
    (sUp.managed wM (pageOf 0x10110) = true ∧ (rowAt 0x10110).any (fun r => decide (r.kind = 1 ∧ r.wr % 2 = 1)) = true) := by
  decide +kernel

theorem witness_RegisterWindow_rejections :
    (wM.wf = true ∧ isBcast 0x1E000008 = true ∧ classOf (pageOf (dieAddr 0 0x1E000008)) ≠ 0x44) ∧
    (sUp.pageOpen 0x1000 = true ∧ (rowAt 0x1000).any (fun r => !admits sUp wM r 0x1000 5) = true) ∧
    (isBcast 0x80000 = false ∧ pageLive sUp (pageOf 0x80000) = false) ∧
    (¬ (2 = 4 ∧ 0x1102 % 4 = 0) ∧ ¬ (2 = 8 ∧ 0x1102 % 8 = 0)) := by
  decide +kernel

theorem witness_ReadsCaptureAndClear :
    (pageLive sUp (pageOf 12548) = true ∧ (rowAt 12548).any (fun r => r.cap && decide (r.rc = 0)) = true ∧
      getS sUp.capt (regKey sUp 12548) = none) ∧
    (pageLive sUp (pageOf 4376) = true ∧ (rowAt 4376).any (fun r => !r.cap && decide (r.rc ≠ 0)) = true ∧
      getS sUp.capt (regKey sUp 4376) = none) ∧
    (tilePage (tilPg 127 16) = true ∧ pageLive sUp (tilPg 127 16) = true) := by
  decide +kernel

theorem witness_HeaderWrites_control :
    let s1 := regsAt sUp [(islPg 0 + Off.pageCtl, 3), (islPg 0 + Off.pageStat, 2)]
    let p := crtPg 0
    let q := regsAt sUp [(p + Off.pageCtl, 3), (p + Off.pageStat, 2)]
    (sUp.managed wM p = true ∧ bit (8 : W32) 3 = true ∧ (bit (reg sUp (p + Off.pageCtl)) 0 = true → bit (8 : W32) 0 = false → bit (pageStat sUp p) 3 = true)) ∧
    (q.managed wM p = true ∧ ¬ (bit (reg q (p + Off.pageCtl)) 0 = true → bit (8 : W32) 0 = false → bit (pageStat q p) 3 = true)) ∧
    (canQuiesce p = true ∧ bit (reg sUp (p + Off.pageCtl)) 1 = false ∧ regF sUp (p + Off.pageStat) 2 0 ≠ 4) ∧
    (bit (reg q (p + Off.pageCtl)) 1 = true ∧ regF q (p + Off.pageStat) 2 0 = 2 ∧ unitIdle q p = true) ∧
    (s1.managed wM (islPg 0) = true) := by
  decide +kernel

theorem witness_HeaderWrites_interrupts :
    let s := setReg sUp (pBoot + Off.bootStat) 0xA0000000
    let l := setReg sUp (pPwr + Off.owner) 0x80000000
    (s.up = true ∧ wM.wf = true ∧ s.pageOpen pPwr = true ∧ pPwr ≠ pLdg) ∧
    ((⟨.d, 4, 0, 0, 0, false⟩ : Writer).wf = true ∧ bit (reg s (pBoot + Off.bootStat)) 29 = true ∧ raised s pPwr = false) ∧
    ((⟨.f, 3, 0, 0, 0, true⟩ : Writer).wf = true ∧ bit (reg sUp (pPwr + Off.owner)) 31 = false ∧ bit (reg l (pPwr + Off.owner)) 31 = true) := by
  decide +kernel

theorem witness_LedgerRecordsChainAndSeal :
    pageOf 0x1100 ≠ pLdg ∧ ({ State.reset.ledger with due := [(4095, List.replicate 16 1)] } : Ledger).due = [(4095, List.replicate 16 1)] := by
  decide +kernel

theorem witness_VectorLaneResults :
    ∀ op ∈ [0x01, 0x02, 0x03, 0x04, 0x05, 0x06, 0x07, 0x08, 0x10, 0x11, 0x12, 0x13, 0x14, 0x15, 0x16, 0x17, 0x20, 0x21, 0x22, 0x23],
      (sCmd 3 op (63 * 2 ^ 58 + 15 * 2 ^ 32 * (if op = 7 then 0 else 1)) 0).sends d15 3 op
        (wCmd 3 op (63 * 2 ^ 58 + 15 * 2 ^ 32 * (if op = 7 then 0 else 1))) 0 := by
  unfold State.sends; decide +kernel

theorem witness_VectorCrossLaneResults :
    ∀ op ∈ [0x28, 0x29, 0x2A, 0x2B, 0x38, 0x30, 0x31, 0x32, 0x18], (sCmd 3 op (60 * 2 ^ 58) 0).sends d15 3 op (wCmd 3 op (60 * 2 ^ 58)) 0 := by
  unfold State.sends; decide +kernel

theorem witness_MatrixProducts :
    (sCmd 1 1 (6 * 2 ^ 60 + 6 * 2 ^ 56 + 128) (1 + 2 ^ 16 + 2 ^ 32)).sends d15 1 1 (wCmd 1 1 (6 * 2 ^ 60 + 6 * 2 ^ 56 + 128)) (1 + 2 ^ 16 + 2 ^ 32) ∧
    (sCmd 1 2 (6 * 2 ^ 60 + 6 * 2 ^ 56) 0).sends d15 1 2 (wCmd 1 2 (6 * 2 ^ 60 + 6 * 2 ^ 56)) 0 ∧
    (sCmd 1 3 (6 * 2 ^ 60 + 6 * 2 ^ 56) 0).sends d15 1 3 (wCmd 1 3 (6 * 2 ^ 60 + 6 * 2 ^ 56)) 0 ∧
    (sCmd 2 1 (6 * 2 ^ 60 + 2 ^ 58 + 128 * 2 ^ 20) 0).sends d15 2 1 (wCmd 2 1 (6 * 2 ^ 60 + 2 ^ 58 + 128 * 2 ^ 20)) 0 := by
  unfold State.sends; decide +kernel

/-- A wait for counter 0, and a signal of counter 63. -/
def waits0 : Nat := 2 ^ 87
def signals63 : Nat := 2 ^ 76 + 63 * 2 ^ 69

theorem witness_StreamControlAndSubmits :
    (∀ op ∈ [0, 1, 2, 3, 4, 5], (sCmd 0 op waits0 0).sends d15 0 op (wCmd 0 op waits0) 0 ∧ cwSigEn (wCmd 0 op waits0) = false) ∧
    ((sCmd 0 1 signals63 0).sends d15 0 1 (wCmd 0 1 signals63) 0 ∧ cwSigEn (wCmd 0 1 signals63) = true ∧ cwSigRem (wCmd 0 1 signals63) = false ∧
      getD (getStr (sCmd 0 1 signals63 0) 0 15).sync (cwSigIdx (wCmd 0 1 signals63)) 0 -
        waitSum (waitsOf (wCmd 0 1 signals63)) (cwSigIdx (wCmd 0 1 signals63)) ≠ 65535) ∧
    (∀ cls ∈ [4, 5, 6], (sCmd cls 1 0 0).sends d15 cls 1 (wCmd cls 1 0) 0) := by
  unfold State.sends; decide +kernel

theorem witness_StreamControl_trigger :
    let s := putImage (sCmd 7 1 0 0) [(4, 1, bytesOf 2 255 ++ bytesOf 2 0 ++ bytesOf 4 1 ++ bytesOf 8 0)]
    s.sends d15 7 1 (wCmd 7 1 0) 0 ∧ cwSigEn (wCmd 7 1 0) = false ∧ (getHam s 0).part = some 0 ∧ bit (getPart s 0).trCfg 31 = false ∧
    chainHdr s 0 (fld (wCmd 7 1 0) 15 0) = some ⟨255, 0, 1, 0, 0x101000⟩ ∧ getD (getPart s 0).pctr 255 0 ≠ 2 ^ 48 - 1 := by
  unfold State.sends; decide +kernel

theorem witness_CommandsComplete :
    let f : InFlight := ⟨.grid, wCmd 1 1 signals63, false, 0⟩
    let s (n : Nat) := setStr sPart 0 15 { Stream.init with phase := .body, inflight := [f], sync := [(63, n)], gmv := 1 }
    let p := setPart (s 1) 0 { getPart (s 1) 0 with shadow := 4 }
    (∀ n ∈ [65534, 65535], (getStr (s n) 0 15).inflight.find? (ripe .grid) = some f ∧ cwSigEn f.word = true ∧ cwSigRem f.word = false ∧
      getD (getStr (s n) 0 15).sync (cwSigIdx f.word) 0 = n) ∧
    ((getHam p 0).part = some 0 ∧ shadowed p 0 15 0 = true ∧ 0 < (getStr p 0 15).gmv ∧ (getPart p 0).inStep = true ∧ (getPart p 0).cause = none) := by
  decide +kernel

theorem witness_CommandsRejectedOrWait :
    (∀ row ∈ streamRows, fetchCmd (sCmd row.1 row.2.1 (2 ^ 64) 0) 0 15 = some (wCmd row.1 row.2.1 (2 ^ 64), 0) ∧
      cwClass (wCmd row.1 row.2.1 (2 ^ 64)) = row.1 ∧ cwOp (wCmd row.1 row.2.1 (2 ^ 64)) = row.2.1 ∧
      mayDispatch (sCmd row.1 row.2.1 (2 ^ 64) 0) 0 15 (wCmd row.1 row.2.1 (2 ^ 64)) = true ∧
      cmdBad (sPart.ctx 0 15) (wCmd row.1 row.2.1 (2 ^ 64)) 0 (fun _ => 0) = true ∧
      mayDispatch (sCmd row.1 row.2.1 (2 ^ 87 + 2 ^ 81) 0) 0 15 (wCmd row.1 row.2.1 (2 ^ 87 + 2 ^ 81)) = false) ∧
    ({ d15 with unc := some 0x3FFFF } : Disp).wf = true ∧ cmdBad (sPart.ctx 0 15) (wCmd 3 1 0) 0 (fun _ => 0) = false := by
  decide +kernel

theorem witness_TilePageWrites :
    let p := tilPg 127 16
    let s := regsAt sUp [(p + Off.tilNfA, 0x80001001), (p + Off.tilNfB, 0x80001001)]
    tilePage p = true ∧ s.managed wM p = true ∧ bit (0x80000000 : W32) 31 = true ∧ bit (reg s (p + Off.tilNfA)) 31 = true ∧
    bit (reg s (p + Off.tilNfB)) 31 = true ∧ flt (0x3F800000 : W32) (0x40000000 : W32) = true := by
  decide +kernel

theorem witness_StepsReleased :
    mayRelease sLearn 0 = true ∧ (getPart sLearn 0).learner = true ∧ (∀ h ∈ (getPart sLearn 0).hams, h < 128) ∧
    mayRelease sGen 0 = true ∧ (epochRelease sGen 0 (nextStep (getPart sGen 0))).2 = true ∧ mayRelease sPart 0 = false := by
  decide +kernel

/-- A learner step over hamlets 0 and 1, in flight, with the streams of hamlet 0 at their end. -/
def sTwo : State :=
  endStreams (setHam (setPart sPart 0 { getPart sPart 0 with hams := [0, 1], learner := true }) 1 { Hamlet.init with part := some 0, bound := false }) 0

theorem witness_StepsBoundedAndHung :
    (sTwo.quar = false ∧ sTwo.dark = false ∧ (getPart sTwo 0).cause = none ∧ (getHam sTwo 0).part = some 0 ∧ (getPart sTwo 0).inStep = true ∧
      (getHam sTwo 0).bound = false ∧ hamIdle sTwo 0 = true ∧ (getPart sTwo 0).learner = true ∧ (getHam sTwo 0).testBack = [] ∧
      (∀ q < 17, tileWorks sTwo 0 q = true) ∧ 1 ≠ 0 ∧ (getHam sTwo 1).bound = false) ∧
    (let s := sCmd 0 1 (2 ^ 87 + 2 ^ 81) 0
     fetchCmd s 0 15 = some (wCmd 0 1 (2 ^ 87 + 2 ^ 81), 0) ∧ s.quar = false ∧ s.dark = false ∧ (getPart s 0).cause = none ∧
      (getPart s 0).inStep = true ∧ (getPart s 0).placing = false ∧ mayDispatch s 0 15 (wCmd 0 1 (2 ^ 87 + 2 ^ 81)) = false) ∧
    (∀ st ∈ [PState.created, PState.resetting],
      let s := endStreams (setPart sLearn 0 { getPart sLearn 0 with placing := true, st := st }) 0
      (getPart s 0).placing = true ∧ s.quar = false ∧ s.dark = false ∧ (getPart s 0).cause = none ∧ (getPart s 0).learner = true ∧
      (getPart s 0).hams.all (hamIdle s) = true ∧ (getPart s 0).st = st) := by
  decide +kernel

theorem witness_IdleBoundary :
    let w := rcWord 4 0x3FFF 0 0 0
    let r : Req := { Req.free with st := stQueued }
    let s := sFn (setPart sUp 0 { Part.init with st := .created, hams := [0] }) 0
    let s := { regsAt s [(pOrc + Off.orcParkAfter, 0xFFFFFFFF)] with reqs := [(0x3FFF, r)], hub := [.cmd 0 w 0] }
    let x := getPart s 0
    rcSlot w = 0x3FFF ∧ x.learner = false ∧ x.st = .created ∧ x.inStep = false ∧ x.resident = none ∧ x.switchTo = none ∧ x.batch = [] ∧
    x.charges = [] ∧ x.gen.grnSize = 0 ∧ x.orcQ = [] ∧ x.qpErr = [] ∧ s.live = none ∧ (∀ q < 32, (getPart s q).commitWait = false) ∧
    s.ck = none ∧ (∀ n < 3, slotSt s n ≠ 3) ∧ (∀ n < 256, pcState s n ≠ 1) ∧ s.farRet = [] ∧ (reg s (pOrc + Off.orcParkAfter)).toNat = 0xFFFFFFFF ∧
    s.reqs = [(0x3FFF, r)] ∧ r.part = 0 ∧ r.mute = false ∧ rcOp w = 4 ∧ cmdCause s 0 w = 0 ∧ s.hub = [.cmd 0 w 0] := by
  decide +kernel

theorem witness_ClearingValid :
    ∀ x ∈ ([(crtPg 127, Off.crtFault), (atsPg 127, Off.atsFault), (updPg 127, Off.updFault), (ntmPg 7, Off.ntmErrAddrHi),
        (pFtm0 + 4096 * 7, Off.ftmErrAddrHi), (pSmp, Off.smpLastFault), (pReq, Off.reqLastRej), (pPen, Off.penFault), (pBoot, Off.bootFail),
        (pRas, Off.rasLastMm)] : List (Nat × Nat)),
      let s := setReg sUp (x.1 + x.2) 0x81000000
      s.managed wM x.1 = true ∧ bit (0x80000000 : W32) 31 = true ∧ bit (reg s (x.1 + x.2)) 31 = true := by
  decide +kernel

/-- The 64 bytes of a cart descriptor. -/
def cdBytes (op flags tgt src dst rowBytes rows pitch fill next : Nat) : List Byte :=
  bytesOf 2 (op + flags * 256) ++ bytesOf 2 0 ++ bytesOf 4 tgt ++ bytesOf 8 src ++ bytesOf 8 dst ++ bytesOf 4 rowBytes ++ bytesOf 4 rows ++
  bytesOf 4 pitch ++ bytesOf 4 pitch ++ bytesOf 8 0 ++ bytesOf 8 fill ++ bytesOf 8 next

/-- The cart of hamlet 0 at the descriptor of these bytes, the first of list 0. -/
def sCart (bs : List Byte) : State :=
  putImage (setHam sPart 0 { getHam sPart 0 with cart := some ⟨⟨15, 0, 0⟩, 0, 0, 0x101000, false⟩ }) [(3, 1, bs)]

/-- The run of `sCart`. -/
def cartRun0 : CartRun := ⟨⟨15, 0, 0⟩, 0, 0, 0x101000, false⟩

theorem witness_CartLists :
    let q := putImage (setHam sPart 0 { getHam sPart 0 with cartQ := [⟨15, 0, 0⟩] }) [(3, 1, cdBytes 3 1 0 0 0 0 0 0 0 0)]
    let d (f op t : Nat) : CartDesc := BitVec.ofNat 512 (ofBytes (cdBytes op f t 0 0 0 0 0 0 0))
    let s (f op t : Nat) := sCart (cdBytes op f t 0 0 0 0 0 0 0)
    let tgt := 15 * 2 ^ 20 + 63 * 2 ^ 14
    ((getHam q 0).cart = none ∧ (getHam q 0).cartQ = [⟨15, 0, 0⟩] ∧ (getHam q 0).part = some 0 ∧ (getHam q 0).cartOff = false ∧
      (getHam q 0).spill = 0 ∧ partGoes q 0 = true ∧ cartList q 0 0 = some 0x101000) ∧
    ((s 0 3 0).cartAt 0 3 0 cartRun0 (d 0 3 0) ∧ cdSigEn (d 0 3 0) = false ∧ cdLast (d 0 3 0) = false ∧
      (reg (s 0 3 0) (crtPg 0 + Off.crtDesc)).toNat < 2 ^ 32 - 1) ∧
    ((s 2 3 tgt).cartAt 0 3 0 cartRun0 (d 2 3 tgt) ∧ cdSigEn (d 2 3 tgt) = true ∧ cdLast (d 2 3 tgt) = false ∧
      bit (cdSigTarget (d 2 3 tgt)) 31 = false ∧ lhamTo (s 2 3 tgt) 0 (fld (cdSigTarget (d 2 3 tgt)) 30 24) = some 0 ∧
      getD (getStr (s 2 3 tgt) 0 15).sync 63 0 < 65535) ∧
    ((s 0 4 0).cartAt 0 4 0 cartRun0 (d 0 4 0) ∧ cdSigEn (d 0 4 0) = false ∧ cartList (s 0 4 0) 0 (cdNext (d 0 4 0)) = some 0x101000) := by
  unfold State.cartAt; decide +kernel

theorem witness_CartRefuses :
    let b (op : Nat) := cdBytes op 0 0 0x5000 pcBytes 256 2 512 0 0
    let d (op : Nat) : CartDesc := BitVec.ofNat 512 (ofBytes (b op))
    (∀ op ∈ [1, 2], (sCart (b op)).cartAt 0 op 0 cartRun0 (d op) ∧ cdSizes (d op) = true ∧ cartRun0.job.tile < 16 ∧
      bit (reg (sCart (b op)) (crtPg 0 + Off.crtFault)) 31 = false ∧ cdBad (sCart (b op)) 0 0 (d op) (op = 1) = some pcBytes) := by
  unfold State.cartAt; decide +kernel

/-- A descriptor that moves or fills two rows of 8 bytes, the last one ending its pseudo-channel. -/
def rows2 (op : Nat) : List Byte := cdBytes op 0 0 0x5000 (pcBytes - 520) 8 2 512 0x0102030405060708 0
def rows2D (op : Nat) : CartDesc := BitVec.ofNat 512 (ofBytes (rows2 op))

theorem witness_CartMovesRows_at :
    ∀ op ∈ [1, 2], (sCart (rows2 op)).cartAt 0 op 0 cartRun0 (rows2D op) ∧ cdSizes (rows2D op) = true ∧ cdSigEn (rows2D op) = false ∧
      cdLast (rows2D op) = false ∧ cartOpen (sCart (rows2 op)) 0 = false := by
  unfold State.cartAt; decide +kernel

theorem witness_CartMovesRows_spans :
    ∀ i < 2, nearSpan (sCart (rows2 1)) 0 0 (cdSrc (rows2D 1) + i * cdSrcPitch (rows2D 1)) 8 (0x5000 + i * 512) false ∧
      nearSpan (sCart (rows2 1)) 0 0 (cdDst (rows2D 1) + i * cdDstPitch (rows2D 1)) 8 (pcBytes - 520 + i * 512) true ∧
      nearSpan (sCart (rows2 2)) 0 0 (cdDst (rows2D 2) + i * cdDstPitch (rows2D 2)) 8 (pcBytes - 520 + i * 512) true := by
  unfold nearSpan; decide +kernel

theorem witness_CartMovesRows_apart :
    (∀ i < 2, ∀ j < 2, 0x5000 + i * 512 + 8 ≤ pcBytes - 520 + j * 512 ∨ pcBytes - 520 + j * 512 + 8 ≤ 0x5000 + i * 512) ∧
    (∀ i < 2, ∀ j < 2, i ≠ j → pcBytes - 520 + i * 512 + 8 ≤ pcBytes - 520 + j * 512 ∨ pcBytes - 520 + j * 512 + 8 ≤ pcBytes - 520 + i * 512) ∧
    (∀ i < 2, ∀ b < 8, poisoned (sCart (rows2 1)) (0x5000 + i * 512 + b) 1 = none) := by
  decide +kernel

/-- An attention job of format 6, D 32, one head, on tile 15, one entry (P2), tables at 0x3000 on; `ops` its OPS. -/
def atsBytes (ops : Nat) : List Byte :=
  bytesOf 2 (ops + 6 * 256) ++ bytesOf 2 32 ++ bytesOf 2 (1 + 256) ++ bytesOf 2 0 ++ bytesOf 4 2048 ++ bytesOf 8 0 ++
  bytesOf 4 0x3F800000 ++ bytesOf 2 0x8000 ++ bytesOf 2 2 ++ bytesOf 2 0 ++ bytesOf 2 36 ++ bytesOf 8 0x3000 ++ bytesOf 8 0x4000 ++
  bytesOf 8 0x5000 ++ bytesOf 8 0x5000 ++ bytesOf 8 0x6000 ++ bytesOf 56 0

/-- The sequencer of hamlet 0 with that job at the front of its queue. -/
def sAts (ops : Nat) : State :=
  putImage (setStr (setHam sPart 0 { getHam sPart 0 with atsQ := [⟨15, 0, 0⟩] }) 0 15 { Stream.init with params := [(2, 1)] }) [(5, 1, atsBytes ops)]

def atsRaw (ops : Nat) : BitVec 1024 := BitVec.ofNat 1024 (ofBytes (atsBytes ops))

theorem witness_AttentionJobs :
    ∀ ops ∈ [2, 0],
      let s := sAts ops
      let j := atsJob (atsRaw ops)
      let s1 := setReg (setHam s 0 { getHam s 0 with atsQ := [] }) (atsPg 0 + Off.atsCurJob) 0
      ((getHam s 0).ats = none ∧ (getHam s 0).atsQ = [⟨15, 0, 0⟩] ∧ (getHam s 0).part = some 0 ∧ (getHam s 0).atsOff = false ∧
        partGoes s 0 = true ∧ atsJobAt s 0 0 = some (atsRaw ops) ∧ j.bad = decide (ops = 0)) ∧
      (bitsSet (BitVec.ofNat 16 j.workers) 16).all (fun t => bit (tmap s 0 t) 31 && unitFree s 0 t .grid && unitFree s 0 t .mv) = true ∧
      (getD (getStr s 0 15).params j.nseqPar 0).toNat = 1 ∧ spanLocal s1 0 0 j.lt 32 false = none ∧
      (atsWork s1 0 0 ⟨15, 0, 0⟩ j [ltEntry (BitVec.ofNat 256 (ofBytes (spanRead s1 0 0 j.lt 32)))] none).2 = none ∧
      bit (reg s (atsPg 0 + Off.atsFault)) 31 = false := by
  decide +kernel

theorem witness_AttentionRows :
    let j := atsJob (atsRaw 2)
    let e : LtEntry := ⟨0, 1, 0, 64, 0, 0, 0⟩
    (∀ k ≤ e.lc + 0, attends j e (e.lc + 0) k = false) ∧ (∀ k < 64, attends j e 0 (64 * 0 + k) = false) ∧
    ({ m := 0, l := 0, o := [], bad := true } : AtsRow).bad = true := by
  decide +kernel

/-- A greedy profile. -/
def profGreedy : List Byte := bytesOf 6 0 ++ bytesOf 2 1 ++ bytesOf 24 0

/-- Partition 0 in a step with one entry that draws at its last position, of a request with a draft buffer. -/
def sDraw : State :=
  { setPart sPart 0 { getPart sPart 0 with batch := [⟨0x3FFF, 1, 4, false, [], [], some profGreedy, [], 0, 0xFFFFFFFF, [], 14⟩] } with
    reqs := [(0x3FFF, { Req.free with st := stDecode, lc := 4, lk := 5, lmax := 100, draftAddr := 0xB000 })] }

theorem witness_TokensDrawn_draws :
    let e : LEnt := ⟨0x3FFF, 1, 4, false, [], [], some profGreedy, [], 0, 0xFFFFFFFF, [], 14⟩
    let r := getReq sDraw 0x3FFF
    let logits : List W32 := [0x3F800000, 0x40000000]
    entryOf sDraw r.part 0x3FFF = some e ∧ (getPart sDraw 0).inStep = true ∧ inFlightReq r = true ∧ (drawPositions r e).contains 5 = true ∧
    e.draws.all (fun d => decide (d.pos ≠ 5)) = true ∧ (drawAt e r 5 logits).fault = 0 ∧ (drawPositions r e).contains (2 ^ 48) = false ∧
    2 ^ 48 / 2 ^ 48 = 1 ∧ r.draftAddr ≠ 0 ∧ e.proposed < 15 ∧ (drawAt e r (2 ^ 48) logits).fault = 0 ∧
    (Profile.ofBytes (e.prof.getD [])).greedy = true := by
  decide +kernel

theorem witness_TokensDrawn_kcm :
    let s := { sUp with kcmLeft := [tileNo 127 16] }
    sUp.managed wM pSmp = true ∧ bit (1 : W32) 0 = true ∧ sUp.kcmLeft = [] ∧ s.kcmLeft = [tileNo 127 16] ∧ (getHam s 127).bound = true ∧
    s.kcmLeft.contains (tileNo 127 16) = true ∧ bit (reg s (pSmp + Off.smpKcmStat)) 30 = false ∧ tileSt s 127 16 = 0 := by
  decide +kernel

/-- A generator at a boundary with function 0, an allocation and a request in slot 0x3FFF. -/
def sReq (r : Req) : State :=
  let s := setPart sUp 0 { Part.init with st := .created, hams := [0], pcs := [0], gen := { Part.init.gen with grnSize := 10, reserve := 0, grnBase := 0x20000 } }
  let s := setReg (sFn s 0) (fncPg 0 + Off.fncAllocBaseLo) 0x8000
  let s := memAt (memAt s 0x8000 (bytesOf 8 0 ++ bytesOf 4 0x1000000 ++ bytesOf 4 1)) 0xC010
    (bytesOf 4 1 ++ bytesOf 4 100 ++ bytesOf 8 0xA000 ++ bytesOf 8 0x9000)
  { s with reqs := if r.st = stFree then [] else [(0x3FFF, r)] }

/-- That request in state `st`. -/
def rIn (st : Nat) : Req :=
  if st = 0 then Req.free else { Req.free with st := st, lc := 3, lk := 4, lmax := 100, tokAddr := 0x9000, pageList := 0xA000, draftAddr := 0xB000, envQp := 32768 + 0x3FFF }

theorem witness_RequestCommands :
    ∀ x ∈ [(1, 0, 0, 0xC000, 0), (2, 5, 1, 0xC000, 4), (3, 7, 0, 0, 0), (4, 1, 0, 0, 0), (5, 5, 0, 0, 0), (6, 6, 0, 0, 0), (7, 9, 0, 0, 0),
        (8, 1, 15, 0xC000, 0), (9, 1, 7, 0, 99), (10, 1, 0, 0, 5)],
      let s := sReq (rIn x.2.1)
      let w := rcWord x.1 0x3FFF x.2.2.1 x.2.2.2.1 x.2.2.2.2
      rcOp w = x.1 ∧ mayIssue s 0 = true ∧ cmdCause s 0 w = 0 ∧ cmdFn s 0 w = some 0 ∧ itemPart s (.cmd 0 w s.time) = some 0 ∧
      (getPart s 0).inStep = false ∧ s.hub = [] ∧ (cmdReq s w).granary = false := by
  decide +kernel

theorem witness_RequestCommands_park :
    let s := sReq (rIn 5)
    let t := setRegAt (memAt s 0xA000 (bytesOf 8 (2 ^ 63 + 0x100000))) (pReq + Off.reqKvpFbytes) (poolIx 0 0) 4096
    (granulesOf (rIn 5)).filter (fun g => let d := reqDesc s (rIn 5) g; bit d 63 && !bit d 61 && decide (gOff (descAddr d) < nearEnd)) = [] ∧
    (kvAlloc s (poolIx 1 0) 0).isSome = true ∧
    (granulesOf (rIn 5)).filter (fun g => let d := reqDesc t (rIn 5) g; bit d 63 && !bit d 61 && decide (gOff (descAddr d) < nearEnd)) = [0] ∧
    kvBytes t (poolIx 1 0) < kvBytes t (poolIx 0 0) ∧ (kvAlloc t (poolIx 1 0) 1).isSome = false ∧
    cmdCause t 0 (rcWord 5 0x3FFF 0 0 0) = 0 := by
  decide +kernel

theorem witness_RewardsRejectionsAndWaiting :
    let r := { rIn 1 with flags := 1 }
    let s := sReq r
    let w := rcWord 10 0x3FFF 0 0 5
    let g := (getPart s 0).gen
    let t := setPart s 0 { getPart s 0 with inStep := true }
    (rcOp w = 10 ∧ mayIssue s 0 = true ∧ cmdCause s 0 w = 0 ∧ cmdFn s 0 w = some 0 ∧ itemPart s (.cmd 0 w s.time) = some 0 ∧ s.hub = [] ∧
      wantsGranary s r = true ∧ (getPart s 0).grnWait = [] ∧ grnHead s 0 < g.tail + grnSize g ∧ noRoom s r 1 = false) ∧
    (∀ op ∈ [1, 2, 3, 4, 5, 6, 7, 8, 9, 10], rcOp (rcWord op 0x3FFF 0 0 (2 ^ 64 - 1) + 0x100) = op ∧
      cmdCause s 0 (rcWord op 0x3FFF 0 0 (2 ^ 64 - 1) + 0x100) ≠ 0 ∧
      (∀ p, itemPart s (.cmd 0 (rcWord op 0x3FFF 0 0 (2 ^ 64 - 1) + 0x100) s.time) = some p → p = 0)) ∧
    (itemPart t (.cmd 0 w t.time) = some 0 ∧ (getPart t 0).inStep = true) := by
  refine ⟨by decide +kernel, ?_, by decide +kernel⟩
  intro op h
  refine ⟨?_, ?_, ?_⟩
  · revert op; decide +kernel
  · revert op; decide +kernel
  · have : ∀ op ∈ [1, 2, 3, 4, 5, 6, 7, 8, 9, 10],
        itemPart (sReq { rIn 1 with flags := 1 }) (.cmd 0 (rcWord op 0x3FFF 0 0 (2 ^ 64 - 1) + 0x100) 0) ∈ [none, some 0] := by decide +kernel
    intro p hp
    have h2 := this op h
    rw [show (sReq { rIn 1 with flags := 1 }).time = 0 by decide +kernel] at hp
    rw [hp] at h2
    simpa using h2

theorem witness_MessagesMoveRequests :
    let h (fl n : Nat) : W256 := BitVec.ofNat 256 (0x3FFF + fl * 2 ^ 16 + 4 * 2 ^ 32 + n * 2 ^ 64)
    let s := sReq (rIn 7)
    (s.hub = [] ∧ (getPart s 0).inStep = false ∧ (rIn 7).granary = false ∧ itemPart s (.msg 0x3FFF (h 1 2) [1, 2] s.time) = some 0) ∧
    envOk s 0x3FFF (h 1 2) [1, 2] = true ∧ emFlags (h 1 2) = 1 ∧ envOk s 0x3FFF (h 4 0) [] = true ∧ emFlags (h 4 0) = 4 ∧
    envOk s 0x3FFF (h 8 0) [] = false ∧ itemPart s (.msg 0x3FFF (h 4 0) [] s.time) = some 0 := by
  decide +kernel

theorem witness_TimeMovesRequests :
    let s := { sReq { rIn 6 with expiry := 5 } with time := 999999999 }
    let t := sReq (rIn 5)
    1000000000 / 1000000000 - s.time / 1000000000 ≠ 0 ∧ fnOn s 0 = true ∧ fnOn s 511 = false ∧
    (getReq s 0x3FFF).st = stParked ∧ (getReq s 0x3FFF).expiry ≠ 2 ^ 64 - 1 ∧ (getReq s 0x3FFF).expiry ≤ 5 ∧ resumeWaits s 0x3FFF 5 = false ∧
    (getReq t 0x3FFF).st = stPaused ∧ (reg (setReg t (pOrc + Off.orcParkAfter) 0) (pOrc + Off.orcParkAfter)).toNat ≠ 0xFFFFFFFF ∧
    (∀ g ∈ granulesOf (getReq t 0x3FFF), bit (reqDesc t (getReq t 0x3FFF) g) 63 = false) := by
  decide +kernel

theorem witness_ShippingMovesRequests :
    let e : W1024 := 0
    let s := setPart (sReq Req.free) 0 { getPart (sReq Req.free) 0 with pool := 2 }
    let r : Req := { Req.free with st := stShipped, ship := 2 ^ 31 + 5, retryAt := some 9, deadline := 9 }
    let t := { s with reqs := [(0x3FFF, r)] }
    let u := { s with reqs := [(0x3FFF, { r with accepted := some 1 })] }
    let v := { s with shipIn := [(1, ⟨7, 0x3FFF, Req.free⟩)] }
    (recF e 2 2 < 512 ∧ fnOn s (recF e 2 2) = true ∧ assigned s (recF e 2 2) 0 = true ∧ poolOf s 0 = some 2 ∧ freeSlot s (recF e 2 2) = some 0 ∧
      (kvAlloc s (poolIx 0 0) (ceilDiv (recF e 8 4) 16)).isSome = true ∧ poolOf s 31 ≠ some 2) ∧
    ((getReq t 0x3FFF).st = stShipped ∧ (getReq t 0x3FFF).accepted = none ∧ shipMod (getReq t 0x3FFF) ≠ modId t ∧
      (getReq t 0x3FFF).retryAt = some 9 ∧ (getReq t 0x3FFF).deadline ≤ 9 ∧ (getReq t 0x3FFF).granary = false) ∧
    ((getReq u 0x3FFF).accepted = some 1 ∧ getS u.shipIn 1 = none ∧ u.fab.unacked.any (fun y => decide (y.owner = .ship 0x3FFF)) = false) ∧
    ((getS v.shipIn 1).isSome = true ∧ (getReq v 0x3FFF).st ≠ stShipped) := by
  decide +kernel

theorem witness_BatchFormed : ((sReq (rIn 1)).reqs.map (·.1)).Nodup := by decide +kernel

/-- The UPD section: one program with the micro-op `u`, and one tensor set of `n` elements. -/
def updSect (n u : Nat) : List Byte :=
  bytesOf 4 1 ++ bytesOf 4 1 ++ bytesOf 8 0 ++ bytesOf 8 0x80 ++ bytesOf 8 0 ++ bytesOf 8 0x40 ++ bytesOf 24 0 ++
  bytesOf 8 1 ++ bytesOf 8 u ++ bytesOf 48 0 ++
  bytesOf 4 0 ++ bytesOf 4 n ++ bytesOf 2 0x8000 ++ bytesOf 2 0x0606 ++ bytesOf 4 4 ++
  bytesOf 8 0x30000 ++ bytesOf 8 0x31000 ++ bytesOf 8 0x30000 ++ bytesOf 8 0x32000 ++ bytesOf 8 0x30000 ++ bytesOf 8 0x33000 ++
  bytesOf 8 0x30000 ++ bytesOf 8 0x34000 ++ bytesOf 16 0x35000 ++ bytesOf 16 0x36000 ++ bytesOf 16 0x37000

/-- A micro-op on slots 15, 0, 1 and 2. -/
def uopW (op ix : Nat) : Nat := op * 2 ^ 56 + 15 * 2 ^ 52 + 1 * 2 ^ 44 + 2 * 2 ^ 40 + ix * 2 ^ 34

/-- The run of that program, lane 0 of slot 0 written. -/
def updRun0 : UpdRun :=
  { job := ⟨15, 0, 0⟩, uopsAt := 0x101048, count := 1, setAt := 0x101080, hp := [], chunk := 0, uop := 0,
    slots := [(0, 0)], free := 0, acc := [], gradNf := false, nf := false }

/-- The update streamer of hamlet 0 in that run, and with the program waiting. -/
def sUpd (n op ix : Nat) : State :=
  putImage (setHam sPart 0 { getHam sPart 0 with upd := some updRun0, updCnt := 1, updNorm := 0x40000, updHp := 0x41000, updVote := 0x42000 })
    [(6, 1, updSect n (uopW op ix))]
def sUpdQ (word : Nat) : State :=
  let s := sUpd 1 0x10 0
  setHam s 0 { getHam s 0 with upd := none, updQ := [⟨15, 0, BitVec.ofNat 128 word⟩] }

theorem witness_ProgramsStart :
    let s := sUpdQ 0
    let x := getHam s 0
    x.upd = none ∧ x.updQ = [⟨15, 0, 0⟩] ∧ x.part = some 0 ∧ x.updOff = false ∧ partGoes s 0 = true ∧ updProg 0 ≠ 0xFFFF ∧
    progAt s 0 0 = some 0x101040 ∧ setAt s 0 0 = some 0x101080 ∧ vuBusy s 0 (tsWorkers s 0x101080) = false ∧ 1 ≤ rdNat s.mem 0x101040 8 ∧
    rdNat s.mem 0x101040 8 ≤ 256 ∧ setBad s 0 0x101080 = false ∧ updReadBad s 0 0 0x41000 256 false = none ∧
    updReadBad s 0 0 (gradStatus s 0x101080) 4 false = none := by
  decide +kernel

theorem witness_ProgramsEndAndVote :
    ((sUpd 129 0x3F 0).uopAt 0 0x3F 0 updRun0 (BitVec.ofNat 64 (uopW 0x3F 0)) ∧ 128 * (updRun0.chunk + 1) < tsNelem (sUpd 129 0x3F 0) updRun0.setAt) ∧
    ((sUpd 128 0x3F 0).uopAt 0 0x3F 0 updRun0 (BitVec.ofNat 64 (uopW 0x3F 0)) ∧ tsNelem (sUpd 128 0x3F 0) updRun0.setAt ≤ 128 * (updRun0.chunk + 1) ∧
      nearSpan (sUpd 128 0x3F 0) 0 0 (0x40000 + 32 * (tsNorm (sUpd 128 0x3F 0) updRun0.setAt + 1 * (5 % 2))) 32 0x40020 true) ∧
    ((getHam (sUpdQ 0xFFFF) 0).upd = none ∧ (getHam (sUpdQ 0xFFFF) 0).updOff = false ∧ partGoes (sUpdQ 0xFFFF) 0 = true ∧
      updProg (BitVec.ofNat 128 0xFFFF) = 0xFFFF ∧ mirPending (sUpdQ 0xFFFF) 0 = false ∧
      nearSpan (sUpdQ 0xFFFF) 0 0 (getHam (sUpdQ 0xFFFF) 0).updVote 4 0x42000 true) := by
  unfold State.uopAt nearSpan; decide +kernel

theorem witness_MicroOpsWriteSlots :
    (∀ op ∈ [0x03, 0x10, 0x11, 0x12, 0x13, 0x14, 0x15, 0x20, 0x21],
      (sUpd 1 op 63).uopAt 0 op 0 updRun0 (BitVec.ofNat 64 (uopW op 63))) ∧
    (∀ ix ∈ [0, 4], (sUpd 1 1 ix).uopAt 0 1 0 updRun0 (BitVec.ofNat 64 (uopW 1 ix)) ∧
      updReadBad (sUpd 1 1 ix) 0 0 ((if ix = 4 then tsGrad (sUpd 1 1 ix) 0x101080 else tsC (sUpd 1 1 ix) 0x101080 ix) + 512 * 0)
        (4 * chunkLen (sUpd 1 1 ix) updRun0) false = none) := by
  unfold State.uopAt; decide +kernel

theorem witness_MicroOpsWritePendingViews :
    ((sUpd 1 2 3).uopAt 0 2 0 updRun0 (BitVec.ofNat 64 (uopW 2 3)) ∧
      nearSpan (sUpd 1 2 3) 0 0 (tsP (sUpd 1 2 3) 0x101080 3 + 512 * 0) (4 * chunkLen (sUpd 1 2 3) updRun0) 0x34000 true) ∧
    ((sUpd 1 0x38 2).uopAt 0 0x38 0 updRun0 (BitVec.ofNat 64 (uopW 0x38 2)) ∧ (sUpd 1 0x39 0).uopAt 0 0x39 0 updRun0 (BitVec.ofNat 64 (uopW 0x39 0))) := by
  unfold State.uopAt nearSpan; decide +kernel

theorem witness_MicroOpsWritePendingViews_working :
    let s := sUpd 1 0x30 6
    let vs := (slotGet updRun0 0).take (chunkLen s updRun0)
    let e := cvtwBytes 6 vs (cvtwWords 0 0 5 0 6 0 1)
    s.uopAt 0 0x30 0 updRun0 (BitVec.ofNat 64 (uopW 0x30 6)) ∧ tsWfmt s 0x101080 1 = 6 ∧ e.1.length = 2 ∧ e.2.length = 0 ∧
    nearSpan s 0 0 (tsWork s 0x101080 1 + 16 * fmtBits 6 * 0) 2 0x37000 true ∧
    nearSpan s 0 0 (tsWork s 0x101080 1 + roundUp (ceilDiv (tsNelem s 0x101080 * fmtBits 6) 8) 128 + 4 * 0) 0 0x37080 true ∧
    (0x37000 + 2 ≤ 0x37080 ∨ 0x37080 + 0 ≤ 0x37000) := by
  unfold State.uopAt nearSpan; decide +kernel

theorem witness_SkipsAndExchanges :
    let s := memAt (endStreams (setPart (sUpd 1 0x10 0) 0 { getPart (sUpd 1 0x10 0) 0 with learner := true, subs := [0xFFFFFFFF] }) 0) 0x42004 [1]
    let s := setHam s 0 { getHam s 0 with upd := none }
    let x := getPart s 0
    (getHam s 0).part = some 0 ∧ x.hams = [0] ∧ x.learner = true ∧ x.inStep = true ∧ x.cause = none ∧ s.quar = false ∧ s.dark = false ∧
    (getHam s 0).bound = false ∧ hamIdle s 0 = true ∧ (getHam s 0).testBack = [] ∧ (∀ q < 17, tileWorks s 0 q = true) ∧ x.subs = [0xFFFFFFFF] ∧
    s.live = none ∧ groupWord s 0 0 = some 1 ∧ (getHam s 0).norms = [] ∧ (getHam s 0).vote < 16 := by
  decide +kernel

/-- A shard header: epoch, shard, N, SWITCH_STEP, length. -/
def shardHdr (epoch shard n sw len : Nat) : W1024 :=
  BitVec.ofNat 1024 (epoch + shard * 2 ^ 32 + n * 2 ^ 48 + sw * 2 ^ 64 + len * 2 ^ 256)

/-- Slot 0 with one page, backed by a frame. -/
def sSlot : State := setReg sMap (pEpo + Off.epoSSize) 1

theorem witness_EpochShardsArrive :
    let h := shardHdr 7 0 1 9 128
    let b := shardHdr 7 1 1 9 128
    let t := regsAt sSlot [(slotStat 2, 0x40000000), (slotEpoch 2, 7)]
    (∀ m < 3, epochOf sSlot m = shEpoch h → slotSt sSlot m = 0 ∨ slotSt sSlot m = 4) ∧
    (shBad h 128 = false ∧ shMep h = sSlot.mepoch ∧ epochStale sSlot (shEpoch h) (shSw h) = false ∧ emptySlot sSlot = some 0 ∧
      slotPending sSlot none = false ∧ shOff h + shLen h ≤ slotSize sSlot 0 * frameBytes ∧
      slotPages sSlot 0 (shOff h) 128 = some [(0, 0x300 * frameBytes, 128)] ∧ bit (reg sSlot (pEpo + Off.epoCfg)) 16 = false ∧ shN h = 1) ∧
    (epochOf t 2 = shEpoch h ∧ shEpoch h ≠ noEpoch ∧ slotSt t 2 = 2 ∧ (∀ m < 3, epochOf t m = shEpoch h → slotSt t m ≠ 1)) ∧
    shBad b 128 = true := by
  decide +kernel

theorem witness_EpochRechecks :
    let s := regsAt sSlot [(pEpo + Off.epoCfg, 1), (slotStat 0, 0x40000000), (slotEpoch 0, 7)]
    let x : EpSlot := { EpSlot.init with shards := [⟨0, 0, 4, sha384 [0, 0, 0, 0], 0⟩] }
    let good := setSlot s 0 x
    let bad := setSlot s 0 { x with shards := [⟨0, 0, 4, List.replicate 48 0, 0⟩] }
    (regF s (pEpo + Off.epoCfg) 15 0 ≠ 0 ∧ s.recheckAt ≤ 3600000000000 ∧ slotSt good 0 = 2 ∧ (∀ n < 3, slotSt good n = 2 ∨ slotSt good n = 3 → slotClean good n = true)) ∧
    (slotSt bad 0 = 2 ∧ slotClean bad 0 = false ∧ (∀ m < 3, m ≠ 0 → ¬ (slotSt bad m = 2 ∨ slotSt bad m = 3))) ∧
    (∀ q < 32, (getPart s q).commitWait = false) := by
  decide +kernel

theorem witness_EpochHoldsAndTakeUps :
    ∀ st ∈ [1, 2],
      let s := setRegAt (regsAt sGen [(slotStat 2, w32 (st * 2 ^ 29)), (slotEpoch 2, 8)]) (pEpo + Off.epoPCur) 0 7
      mayRelease s 0 = true ∧ (getPart s 0).learner = false ∧ curEpoch s 0 = 7 ∧ curEpoch s 0 ≠ noEpoch ∧
      (∀ m < 3, slotSt s m = 4 → epochOf s m ≠ 7) ∧ 7 < epochOf s 2 ∧ epochOf s 2 ≠ noEpoch ∧
      (getSlot s 2).swstep ≤ nextStep (getPart s 0) ∧ bit (regAt s (pEpo + Off.epoPCfg) 0) 31 = false ∧
      (∀ m < 3, m ≠ 2 → epochOf s m = noEpoch ∨ epochOf s m ≤ 7) ∧ slotSt s 2 = st ∧ (getPart s 0).epHeld = false := by
  decide +kernel

theorem witness_EpochLoads :
    let o : LoftObj := { typ := 1, st := 0, fetchable := false, len := 4, created := 0, digest := [], data := [(0, 1)] }
    let s := { regsAt sSlot [(pEpo + Off.epoLoadEpoch, 7), (pEpo + Off.epoLoadObj, 5)] with loft := [(5, o)] }
    let t := { setSlot (regsAt s [(slotStat 0, 0x30000000), (slotEpoch 0, 7)]) 0 { EpSlot.init with nshard := 1 } with epLoad := some (5, 0) }
    (s.managed wM pEpo = true ∧ bit (1 : W32) 0 = true ∧ (∀ m < 3, epochOf s m ≠ 7) ∧ 7 ≠ noEpoch ∧ emptySlot s = some 0 ∧
      slotPending s none = false ∧ epochStale s 7 (pair s (pEpo + Off.epoLoadSwLo)) = false ∧ (getObj s 5).isSome = true ∧
      (reg s (pEpo + Off.epoLoadEpoch)).toNat = 7 ∧ (reg s (pEpo + Off.epoLoadObj)).toNat = 5) ∧
    (t.epLoad = some (5, 0) ∧ slotSt t 0 = 1 ∧ getObj t 5 = some o ∧ o.st = 0 ∧ o.len ≠ 0 ∧ o.len ≤ slotSize t 0 * frameBytes ∧
      (objBytes o).length = o.len ∧ (slotPages t 0 0 o.len).isSome = true ∧ (getSlot t 0).nshard = 1 ∧ (getSlot t 0).fetch = [] ∧
      epochUsed t (epochOf t 0) = false) ∧
    (slotSt s 0 = 0 ∧ slotSt t 0 = 1 ∧ slotSt (setReg s (slotStat 2) 0x80000000) 2 = 4) := by
  decide +kernel

/-- A row of stack 0 with `k` corrected lines and `n` spare rows. -/
def row0 (k n : Nat) : RowErr := ⟨0x100, k, [], n, []⟩

theorem witness_ScrubRepairAndRetirement :
    let s := setReg sUp (scrubReg 0 Off.ntmRepair Off.ftmRepair) 0x0401
    (regF s (scrubReg 0 Off.ntmRepair Off.ftmRepair) 7 0 ≠ 0 ∧ regF s (scrubReg 0 Off.ntmRepair Off.ftmRepair) 15 8 = 4 ∧ s.cperOff) ∧
    (∀ r ∈ [row0 3 1, row0 4 1, row0 4 0], (Instr.scrubPass 0 [r]).wf = true ∧ rowIn 0 r = true ∧ r.uncs = []) ∧
    (pcState s 0 = 0 ∧ pcOwner s 0 = none ∧ pcState s 255 = 0 ∧ pcOwner s 255 = none ∧ (∀ k < 256, pcState s k ≠ 1) ∧ mapped s = []) ∧
    (s.managed wM (ntmPg (255 / 32)) = true ∧ bit (0x11F : W32) 8 = true ∧ fld (0x11F : W32) 4 0 = 255 % 32 ∧ s.ledger.ringUp = false) := by
  unfold State.cperOff; decide +kernel

/-- The map engine set up for a command: opcode, page, count, argument. -/
def sMapCmd (x : Nat × Nat × Nat × Nat) : State :=
  setPart (setPart (memAt (regsAt sMap [(pFtm0 + Off.ftmMcmdOp, w32 x.1), (pFtm0 + Off.ftmMcmdPage, w32 x.2.1),
      (pFtm0 + Off.ftmMcmdCount, w32 x.2.2.1), (pFtm0 + Off.ftmMcmdArg, w32 x.2.2.2)]) 0x20000000 [0x80]) 0 { Part.init with st := .running }) 31
    { Part.init with st := .running }

/-- One command of each opcode that passes its checks, and one that does not. -/
def mapRows : List (Nat × Nat × Nat × Nat) :=
  [(1, 2097151, 1, 2 ^ 29), (1, 2097151, 1, 31), (2, 0, 2, 0), (3, 0, 1, 2 ^ 31), (4, 0, 2, 2 ^ 30), (5, 2097151, 1, 0), (6, 851967, 1, 2 ^ 31)]

theorem witness_MapCommandsRun_goes : ∀ x ∈ mapRows ++ [(1, 0, 0, 0), (2, 0, 0, 0), (3, 0, 0, 0), (4, 0, 0, 0), (5, 0, 0, 0), (6, 0, 0, 0)],
    (sMapCmd x).mapGoes wM 1 x.1 x.2.1 x.2.2.1 x.2.2.2 := by
  intro x hx
  unfold State.mapGoes
  refine ⟨?_, ?_, ?_, ?_, ?_, ?_, ?_, ?_, tablesClear_of_noRing _ _ ?_, ?_⟩
  all_goals first | (unfold State.tablesApart; revert x; decide +kernel) | (revert x; decide +kernel)

theorem witness_MapCommandsRun_checks :
    (∀ x ∈ mapRows, mapCheck (sMapCmd x) x.1 x.2.1 x.2.2.1 x.2.2.2 = 0) ∧
    (∀ op ∈ [1, 2, 3, 4, 5, 6], mapCheck (sMapCmd (op, 0, 0, 0)) op 0 0 0 ≠ 0) := by
  decide +kernel

theorem witness_MapCommandsRun_frames :
    (takeFrame (sMapCmd (1, 2097151, 1, 2 ^ 29)) none 0 2097151).isSome = true ∧ takeFrame (sMapCmd (1, 2097151, 1, 31)) (some 31) 0 2097151 = none ∧
    (∀ k < 256, pcState (sMapCmd (2, 0, 2, 0)) k ≠ 1) ∧
    (let s := sMapCmd (3, 0, 1, 2 ^ 31)
     bit (mapEntry s 0) 58 = false ∧ fld (mapEntry s 0) 62 62 ≠ 1 ∧ takeFrame s (entryOwner (mapEntry s 0)) 1 0 = some 0) := by
  decide +kernel

theorem witness_MapCommandsEnd :
    let a := { sMap with mcmd := some (3, 0, 1, 0), migs := [(0, 1, 7)] }
    let b := { sMap with mcmd := some (1, 0, 1, 3) }
    (a.mcmd = some (3, 0, 1, 0) ∧ 3 = 3 ∧ ∃ m ∈ a.migs, 0 ≤ m.1 ∧ m.1 < 0 + 1) ∧
    (b.mcmd = some (1, 0, 1, 3) ∧ ¬ (1 = 3 ∧ ∃ m ∈ b.migs, 0 ≤ m.1 ∧ m.1 < 0 + 1)) ∧
    (a.migs.find? (fun m => decide (m.1 = 0)) = some (0, 1, 7) ∧ (∀ m ∈ a.migWait, m.1 ≠ 0 ∧ m.1 < 2 ^ 21 ∧ bit (mapEntry a m.1) 58 = true) ∧ memWf a.mem = true ∧
      (pageOff (mapEntry a 0) 0 + frameBytes ≤ frameOff 1 7 ∨ frameOff 1 7 + frameBytes ≤ pageOff (mapEntry a 0) 0) ∧
      (frameOff 1 7 + frameBytes ≤ tableOff a (pFtm0 + Off.ftmUmapBaseLo) ∨ tableOff a (pFtm0 + Off.ftmUmapBaseLo) + 8 * 2 ^ 21 ≤ frameOff 1 7) ∧
      (∀ k < 256, pcState a k ≠ 1)) := by
  decide +kernel

/-- A prefetch schedule of one entry for page 1 with counter 255 and threshold `n`. -/
def sPf (n : Nat) : State :=
  setPart (memAt sMap 0x5000 (bytesOf 4 1 ++ bytesOf 2 1 ++ bytesOf 2 1 ++ bytesOf 4 255 ++ bytesOf 4 n)) 0
    { Part.init with st := .running, inStep := true, pfBase := 0x5000, pfCnt := 1, pctr := [(255, 9)], pctr0 := [(255, 4)] }

theorem witness_MapPrefetch :
    (∀ n ∈ [5, 6], let s := sPf n
      let x := getPart s 0
      x.inStep = true ∧ x.pfNext < x.pfCnt ∧ pfOk s (pfAt s 0 x.pfNext) = true ∧
      (rdNat s.mem (pfAt s 0 0 + 12) 4 ≤ getD x.pctr 255 0 - getD x.pctr0 255 0 ↔ n = 5) ∧ rdNat s.mem (pfAt s 0 0 + 8) 2 = 255) ∧
    (let s := sPf 5
     rdNat s.mem (0x5000 + 4) 2 = 1 ∧ rdNat s.mem (0x5000 + 6) 1 = 1 ∧ bit (mapEntry s 1) 63 = true ∧ bit (mapEntry s 1) 62 = true ∧
      bit (mapEntry s 1) 59 = false ∧ bit (mapEntry s 1) 58 = false ∧ entryOwner (mapEntry s 1) = some 0 ∧
      (takeFrame s (some 0) 0 1).isSome = true ∧ takeFrame (setReg s (pcStat 0) 0x10000000) (some 0) 0 1 = none) := by
  decide +kernel

/-- The loft with object 5 in state `st`, set up for the command `op` on object `obj`. -/
def sLoft (st op obj : Nat) : State :=
  { regsAt sUp [(pLft + Off.lftCmdObj, w32 obj), (pLft + Off.lftCmdAddrLo, 0x5000), (pLft + Off.lftCmdLenLo, 128), (pLft + Off.lftCmd, w32 (op * 2 ^ 24))] with
    loft := [(5, { typ := 1, st := st, fetchable := true, len := 4, created := 0, digest := sha384 [1, 0, 0, 0], data := [(0, 1)] })] }

theorem witness_LoftCommands_go : ∀ op ∈ [1, 2, 3, 4, 5],
    let s := sLoft 0 op 5
    let d := setReg s (pLft + Off.lftStat) 0xC0000000
    (s.managed wM pLft = true ∧ bit (1 : W32) 0 = true ∧ bit (reg s (pLft + Off.lftCmdStat)) 31 = false ∧ bit (reg s (pLft + Off.pageCtl)) 1 = false ∧
      regF s (pLft + Off.lftCmd) 31 24 = op ∧ loftState s ≠ 3) ∧
    (d.managed wM pLft = true ∧ regF d (pLft + Off.lftCmd) 31 24 = op ∧ loftState d = 3) := by
  decide +kernel

theorem witness_LoftCommands_run :
    ((getObj (sLoft 0 1 5) 5).map (·.st) = some 0 ∧ loftSpan (sLoft 0 1 5) (pair (sLoft 0 1 5) (pLft + Off.lftCmdAddrLo)) 4 = some 0x5000 ∧
      (sLoft 0 1 5).cperOff) ∧
    ((getObj (sLoft 2 1 5) 5).map (·.st) ≠ some 0 ∧ (getObj (sLoft 0 1 6) 6).map (·.st) ≠ some 0) ∧
    (∀ x ∈ [sLoft 0 2 6, sLoft 2 2 5], let n := pair x (pLft + Off.lftCmdLenLo)
      (getObj x (reg x (pLft + Off.lftCmdObj)).toNat = none ∨ (getObj x (reg x (pLft + Off.lftCmdObj)).toNat).map (·.st) = some 2) ∧
      loftUsed x + n ≤ loftCap (loftLive x) ∧ loftSpan x (pair x (pLft + Off.lftCmdAddrLo)) n = some 0x5000) ∧
    (loftSpan (sLoft 0 4 0) (pair (sLoft 0 4 0) (pLft + Off.lftCmdAddrLo))
        (((sLoft 0 4 0).loft.flatMap (fun e => dirEntry e.1 e.2)).take (pair (sLoft 0 4 0) (pLft + Off.lftCmdLenLo))).length = some 0x5000) ∧
    ((getObj (sLoft 0 5 5) 5).map (fun o => (o.fetchable, o.len, o.digest)) = some (true, 4, sha384 [1, 0, 0, 0])) := by
  unfold State.cperOff; decide +kernel

theorem witness_LoftCommands_write : ∀ i < 128, ¬ inNextRecords (sLoft 0 2 6) 1 (0x5000 + i) :=
  fun _ _ => noRecord_of_noRing _ _ _ (by decide +kernel)

theorem witness_LoftEnds :
    let o : LoftObj := { typ := 1, st := 1, fetchable := false, len := 4, created := 0, digest := [], data := [] }
    let s := { sUp with loft := [(5, o)], lcmd := some ⟨2, 5, 0, []⟩ }
    let t := { sUp with loft := [(5, { o with st := 3 })], lcmd := some ⟨5, 5, 0, [1, 2, 3, 4]⟩ }
    let u := regsAt s [(pLft + Off.lftCfg, 0x100)]
    let v := setReg s (pLft + Off.lftStat) 0x20F
    let w := setReg s (pLft + Off.lftStat) 0x20E
    (s.lcmd = some ⟨2, 5, 0, []⟩ ∧ getObj s 5 = some o ∧ o.st = 1) ∧ (t.lcmd = some ⟨5, 5, 0, [1, 2, 3, 4]⟩ ∧ (getObj t 5).map (·.st) = some 3) ∧
    ({ s with lcmd := some ⟨1, 5, 7, []⟩ } : State).lcmd = some ⟨1, 5, 7, []⟩ ∧
    (regF u (pLft + Off.lftCfg) 15 8 ≠ 0 ∧ loftState u ≠ 3 ∧ getObj u 5 = some o ∧ o.st ≠ 2) ∧
    (bit (reg v (pLft + Off.lftStat)) 9 = true ∧ 5 ≤ loftLive v ∧ loftUsed v ≤ loftCap (loftLive v - 1)) ∧
    (bit (reg w (pLft + Off.lftStat)) 9 = true ∧ loftLive w = 4 ∧ keysUp w.loft = true) ∧
    loftState (setReg s (pLft + Off.lftStat) 0x80000000) = 2 := by
  decide +kernel

theorem witness_SpillsAndRestores :
    let x : Part := { getPart sPart 0 with inStep := false, switchTo := some 1, spillSlots := 2, images := [(0, ⟨0x100000, 4096⟩), (1, ⟨0x200000, 4096⟩)] }
    let y : Spill := { img := 1, step := 3, lhams := [(0, 0)], streams := [], spads := [], stores := [], pctr := [], firings := [], fired := [], chainOff := [], arrived := [] }
    let a := setHam (setPart sPart 0 { x with spills := [(0, y)] }) 0 { getHam sPart 0 with spill := 1 }
    let b := setHam a 0 { getHam sPart 0 with spill := 2 }
    (getPart a 0).hams.Nodup ∧ (∀ h ∈ (getPart a 0).hams, h < 128) ∧ (getPart a 0).switchTo = some 1 ∧ freeSpill (getPart a 0) = some 1 ∧
    (getPart a 0).resident = some 0 ∧ allSpill a 0 1 = true ∧ 1 ≠ 0 ∧ (spillSlotOf (getPart a 0) 1).isSome = true ∧
    spillSlotOf (getPart b 0) 1 = some (0, y) ∧ getS (getPart b 0).images 1 = some ⟨0x200000, 4096⟩ ∧ allSpill b 0 2 = true ∧
    (y.lhams.map (·.1)).Nodup ∧ (∀ hl ∈ y.lhams, hl.1 < 128) ∧ b.reqs = [] := by
  decide +kernel

/-- A flit: SEQ, VC, TYPE and payload, with its CRC. -/
def flitOf (seq vc typ : Nat) (payload : List Byte) : List Byte :=
  let h := bytesOf 4 (seq * 2 ^ 22 + vc * 2 ^ 9 + typ * 2 ^ 6)
  let p := payload ++ List.replicate (248 - payload.length) 0
  h ++ bytesOf 4 (crc32 (h ++ p)) ++ p

theorem witness_PortsTrainAndResend :
    let s := setReg sUp (ylkPg 15 + Off.ylkStat) 0x400F8000
    let t := setReg sUp (ylkPg 15 + Off.ylkStat) 0x200F8000
    let f : Flit := { seq := 1023, ack := 0, vc := 0, typ := 4, cvc := 0, ccnt := 0, payload := List.replicate 248 1 }
    let u := setLink s 15 { Link.init with buf := [f], tries := 8, nak := true }
    (portState s 15 = 2 ∧ bit (reg s (ylkPg 15 + Off.ylkStat)) (15 + 4) = true ∧ ¬ (portState t 15 = 2 ∨ portState t 15 = 3)) ∧
    (s.managed wM (ylkPg 15) = true ∧ bit (1 : W32) 0 = true) ∧ (portState t 15 < 2 ∧ (getLink t 15).wait = []) ∧
    ((List.replicate 256 (1 : Byte)).length = 256 ∧ flitGood (List.replicate 256 1) = false ∧ (getLink u 15).nak = true ∧ (getLink s 15).nak = false) ∧
    ((flitOf 0 7 1 [1]).length = 256 ∧ flitGood (flitOf 0 7 1 [1]) = true ∧ (flitHead (flitOf 0 7 1 [1])).typ = 1 ∧
      (flitHead (flitOf 0 7 1 [1])).seq = (getLink s 15).exp ∧ (getLink s 15).wait = []) ∧
    ((getLink u 15).buf ≠ [] ∧ (getLink u 15).buf.head?.map (·.seq) = some 1023 ∧ retryMax u 15 ≤ (getLink u 15).tries) := by
  decide +kernel

/-- A packet from module 7 to module 0. -/
def pkt7 (flags len tag addr : Nat) (data : List Byte) : Packet := ⟨0, 7, 0, 3, flags, len, 0, 0, tag, addr, data, 2, 15⟩

theorem witness_PacketsDropped :
    let s : State := { sUp with mepoch := 1 }
    let t : State := { sUp with mepoch := 65535 }
    let u : State := { sUp with fab := { sUp.fab with rx := [(7 * 8 + 2, ⟨1, []⟩)] } }
    let k := pkt7 0 4 0 0x5000 [1, 2, 3, 4]
    let o : Packet := { k with flags := 1, seq := 2 }
    (sUp.quar = false ∧ k.wf = true ∧ k.data.length = k.len ∧ o.wf = true) ∧
    (k.mepoch ≠ s.mepoch ∧ serialAfter k.mepoch s.mepoch = false ∧ k.mepoch ≠ t.mepoch ∧ serialAfter k.mepoch t.mepoch = true) ∧
    (k.mepoch = u.mepoch ∧ rxSeen (rxWin u (k.src * 8 + k.vc)) k.seq = true ∧ choosePlane u k.src false = some 16) ∧
    (rxSeen (rxWin u (o.src * 8 + o.vc)) o.seq = false ∧ o.flags % 2 = 1 ∧ o.seq ≠ (rxWin u (o.src * 8 + o.vc)).low ∧ u.fab.held = []) ∧
    (k.mepoch = sUp.mepoch ∧ rxSeen (rxWin sUp (k.src * 8 + k.vc)) k.seq = false ∧ k.flags % 2 = 0 ∧ peerOk sUp k.part k.src = false ∧ sUp.fab.held = [] ∧
      choosePlane sUp k.src false = some 16) := by
  decide +kernel

/-- Partition 0 with every module in its peer set, a region table at 0x4000 whose region 0x3FC is the 64 KiB from 0x10000 on, and the plane
tables out of the way. -/
def sPeer : State :=
  memAt (setPart (regsAt sPart [(pMbr + Off.mbrId, 0), (pYlk0 + Off.ylkRtBaseLo, 0x200000)]) 0 { getPart sPart 0 with peerCnt := 0x80000000, regBase := 0x4000, regCnt := 0x3FD, pctr := [(255, 2 ^ 48 - 2)] })
    (0x4000 + 16 * 0x3FC) (bytesOf 8 0x10000 ++ bytesOf 8 (2 ^ 63 + 2 ^ 62 + 2 ^ 61 + 0x10000))

theorem witness_PacketsTakeEffect_store :
    let s := sPeer
    let rt := pair s (pYlk0 + Off.ylkRtBaseLo) % 2 ^ 50
    let k := pkt7 0 4 255 0x5000 [1, 2, 3, 4]
    let q := pkt7 0 4 255 (0x3FC * 2 ^ 48 + 0xFFFC) [1, 2, 3, 4]
    (s.quar = false ∧ k.wf = true ∧ q.wf = true ∧ k.mepoch = s.mepoch ∧ rxSeen (rxWin s (k.src * 8 + k.vc)) k.seq = false ∧ k.flags % 2 = 0 ∧
      s.fab.held = [] ∧ choosePlane s k.src false = some 16 ∧ (0x20000 ≤ rt)) ∧
    (peerOk s k.part k.src = true ∧ nearSpan s k.part 128 k.addr k.len 0x5000 true ∧ nearSpan s k.part 128 k.addr k.len 0x5000 false ∧
      spanPoison s k.part 128 k.addr k.len = none) ∧
    (q.addr / 2 ^ 48 < 0x3FD ∧ region s q.part (q.addr / 2 ^ 48) = some (0x10000, 2 ^ 63 + 2 ^ 62 + 2 ^ 61 + 0x10000) ∧
      q.addr % 2 ^ 48 + q.len ≤ (2 ^ 63 + 2 ^ 62 + 2 ^ 61 + 0x10000) % 2 ^ 48 ∧ nearSpan s q.part 128 0x1FFFC 4 0x1FFFC true ∧
      nearSpan s q.part 128 0x1FFFC 4 0x1FFFC false ∧ spanPoison s q.part 128 0x1FFFC 4 = none ∧
      getD (getPart s q.part).pctr 255 0 < 2 ^ 48 - 1) := by
  unfold nearSpan; decide +kernel

theorem witness_PacketsTakeEffect_ship :
    let k : Packet := { pkt7 0 4 0xFFFF 0x5000 [1, 2, 3, 4] with vc := 5 }
    let s : State := { sPeer with shipIn := [(1, ⟨7, 0x3FFF, { Req.free with tokAddr := 0x5000, lk := 1 }⟩)] }
    s.quar = false ∧ k.wf = true ∧ k.mepoch = s.mepoch ∧ rxSeen (rxWin s (k.src * 8 + k.vc)) k.seq = false ∧ k.flags % 2 = 0 ∧
    s.fab.held = [] ∧ choosePlane s k.src false = some 16 ∧ k.data.length = k.len ∧ gOff k.addr = 0x5000 ∧
    shipAdmits s k.src k.addr k.len = true ∧ shipAdmits s k.src 0x5001 k.len = false := by
  decide +kernel

theorem witness_PacketsTakeEffect_wants :
    let k := pkt7 0 4 255 0x5000 [1, 2, 3, 4]
    let a : Want := ⟨255, 7, 0, 0, 0x6000, 4, 0x5000, .none⟩
    let b : Want := { a with h := 128 }
    let s : State := { sPeer with fab := { sPeer.fab with wants := [a] } }
    let t : State := { sPeer with fab := { sPeer.fab with wants := [b] } }
    (s.fab.wants = [a] ∧ a.tag = k.tag ∧ a.dst = k.src ∧ a.h < 128 ∧ (getHam s a.h).cart = none ∧ nearSpan s a.part a.h a.addr k.len 0x6000 true) ∧
    (t.fab.wants = [b] ∧ b.raddr = k.addr ∧ b.dst = k.src ∧ b.h = 128 ∧ nearSpan t b.part b.h b.addr k.len 0x6000 true) := by
  unfold nearSpan; decide +kernel

/-- The 64 bytes of a chain descriptor. -/
def pdBytes (op flags waitCtr waitN group rop arity src dst len slots seg peer rctr : Nat) : List Byte :=
  bytesOf 1 op ++ bytesOf 1 flags ++ bytesOf 2 waitCtr ++ bytesOf 4 waitN ++ bytesOf 4 0 ++ bytesOf 1 group ++ bytesOf 1 rop ++ bytesOf 2 arity ++
  bytesOf 8 src ++ bytesOf 8 dst ++ bytesOf 8 len ++ bytesOf 8 slots ++ bytesOf 4 seg ++ bytesOf 2 peer ++ bytesOf 2 rctr ++ bytesOf 8 0

/-- The chain with START_CTR 0 and START_N 1 and descriptors of these bytes, as chain 0 of the image of partition 0, and the group table at
0x40000, whose group 63 has the members `ms` and this module at `rank`; the members' list is at 0x42000. -/
def sChain (ms : List Nat) (rank : Nat) (ds : List (List Byte)) : State :=
  let s := regsAt sPeer [(pPen + Off.penGrpBaseLo, 0x40000), (pPen + Off.penGrpBaseLo + 4, 0)]
  let s := memAt s (0x40000 + 32 * 63) (bytesOf 4 ms.length ++ bytesOf 4 rank ++ bytesOf 2 0 ++ bytesOf 1 0 ++ bytesOf 5 0 ++ bytesOf 8 0x42000)
  let s := memAt s 0x42000 (ms.flatMap (bytesOf 2))
  putImage s [(4, 1, bytesOf 2 0 ++ bytesOf 2 ds.length ++ bytesOf 4 1 ++ bytesOf 8 0 ++ ds.flatten)]

theorem witness_ChainsFire_start :
    let s := sChain [7, 0] 1 [pdBytes 4 0 0xFFFF 0 0 0 0 0 0 0 0 0 0 0]
    let u := setPart s 0 { getPart s 0 with pctr := [(0, 1)] }
    let c : Chain := ⟨0, 1, 1, 0, 0x101000⟩
    (modId s = 0 ∧ penGoes s 0 = true ∧ chainHdr s 0 0 = some c ∧ hdrBad c = false ∧ publishes s c = false ∧ (getPart s 0).chainOff.contains 0 = false ∧
      (getPart s 0).firings = [] ∧ (chainGroups s c).any (grpStale s) = false ∧ getD (getPart s 0).pctr c.ctr 0 < 1 * c.n) ∧
    (penGoes u 0 = true ∧ chainHdr u 0 0 = some c ∧ publishes u c = false ∧ (chainGroups u c).any (grpStale u) = false ∧
      1 * c.n ≤ getD (getPart u 0).pctr c.ctr 0) := by
  decide +kernel

/-- The chain's descriptor of these bytes is to start in the firing 1 of chain 0. -/
def sDesc (bs : List Byte) : State :=
  let s := sChain [7, 0] 1 [bs, pdBytes 4 0 0xFFFF 0 0 0 0 0 0 0 0 0 0 0]
  setPart s 0 { getPart s 0 with firings := [⟨0, 1, 0, [], [], [], [], [], 0, 0⟩] }

/-- Its firing, its chain and the descriptor. -/
def fir0 : Firing := ⟨0, 1, 0, [], [], [], [], [], 0, 0⟩
def chn0 : Chain := ⟨0, 2, 1, 0, 0x101000⟩
def pd0 (bs : List Byte) : PenDesc := BitVec.ofNat 512 (ofBytes bs)

theorem witness_ChainsFire_put :
    let b (op flags src dst : Nat) := pdBytes op flags 0xFFFF 0 63 0 0 src dst 128 0 0 0 255
    (∀ fl ∈ [0, 16], (sDesc (b 1 fl 0x5000 0)).descAt 0 0 0 1 chn0 fir0 (pd0 (b 1 fl 0x5000 0)) ∧
      choosePlane (sDesc (b 1 fl 0x5000 0)) 7 (decide (fl = 16)) = some 16) ∧
    (let s := sDesc (b 1 0 0x5000 0)
     s.quar = false ∧ pdLen (pd0 (b 1 0 0x5000 0)) ≤ 4096 ∧ grpMember s (pdGroup (pd0 (b 1 0 0x5000 0))) (pdPeer (pd0 (b 1 0 0x5000 0))) = 7 ∧
      spanPoison s 0 128 0x5000 128 = none) ∧
    (sDesc (b 2 0 0 0x5000)).descAt 0 0 0 2 chn0 fir0 (pd0 (b 2 0 0 0x5000)) := by
  unfold State.descAt; decide +kernel

theorem witness_ChainsFire_spans :
    let b (op src dst : Nat) := pdBytes op 0 0xFFFF 0 63 0 0 src dst 128 0 0 0 255
    nearSpan (sDesc (b 1 0x5000 0)) 0 128 0x5000 128 0x5000 false ∧ nearSpan (sDesc (b 2 0 0x5000)) 0 128 0x5000 128 0x5000 true := by
  unfold nearSpan; decide +kernel

theorem witness_ChainsFire_other :
    let ar := pdBytes 3 0 0xFFFF 0 63 0 2 0x5000 0x6000 128 0x7000 4096 0 0
    let sg := pdBytes 4 0 0xFFFF 0 63 0 0 0 0 0 0 0 0 0
    let pb := pdBytes 5 0 0xFFFF 0 63 0 0 0x5000 0 128 0 0 62 0
    let s := sDesc ar
    let t := memAt (sDesc pb) (0x40000 + 32 * 62) (bytesOf 4 1 ++ bytesOf 12 0 ++ bytesOf 8 0x42000)
    (s.descAt 0 0 0 3 chn0 fir0 (pd0 ar) ∧ penBad s 0 0x5000 128 false = none ∧ penBad s 0 0x6000 128 true = none ∧
      penBad s 0 (0x6000 + lenR (pd0 ar)) 4 true = none ∧ penBad s 0 0x7000 (2 * 2 * lenR (pd0 ar)) true = none) ∧
    ((sDesc sg).descAt 0 0 0 4 chn0 fir0 (pd0 sg) ∧ pdFlag (pd0 sg) 3 = false ∧ fir0.done.length + 1 < chn0.ndesc ∧ 0 ∉ fir0.done ∧
      ((getPart (sDesc sg) 0).firings.filter (fun g => decide (g.chain = fir0.chain ∧ g.k = fir0.k))).length = 1) ∧
    (t.descAt 0 0 0 5 chn0 fir0 (pd0 pb) ∧ t.quar = false ∧ pdLen (pd0 pb) ≤ 3968 ∧ nearSpan t 0 128 0x5000 128 0x5000 false ∧
      spanPoison t 0 128 0x5000 128 = none ∧ grpMembers t (pdPeer (pd0 pb)) = [7] ∧ choosePlane t 7 false = some 16) := by
  unfold State.descAt nearSpan; decide +kernel

theorem witness_ChainsFire_waits :
    let b := pdBytes 1 0 0xFFFF 0 63 0 0 0x5000 0 4096 0 0 0 255
    let f : Firing := { fir0 with started := 2 }
    let s := setPart (sDesc b) 0 { getPart (sDesc b) 0 with firings := [f] }
    let u : State := { s with fab := { s.fab with unacked := [⟨pkt7 0 0 0 0 [], 0, 1, 16, .pen 0 0 1 0⟩] } }
    (s.quar = false ∧ chainHdr s 0 0 = some chn0 ∧ chainDesc s chn0 0 = pd0 b ∧ pdOp (pd0 b) = 1 ∧ pdBad (pd0 b) = false ∧
      (getPart s 0).firings = [f] ∧ f.chain = 0 ∧ 0 < f.started ∧ 0 ∉ f.done ∧ pdFlag (pd0 b) 3 = false ∧ descQuiet s (.pen 0 0 f.k 0) = true) ∧
    (chainHdr u 0 0 = some chn0 ∧ chainDesc u chn0 0 = pd0 b ∧ (getPart u 0).firings = [f] ∧ u.quar = false ∧ descQuiet u (.pen 0 0 f.k 0) = false) := by
  decide +kernel

/-- An ALLREDUCE of 128 bytes of group 63, arity 2. -/
def arB : List Byte := pdBytes 3 0 0xFFFF 0 63 0 2 0x5000 0x6000 128 0x7000 4096 0 0

/-- This module at rank `r` of [0, 7], or [7, 0], with the ALLREDUCE started and the child's contribution in its slot. -/
def sRed (ms : List Nat) (r : Nat) : State :=
  let s := sChain ms r [arB]
  let s := memAt (memAt s 0x5000 [0, 0, 0x80, 0x3F]) 0x7080 [0, 0, 0, 0x40]
  setPart s 0 { getPart s 0 with firings := [{ fir0 with started := 1 }], arrived := [(arrKey 0 0 1 0 0, (128, false))] }

theorem witness_ReducePut :
    let s := sRed [0, 7] 0
    let addr := 2 ^ 41 + 64
    let k : Packet := { pkt7 2 64 0 addr (List.replicate 64 1) with vc := 3 }
    let c : Chain := ⟨0, 1, 1, 0, 0x101000⟩
    (k.wf = true ∧ s.quar = false ∧ k.mepoch = s.mepoch ∧ s.fab.held = [] ∧ k.data.length = k.len ∧ peerOk s 0 7 = true ∧ chainHdr s 0 0 = some c ∧
      0 < c.ndesc ∧ chainDesc s c 0 = pd0 arB ∧ pdOp (pd0 arB) = 3 ∧ pdBad (pd0 arB) = false ∧ k.addr / 2 ^ 40 % 2 = 0 ∧ k.addr / 2 ^ 41 % 2 = 1 ∧
      k.addr % 2 ^ 40 + k.len ≤ pdLen (pd0 arB) ∧ choosePlane s 7 false = some 16) ∧
    nearSpan s 0 128 (slotAt (pd0 arB) 1 0 + 64) 64 (0x7100 + 64) true := by
  unfold nearSpan; decide +kernel

theorem witness_SegmentsCombine :
    let f : Firing := { fir0 with started := 1 }
    let d := pd0 arB
    let s := sRed [0, 7] 0
    let t := sRed [7, 0] 1
    (penRuns s 0 = true ∧ combinable s 0 0 0 0 = some (f, d) ∧ segLen d 0 = 128 ∧ childrenOf s d 0 = [(0, 1)] ∧ relRank s d 0 = 0) ∧
    (nearSpan s 0 128 (pdSrc d) 128 0x5000 false ∧ nearSpan s 0 128 (slotAt d 1 0) 128 0x7100 false ∧ nearSpan s 0 128 (pdDst d) 128 0x6000 true ∧
      spanPoison s 0 128 (pdSrc d) 128 = none ∧ spanPoison s 0 128 (slotAt d 1 0) 128 = none) ∧
    (penRuns t 0 = true ∧ combinable t 0 0 0 0 = some (f, d) ∧ childrenOf t d 0 = [] ∧ relRank t d 0 = 1 ∧ t.quar = false ∧
      choosePlane t (grpMember t (pdGroup d) (absRank t d 0 ((1 - 1) / pdArity d))) false = some 16 ∧
      nearSpan t 0 128 (pdSrc d) 128 0x5000 false ∧ spanPoison t 0 128 (pdSrc d) 128 = none) := by
  unfold nearSpan; decide +kernel

theorem witness_GroupsReform :
    let s := sRed [0, 7] 0
    let t := memAt s (0x40000 + 32 * 63 + 10) [1]
    let u : State := { memAt s (0x40000 + 32 * 63 + 10) [1, 1] with deaths := [(1, 7, 0xFFFE)], mepoch := 1 }
    let a := grpAt s 63
    grpStale s 63 = false ∧
    (grpStale t 63 = true ∧ grpShrinks t 63 = false ∧ t.deaths = [] ∧ t.mepoch < 65536 ∧ (grpMembers t 63).length = grpN t 63 ∧
      (∀ r < grpN t 63, grpList t 63 + 2 * r + 2 ≤ a ∨ a + 32 ≤ grpList t 63 + 2 * r) ∧
      (grpMembers t 63).findIdx? (fun m => decide (m = modId t)) = some (grpRank t 63)) ∧
    (grpStale u 63 = true ∧ grpShrinks u 63 = true ∧ serialAfter 1 (grpEpoch u 63) = true ∧ 7 ∈ grpMembers u 63 ∧ (grpMembers u 63).Nodup ∧
      u.mepoch < 65536 ∧ ∀ r < grpN u 63, grpList u 63 + 2 * r + 2 ≤ a ∨ a + 32 ≤ grpList u 63 + 2 * r) := by
  decide +kernel

theorem witness_AcksResendsAndNotices :
    let k := pkt7 0 0 1 2 []
    let x : Sent := ⟨{ pkt7 0 4 0 0x5000 [1, 2, 3, 4] with dst := 7, src := 0 }, 0, 1, 15, .none⟩
    let s : State := { regsAt sUp [(pYlk0 + Off.ylkE2e, 0x2000FFFF)] with fab := { sUp.fab with unacked := [x] } }
    let y : Sent := { x with sends := 2 }
    let t : State := { s with fab := { s.fab with unacked := [y] } }
    let up := setReg sUp (d2dPg 3 + Off.d2dStat) 0x40004004
    let n (b : Nat) : State := { up with d2dBad := [(7, b)] }
    (s.quar = false ∧ k.wf = true ∧ k.mepoch = s.mepoch ∧ k.tag < 2 ^ 31 ∧ s.mirrors = [] ∧ (∀ z ∈ s.fab.unacked, z.owner = .none)) ∧
    (∀ z ∈ s.fab.unacked, ¬ (z.pkt.dst = 7 ∧ z.pkt.vc = 7 ∧ z.pkt.seq = 0)) ∧
    (s.fab.unacked = [x] ∧ x.pkt.dst = 7 ∧ x.pkt.vc = 2 ∧ x.pkt.seq = 0 ∧ x.sentAt + 1000 * max 1 (fld (reg s (pYlk0 + Off.ylkE2e)) 15 0) ≤ 65535000 ∧
      x.sends < max 1 (fld (reg s (pYlk0 + Off.ylkE2e)) 31 28) ∧ otherPlane s 7 x.plane false = some 16) ∧
    (t.fab.unacked = [y] ∧ max 1 (fld (reg t (pYlk0 + Off.ylkE2e)) 31 28) ≤ y.sends ∧ y.owner = .none) ∧
    (∀ b ∈ [0, 3, 4, 35, 36], regF (n b) (d2dPg 3 + Off.d2dStat) 31 29 = 2 ∧ getD (n b).d2dBad 7 0 = b) ∧
    hamletPage 0x1F (netPg 127) = true := by
  decide +kernel

/-- Function 511 of 512 with an enabled doorbell, command ring and host ring of 2 entries; the next STATUS record's place is the last. -/
def sRing (prod cons : W32) (wait : List (List Byte)) : State :=
  let c := fncPg 511
  { regsAt (sFn sUp 511) [(pPci + Off.pciLink, 512), (c + Off.fncRings, 0x101), (c + Off.fncHringBaseLo, 0x1000), (c + Off.fncCmdqCons, 0xFFFFFFFF),
      (c + Off.fncHringProd, prod), (c + Off.fncHringCons, cons)] with hrWait := if wait = [] then [] else [(511, wait)] }

theorem witness_Doorbells :
    let r : List Byte := List.replicate 32 1
    let s := sRing 1 0xFFFFFFFF []
    let f := sRing 1 0xFFFFFFFF [r]
    let z : State := setReg s (fncPg 511 + Off.fncRings) 0
    (dbOn s 511 = true ∧ dbTarget 511 false 0 = some 0 ∧ regF s (fncPg 511 + Off.fncRings) 4 0 = 1 ∧ ((1 : W32) - cqCons s 511).toNat ≤ 2 ^ 1 ∧
      (0xFFFFFFFF : W32) = cqCons s 511) ∧
    (dbTarget 511 true 0x800 = some 1 ∧ dbTarget 511 false 0x1000 = some 1 ∧ hrLog s 511 = 1 ∧
      ((1 : W32) - reg s (fncPg 511 + Off.fncHringCons)).toNat ≤ hrUsed s 511 ∧ getD s.hrWait 511 [] = []) ∧
    (dbOn f 511 = true ∧ hrLog f 511 = 1 ∧ ((0 : W32) - reg f (fncPg 511 + Off.fncHringCons)).toNat ≤ hrUsed f 511 ∧ getD f.hrWait 511 [] = [r] ∧
      r.length = 32 ∧ (hrProd f 511 - 0).toNat < 2 ^ 1) ∧
    (dbTarget 511 false 4 = none ∧ dbOn State.reset 511 = false ∧ regF z (fncPg 511 + Off.fncRings) 4 0 = 0 ∧ hrLog z 511 = 0 ∧
      2 ^ regF s (fncPg 511 + Off.fncRings) 4 0 < ((2 : W32) - cqCons s 511).toNat ∧
      hrUsed s 511 < ((2 : W32) - reg s (fncPg 511 + Off.fncHringCons)).toNat) := by
  decide +kernel

theorem witness_FetchesAndRings :
    let s := sRing 1 0xFFFFFFFF []
    let s := setPart { s with cqOrder := [511], cqProd := [(511, 0)], reqs := [(0x3FFF, { Req.free with st := stQueued, func := 511 })] } 0
      { Part.init with st := .running }
    let e := rcWord 4 0x3FFF 0 0 0
    (s.cqOrder.head? = some 511 ∧ dbOn s 511 = true ∧ cqCons s 511 ≠ cqProdOf s 511 ∧ itemPart s (.cmd 511 e s.time) = some 0) ∧
    (({ s with cqOrder := [] } : State).cqOrder.head? ≠ some 511 ∧ dbOn State.reset 511 = false) ∧
    (s.managed wM (fncPg 511) = true ∧ getD s.hrWait 511 [] = [] ∧ fld (0x1004 : W32) 4 0 ≠ regF s (fncPg 511 + Off.fncRings) 4 0 ∧
      fld (0x1004 : W32) 12 8 ≠ hrLog s 511) := by
  decide +kernel

theorem witness_Functions :
    let c := fncPg 511
    let s := regsAt sUp [(pPci + Off.pciLink, 512), (c + Off.fncSlots, 0x3FFF0001)]
    let t := sFn s 0
    let on := setReg s (c + Off.fncCfg) 0x80000000
    let full : State := { on with reqs := [(0x3FFF, { Req.free with st := stQueued, func := 511 })] }
    let fl := setReg s (c + Off.fncStat) 0x80000000
    (s.managed wM c = true ∧ bit (0x80000000 : W32) 31 = true ∧ bit (reg s (c + Off.fncCfg)) 31 = false ∧ 511 < numVfs s ∧
      slotsOverlap s 511 (reg s (c + Off.fncSlots)) = false ∧ s.ledger.ringUp = false) ∧
    numVfs (setReg s (pPci + Off.pciLink) 511) ≤ 511 ∧
    slotsOverlap (setReg t (c + Off.fncSlots) 0x3FFF0001) 511 (reg (setReg t (c + Off.fncSlots) 0x3FFF0001) (c + Off.fncSlots)) = true ∧
    (bit (reg on (c + Off.fncCfg)) 31 = true ∧ activeOf on 511 = 0 ∧ bit (0 : W32) 31 = false ∧ activeOf full 511 ≠ 0) ∧
    (bit (reg s (c + Off.fncStat)) 31 = false ∧ bit (reg fl (c + Off.fncStat)) 31 = true) := by
  decide +kernel

/-- Function 511 with an allocation table at 0x10000 whose entry 63 is 256 MiB from near-tier address 0x20000000 on, VALID and, with
`f` 3, WRITABLE. -/
def sAlloc (f : Nat) : State :=
  memAt (regsAt (sFn sUp 511) [(fncPg 511 + Off.fncAllocBaseLo, 0x10000)]) (0x10000 + 16 * 63)
    (bytesOf 8 0x20000000 ++ bytesOf 4 0x10000000 ++ bytesOf 4 f)

theorem witness_Apertures :
    let s := regsAt sUp [(pPci + Off.pciAperBase, 0)]
    let t := regsAt sUp [(pPci + Off.pciAperBase, 0x3FFF)]
    let off := 68719476735
    let bs : List Byte := [1]
    (off < 68719476736 ∧ 1 ≤ 4096 ∧ bs.length = 1 ∧
      (regF s (pPci + Off.pciAperBase) 13 0 * 2 ^ 36 + off + 1 ≤ nearEnd ∧
        ∀ i < 1, poisoned s (regF s (pPci + Off.pciAperBase) 13 0 * 2 ^ 36 + off + i) 1 = none) ∧
      ∀ i < 1, assignedOff (regF t (pPci + Off.pciAperBase) 13 0 * 2 ^ 36 + off + i) = false) ∧
    (∀ f ∈ [1, 3], let e := allocEntry (sAlloc f) 511 (0x3FFFFFFFF / 0x10000000)
      e = (0x20000000, 0x10000000, f) ∧ 0x3FFFFFFFF < 17179869184 ∧ 0x3FFFFFFFF % 0x10000000 + 1 ≤ e.2.1 ∧
        gOff e.1 + 0x3FFFFFFFF % 0x10000000 + 1 ≤ nearEnd ∧
        ∀ i < 1, poisoned (sAlloc f) (gOff e.1 + 0x3FFFFFFFF % 0x10000000 + i) 1 = none) ∧
    ((allocEntry (sAlloc 3) 511 0).2.2 % 2 = 0 ∧ (allocEntry (sAlloc 3) 511 63).2.1 < 0x3FFFFFFFF % 0x10000000 + 2) := by
  decide +kernel

/-- What CREATE asks for: hamlet 0, pseudo-channel 0, way 0. -/
def sAsk (mode ways op : Nat) : State :=
  let c := prtPg 31
  regsAt sUp [(c + Off.prtHam, 1), (c + Off.prtPc, 1), (c + Off.prtWays, w32 ways), (c + Off.prtMode, w32 mode), (c + Off.prtCmd, w32 (op * 2 ^ 24)),
    (pMod + Off.modHmap, 1), (pcStat 0, 0x1F000000)]

theorem witness_PartitionCommands_create :
    let s := sAsk 0 1 1
    let g := (writePlain wM (prtPg 31 + Off.prtGo) 1 s).st
    (s.managed wM (prtPg 31) = true ∧ bit (1 : W32) 0 = true ∧ regF s (prtPg 31 + Off.prtCmd) 31 24 = 1 ∧ (getPart s 31).cmd = 0 ∧
      (getPart s 31).st = .free ∧ askSpill g 31 = 0 ∧ askPool g 31 ≠ 3 ∧ askHams g 31 = [0] ∧ hamFree g 0 = true ∧ askPcs g 31 = [0] ∧
      pcFree g 0 = true ∧ reg g (prtPg 31 + Off.prtWays) ≠ 0 ∧ reqNames g 31 = false) ∧
    (getPart (setPart s 31 { getPart s 31 with cmd := 2 }) 31).cmd ≠ 0 := by
  decide +kernel

theorem witness_PartitionCommands_results :
    let g (s : State) := (writePlain wM (prtPg 31 + Off.prtGo) 1 s).st
    let busy := setPart (sAsk 0 1 1) 31 { Part.init with st := .created }
    let ham := setHam (sAsk 0 1 1) 0 { Hamlet.init with part := some 0 }
    let pc := setReg (sAsk 0 1 1) (pcStat 0) 0
    let named : State := { sAsk 0 1 1 with reqs := [(0, { Req.free with st := stQueued, part := 31 })] }
    ((getPart busy 31).st ≠ .free ∧ 4 < askSpill (g (sAsk 5 1 1)) 31 ∧ askPool (g (sAsk 0x60000000 1 1)) 31 = 3 ∧
      (askSpill (g (sAsk 0x80000001 1 1)) 31 ≠ 0 ∧ askLearner (g (sAsk 0x80000001 1 1)) 31 = true)) ∧
    hamFree (g ham) 0 = false ∧ pcFree (g pc) 0 = false ∧ reg (g (sAsk 0 0 1)) (prtPg 31 + Off.prtWays) = 0 ∧ reqNames (g named) 31 = true := by
  decide +kernel

/-- A schedule image of no hamlet, with empty STREAMS and SIGNALS. -/
def imgBytes : List Byte :=
  let rest := bytesOf 4 1 ++ bytesOf 4 0 ++ bytesOf 8 0x140 ++ bytesOf 16 0 ++ bytesOf 4 2 ++ bytesOf 4 0 ++ bytesOf 8 0x140 ++ bytesOf 16 0
  bytesOf 4 0x47494D53 ++ bytesOf 2 1 ++ bytesOf 2 0 ++ bytesOf 4 1 ++ bytesOf 2 0 ++ bytesOf 1 0 ++ bytesOf 1 0 ++ bytesOf 4 2 ++ bytesOf 4 0 ++
    bytesOf 8 0x140 ++ sha384 rest ++ List.replicate (256 - 80) 0 ++ rest

/-- Partition 31 over pseudo-channel 0, with that image at 0x100000 and the command `op` on image 1. -/
def sImg (op : Nat) (st : PState) : State :=
  memAt (setPart (regsAt (sAsk 0 1 op) [(pcStat 0, 0x0F801000), (prtPg 31 + Off.prtImgBaseLo, 0x100000), (prtPg 31 + Off.prtCmd, w32 (op * 2 ^ 24 + 1)),
    (pMod + Off.modDcl, 1)]) 31 { Part.init with st := st, hams := [], pcs := [0], ways := 1, pool := 0 }) 0x100000 imgBytes

theorem witness_PartitionCommands_load :
    let s := sImg 3 .created
    let g := (writePlain wM (prtPg 31 + Off.prtGo) 1 s).st
    let x := getPart s 31
    s.managed wM (prtPg 31) = true ∧ regF s (prtPg 31 + Off.prtCmd) 31 24 = 3 ∧ x.cmd = 0 ∧ multiImage x = true ∧ x.st = .created ∧
    regF s (prtPg 31 + Off.prtCmd) 2 0 = 1 ∧ x.resident ≠ some 1 ∧ x.switchTo ≠ some 1 ∧ spillSlotOf x 1 = none ∧
    gOff (pair g (prtPg 31 + Off.prtImgBaseLo)) = 0x100000 ∧ imgInside g 31 0x100000 = true := by
  decide +kernel

/-- The module accepts that image. -/
theorem witness_PartitionCommands_image :
    imageOk (writePlain wM (prtPg 31 + Off.prtGo) 1 (sImg 3 .created)).st 31 0x100000 = true := by
  decide +kernel

theorem witness_PartitionCommands_end :
    let s := sImg 2 .running
    let g := (writePlain wM (prtPg 31 + Off.prtGo) 1 s).st
    let named : State := { s with reqs := [(0, { Req.free with st := stQueued, part := 31 })] }
    let d := setPart s 31 { getPart s 31 with cmd := 2 }
    let r := setPart (sImg 4 .running) 31 { getPart (sImg 4 .running) 31 with hams := [0], resident := none }
    let l := setPart (sImg 3 .running) 31 { getPart (sImg 3 .running) 31 with resident := some 1, images := [(1, ⟨0x100000, 0x140⟩)] }
    (regF s (prtPg 31 + Off.prtCmd) 31 24 = 2 ∧ (getPart s 31).st = .running ∧ reqNames g 31 = false ∧
      reqNames (writePlain wM (prtPg 31 + Off.prtGo) 1 named).st 31 = true) ∧
    ((getPart d 31).cmd = 2 ∧ (getPart d 31).inStep = false ∧ (getPart d 31).placing = false ∧ (getPart d 31).commitWait = false ∧ (getPart s 31).cmd ≠ 2) ∧
    (regF r (prtPg 31 + Off.prtCmd) 31 24 = 4 ∧ (getPart r 31).st = .running ∧ (getPart r 31).inStep = false ∧ (getPart r 31).commitWait = false ∧ r.cperOff ∧
      (getPart r 31).resident = none ∧ (getPart r 31).placing = false ∧ (getPart (sImg 4 .created) 31).st ≠ .running) ∧
    (regF l (prtPg 31 + Off.prtCmd) 31 24 = 3 ∧ multiImage (getPart l 31) = true ∧ (getPart l 31).st = .running ∧
      regF l (prtPg 31 + Off.prtCmd) 2 0 = 1 ∧ (getPart l 31).resident = some 1) ∧
    (let x := setReg l (prtPg 31 + Off.prtCmd) 0x04000000
     regF x (prtPg 31 + Off.prtCmd) 31 24 = 4 ∧ (getPart x 31).st = .running ∧ (getPart x 31).inStep = false ∧ (getPart x 31).commitWait = false ∧ x.cperOff ∧
      (getPart x 31).resident = some 1 ∧ getS (getPart x 31).images 1 = some ⟨0x100000, 0x140⟩) := by
  unfold State.cperOff; decide +kernel

/-- Hamlet 127 in place, its island register selected. -/
def sIsl (idx : Nat) : State := regsAt sUp [(pMod + Off.modHmap + 12, 0x80000000), (islPg 127 + Off.islIdx, w32 idx)]

/-- The island of `sIsl` in a state. -/
def withIsl (i : Nat) (x : Island) : State := { sIsl 0 with isl := [(127 * 18 + i, x)] }

theorem witness_ClocksSet :
    ((sIsl 16).managed wM (islPg 127) = true ∧ regF (sIsl 16) (islPg 127 + Off.islIdx) 4 0 = 16 ∧
      absDiff (vfAt (sIsl 16) 64) (vfAt (sIsl 16) (islSet (sIsl 16) 127 17)) ≤ 200 ∧ fld (64 : W32) 6 0 ≤ 64 ∧ 64 < fld (65 : W32) 6 0 ∧
      absDiff (vfAt { sIsl 16 with vf := [(64, 1025)] } 64) (vfAt { sIsl 16 with vf := [(64, 1025)] } 48) ≤ 200 ∧
      ¬ absDiff (vfAt { sIsl 16 with vf := [(64, 1026)] } 64) (vfAt { sIsl 16 with vf := [(64, 1026)] } 48) ≤ 200 ∧ islSet (sIsl 16) 127 17 = 48) ∧
    (regF (sIsl 17) (islPg 127 + Off.islIdx) 4 0 = 17 ∧ absDiff (vfAt (sIsl 17) 64) (vfAt (sIsl 17) 32) ≤ 200 ∧
      ∀ j < 17, absDiff (vfAt (sIsl 17) (islSet (sIsl 17) 127 j)) (vfAt (sIsl 17) 64) ≤ 200) ∧
    (regF (sIsl 31) (islPg 127 + Off.islIdx) 4 0 = 31 ∧ absDiff (vfAt (sIsl 31) 0) (vfAt (sIsl 31) 32) ≤ 200) := by
  decide +kernel

theorem witness_Clamps :
    let s := sIsl 0
    let c : State := { s with clamps := [127 * 18 + 16] }
    let ca := islClk8 s 127 16
    let cb := islClk8 s 127 17
    let slow := setRegAt s (islPg 127 + Off.islFreq) 17 0
    (hamletOn s 127 = true ∧ 127 * 18 + 16 ∉ s.clamps ∧ (1 * max ca cb ≤ 3 * min ca cb ∧ absDiff 800 1000 ≤ 200 ∧ (127 : Int) - 97 ≤ 30 ∧ (97 : Int) - 127 ≤ 30)) ∧
    ¬ (absDiff 800 1001 ≤ 200) ∧ ¬ ((-98 : Int) - -128 ≤ 29) ∧
    (127 * 18 + 16 ∈ c.clamps ∧ hamletOn c 127 = true ∧ 2 * max ca cb ≤ 5 * min ca cb ∧ absDiff 800 960 ≤ 160 ∧ ¬ absDiff 800 961 ≤ 160) ∧
    (cb ≤ ca ∧ islClk8 slow 127 17 < 12800 ∧ hamletOn slow 127 = true) ∧
    (let v : State := { slow with regs := slow.regs, clamps := [127 * 18 + 16], isl := [(127 * 18 + 17, { Island.init with stretch := 3 })] }
     ¬ (2 * max (islClk8 v 127 16) (islClk8 v 127 17) ≤ 5 * min (islClk8 v 127 16) (islClk8 v 127 17)) ∧
      islClk8 v 127 17 ≤ islClk8 v 127 16 ∧ hamletOn v 127 = true ∧ 127 * 18 + 16 ∈ v.clamps) ∧
    (let v : State := { setRegAt s (islPg 127 + Off.islFreq) 16 0 with clamps := [127 * 18 + 16], isl := [(127 * 18 + 16, { Island.init with stretch := 3 })] }
     ¬ (2 * max (islClk8 v 127 16) (islClk8 v 127 17) ≤ 5 * min (islClk8 v 127 16) (islClk8 v 127 17)) ∧
      islClk8 v 127 16 < islClk8 v 127 17) := by
  decide +kernel

theorem witness_StretchAndEscalation :
    let s := { regsAt (sIsl 0) [(islPg 127 + Off.islDroop + 2 ^ 29 * 17, 0x00503010)] with isl := [(127 * 18 + 17, { Island.init with stretch := 2, low := some 0 })] }
    let d := regAt s (islPg 127 + Off.islDroop) 17
    let e := withIsl 17 { Island.init with stretch := 3, escal := true }
    let l := withIsl 16 { Island.init with low := some 60 }
    (hamletOn s 127 = true ∧ fld d 23 16 = 0x50 ∧ (getIsl s 127 17).stretch = 2 ∧ fld d 15 8 = 0x30 ∧ fld d 7 0 = 0x10) ∧
    ((getIsl s 127 17).stretch = 1 + 1 ∧ (getIsl (sIsl 0) 127 17).stretch = 0) ∧
    ((getIsl s 127 17).escal = false ∧ (getIsl e 127 17).stretch ≠ 0 ∧ (getIsl e 127 17).escal = true) ∧
    ((getIsl l 127 16).low = some 60 ∧ (getIsl l 127 16).stretch = 0 ∧ (getIsl l 127 16).hot = false ∧ islClamped l 127 16 = false ∧
      bit (reg l (pPwr + Off.pwrStat)) 28 = false ∧ (getIsl s 127 16).low = none) := by
  decide +kernel

theorem witness_PowerCaps :
    let s := regsAt sUp [(pPwr + Off.pwrInput, 0xFFFF0000), (pPwr + Off.pwrCap, 3600), (pMod + Off.modHmap, 1)]
    let f : State := { regsAt s [(pMod + Off.modHmap + 4, 0), (pMod + Off.modHmap + 8, 0), (pMod + Off.modHmap + 12, 0)] with
      isl := (List.range 18).map (fun i => (i, { Island.init with low := some 0 })) }
    let z := regsAt sUp [(pPwr + Off.pwrInput, 3420 * 65536), (pPwr + Off.pwrCap, 3600)]
    (min 3600 (max 1600 (regF s (pPwr + Off.pwrCap) 11 0)) < regF s (pPwr + Off.pwrInput) 31 16 ∧ atFloor s = false ∧
      regF s (pPwr + Off.pwrStat) 6 0 = 0 ∧ bit (reg s (pPwr + Off.pwrStat)) 28 = false ∧ (getIsl s 0 0).low = none) ∧
    (3600 < regF f (pPwr + Off.pwrInput) 31 16 ∧ atFloor f = true ∧ bit (reg f (pPwr + Off.pwrStat)) 30 = false ∧ f.cperOff) ∧
    regF z (pPwr + Off.pwrInput) 31 16 ≤ min 3600 (max 1600 (regF z (pPwr + Off.pwrCap) 11 0)) := by
  unfold State.cperOff; decide +kernel

theorem witness_Temperatures :
    let s := regsAt (sIsl 0) [(pPwr + Off.pwrTj, 105), (pClk + Off.clkStat, 0x80000000)]
    let h : State := { s with isl := [(127 * 18 + 17, { Island.init with hot := true })] }
    (hamletOn s 127 = true ∧ (getIsl s 127 17).hot = false ∧ (tjMax s : Int) < 106 ∧ (105 : Int) ≤ tjMax s ∧ bit (reg s (pPwr + Off.pwrStat)) 29 = false) ∧
    ((getIsl h 127 17).hot = true ∧ hamletOn h 127 = true ∧ (tjMax h : Int) - 3 ≤ 102 ∧ (101 : Int) < tjMax h - 3) ∧
    ((110 : Int) < 128 ∧ s.dark = false ∧ s.cperOff) ∧
    (bit (reg s (pClk + Off.clkStat)) (31 - 0) = true ∧ bit (reg s (pClk + Off.clkStat)) (31 - 1) = false) := by
  unfold State.cperOff; decide +kernel

/-- A boot in which nothing fails, at tray position 3. -/
def bootOk : BootOutcome := ⟨3, []⟩

theorem witness_ResetsAndPower :
    let s : State := { sUp with tripped := true, vinLow := true }
    let q : State := { sUp with swapReq := true }
    let h := setReg sUp (pMod + Off.modHmap + 12) 0x80000000
    (bootOk.wf = true ∧ s.tripped = true ∧ s.vinLow = true ∧ q.swapReq = true ∧ coldBooting State.reset = true ∧ keysUp s.hams = true) ∧
    (s.managed wM pBoot = true ∧ (∀ k < 3, bit (0x80000000 + w32 (k * 256)) 31 = true ∧ fld (0x80000000 + w32 (k * 256)) 9 8 = k)) ∧
    (coldBooting sUp = false ∧ sUp.swapReq = false ∧ sUp.ledger.staging = [] ∧ keysUp sUp.regs = true) ∧
    (fld (0x8000027F : W32) 6 0 = 127 ∧ hamletOn h 127 = true ∧ (getHam h 127).part = none ∧ fld (0x8000027F : W32) 9 8 = 2 ∧
      (getHam (setHam h 127 { Hamlet.init with part := some 0 }) 127).part ≠ none ∧ hamletOn (setReg h (pMod + Off.modHmap + 12) 0) 127 = false) ∧
    (bit (reg State.reset (pBoot + Off.bootStat)) 31 = false ∧ bit (reg State.reset (pBoot + Off.bootStat)) 30 = false ∧ State.reset.dark = false ∧
      bit (reg sUp (pBoot + Off.bootStat)) 31 = true) ∧
    (mbrState sUp ≠ 2 ∧ sUp.swapOk = false ∧ mbrState (setReg sUp (pMbr + Off.mbrStat) 0x40000000) = 2) := by
  decide +kernel

theorem witness_FirmwareSwitches :
    let l : LiveSw := ⟨1, [0], false, [], []⟩
    let s : State := { regsAt sUp [(pMod + Off.modHmap, 1), (pMod + Off.modHmap + 4, 0), (pMod + Off.modHmap + 8, 0), (pMod + Off.modHmap + 12, 0)] with live := some l }
    let u : State := { s with live := some { l with changed := [] } }
    (sUp.managed wM pBoot = true ∧ bit (1 : W32) 0 = true ∧ sUp.live = none ∧ compCheck sUp 1 3 = some 8 ∧ bit (reg sUp (pBoot + Off.bootFail)) 31 = false) ∧
    (s.live = some l ∧ l.back = false ∧ l.bank < 2 ∧ (∀ k ∈ liveHams s, k ∈ l.changed) ∧ 0 ∈ liveHams s) ∧
    (∃ k ∈ liveHams u, k ∉ ([] : List Nat)) := by
  decide +kernel

theorem witness_OwnerKeys :
    let s : State := { sUp with ownKeys := [(1, [])], ownRev := [1] }
    (sUp.managed wM pAtt = true ∧ bit (0x8000001F : W32) 31 = true ∧ 16 ≤ fld (0x8000001F : W32) 4 0 ∧ fld (0x8000000F : W32) 4 0 < 16) ∧
    (bit (0x80000001 : W32) 30 = false ∧ fld (0x80000001 : W32) 0 0 = 1 ∧ getS sUp.ownKeys 1 = none ∧ (getS s.ownKeys 1).isSome = true ∧ s.managed wM pAtt = true) ∧
    (bit (0xC0000001 : W32) 30 = true ∧ 1 ∉ sUp.ownRev ∧ 1 ∈ s.ownRev) := by
  decide +kernel

/-- The header of a component with no body. -/
def compHead (t : Nat) : List Byte :=
  bytesOf 4 0x46574B42 ++ bytesOf 4 t ++ bytesOf 24 0 ++ sha384 [] ++ bytesOf 1 0 ++ bytesOf 1 0xFF ++ List.replicate (512 - 82) 0

/-- The bundle of bank 1: the reeve component and, 4 KiB on, the orchestrator's. -/
def bundle1 : LoftObj :=
  { typ := 3, st := 0, fetchable := false, len := 8192, created := 0, digest := [],
    data := (memAt (memAt State.reset 0 (compHead 3)) 4096 (compHead 4)).mem }

/-- The bundle in the loft; the minimum SVN of orchestrator firmware is `n`. -/
def sBundle (n : W32) : State := { setReg sUp (pAtt + Off.attSvn + 12) n with loft := [(1, bundle1)] }

/-- What the check of R530 finds in a header of `bundle1`. -/
theorem bundle1_headers : ∀ a ∈ [0, 4096], let h := hdrAt bundle1 a
    hdrZeros h = true ∧ hdrN h 0x18 8 = 0 ∧ (h.drop 0x20).take 48 = sha384 [] ∧ hdrN h 0x50 1 = 0 ∧ hdrN h 0xC 4 = 0 ∧ hdrN h 0x10 4 = 0 := by
  decide +kernel

/-- The components of `bundle1`. -/
theorem bundle1_comps : compAt bundle1 1 = none ∧ compAt bundle1 2 = none ∧ compAt bundle1 3 = some 0 ∧ compAt bundle1 4 = some 4096 ∧
    compAt bundle1 5 = none := by
  decide +kernel

/-- The bundle and the keys of the two states. -/
theorem sBundle_facts : (bundleOf (sBundle 0) 1 = some (1, bundle1) ∧ bundleOf (sBundle 1) 1 = some (1, bundle1)) ∧
    (bit (reg (sBundle 0) (pAtt + Off.attKeys)) 28 = false ∧ bit (reg (sBundle 1) (pAtt + Off.attKeys)) 28 = false) ∧
    (fld (reg (sBundle 0) (pAtt + Off.attKeys)) 27 26 = 0 ∧ fld (reg (sBundle 1) (pAtt + Off.attKeys)) 27 26 = 0) ∧
    ((reg (sBundle 0) (pAtt + Off.attSvn + 8)).toNat = 0 ∧ (reg (sBundle 1) (pAtt + Off.attSvn + 8)).toNat = 0) ∧
    (reg (sBundle 0) (pAtt + Off.attSvn + 12)).toNat = 0 ∧ (reg (sBundle 1) (pAtt + Off.attSvn + 12)).toNat = 1 := by
  decide +kernel

/-- The check of a component of `bundle1` whose signature verifies: only its SVN is left. -/
theorem compCheck_bundle1 (s : State) (t a n : Nat) (hb : bundleOf s 1 = some (1, bundle1)) (ha : compAt bundle1 t = some a)
    (hk : bit (reg s (pAtt + Off.attKeys)) 28 = false) (ho : fld (reg s (pAtt + Off.attKeys)) 27 26 = 0)
    (hm : (reg s (pAtt + Off.attSvn + 4 * (t - 1))).toNat = n) (ht : t ≠ 5) (h : a ∈ [0, 4096])
    (v : Config.ecdsaVerify (Config.vendorKey 0) ((hdrAt bundle1 a).take 0x58) (((hdrAt bundle1 a).drop 0x58).take 96) = true) :
    compCheck s 1 t = if 0 < n then some 5 else none := by
  obtain ⟨c1, c2, c3, c4, c5⟩ := bundle1_comps
  have l0 := (bundle1_headers 0 (by simp)).2.2.2.2.2
  have l4 := (bundle1_headers 4096 (by simp)).2.2.2.2.2
  obtain ⟨z, n, d, k, w, l⟩ := bundle1_headers a h
  have hl : a + 512 ≤ bundle1.len := by
    simp only [List.mem_cons, List.not_mem_nil, or_false] at h
    have : bundle1.len = 8192 := rfl
    omega
  simp [compCheck, vsigOk, osigOk, hb, ha, hk, ho, hm, ht, c1, c2, c3, c4, c5, l0, l4, z, n, d, k, w, l, v, rdBytes, hl,
    show bundle1.st = 0 from rfl]

/-- The live switch finds both components good, or the second one too old, where their signatures verify: whether they do is a free value. -/
theorem witness_LiveSwitch
    (v : ∀ a ∈ [0, 4096], Config.ecdsaVerify (Config.vendorKey 0) ((hdrAt bundle1 a).take 0x58) (((hdrAt bundle1 a).drop 0x58).take 96) = true) :
    (compCheck (sBundle 0) 1 3 = none ∧ compCheck (sBundle 0) 1 4 = none) ∧ compCheck (sBundle 1) 1 3 = none ∧ compCheck (sBundle 1) 1 4 = some 5 := by
  obtain ⟨-, -, c3, c4, -⟩ := bundle1_comps
  obtain ⟨⟨b0, b1⟩, ⟨k0, k1⟩, ⟨o0, o1⟩, ⟨m0, m1⟩, r0, r1⟩ := sBundle_facts
  exact ⟨⟨compCheck_bundle1 _ 3 0 0 b0 c3 k0 o0 m0 (by decide) (by simp) (v 0 (by simp)),
      compCheck_bundle1 _ 4 4096 0 b0 c4 k0 o0 r0 (by decide) (by simp) (v 4096 (by simp))⟩,
    compCheck_bundle1 _ 3 0 0 b1 c3 k1 o1 m1 (by decide) (by simp) (v 0 (by simp)),
    compCheck_bundle1 _ 4 4096 1 b1 c4 k1 o1 r1 (by decide) (by simp) (v 4096 (by simp))⟩

theorem witness_SpdmRequests :
    let o : State := { sUp with spdm := { Spdm.init with ver := 0x13, algo := true, msgA := [1] } }
    let live : State := { regsAt sUp [(pMod + Off.modHmap, 0), (pMod + Off.modHmap + 4, 0), (pMod + Off.modHmap + 8, 0), (pMod + Off.modHmap + 12, 0)] with
      live := some ⟨1, [], false, [], []⟩ }
    let r (code p1 p2 : Nat) : List Byte := [0x13, BitVec.ofNat 8 code, BitVec.ofNat 8 p1, BitVec.ofNat 8 p2]
    (∀ c ∈ [0x84, 0xE1, 0xE3, 0x81, 0x82, 0x83, 0xE0, 0x01], spdmCode (r c 0 0) = c) ∧ (liveAll o = false ∧ liveAll live = true) ∧
    (o.spdm.msgA ≠ [] ∧ ((r 0xE1 0 0).headD 0).toNat = 0x13 ∧ (([0x11, 0xE1] : List Byte).headD 0).toNat ≠ 0x12 ∧ spdmCode [0x11, 0xE1] = 0xE1) ∧
    (o.spdm.ver ≠ 0 ∧ ((r 0xE3 0 0).headD 0).toNat = o.spdm.ver ∧ o.spdm.algo = true ∧ sUp.spdm.algo = false ∧ (([0x12, 0x83] : List Byte).headD 0).toNat ≠ o.spdm.ver) ∧
    (∀ p ∈ [0, 1, 0xFF], ((r 0x83 0 p).getD 2 0).toNat % 16 = 0 ∧ ((r 0x83 0 p).getD 3 0).toNat = p) ∧
    (((r 0x83 15 0).getD 2 0).toNat % 16 ≠ 0 ∧ ((r 0x83 0 0xFE).getD 3 0).toNat = 0xFE) ∧
    (((r 0xE0 0 1).getD 2 0).toNat % 2 ≠ 1 ∧ ((r 0xE0 0 1).getD 3 0).toNat = 1 ∧ 1 - 1 ∈ (List.range 32).filter (fun n => decide (n = 0) || (getS o.meas n).isSome)) ∧
    (((r 0xE0 1 0xFF).getD 2 0).toNat % 2 = 1 ∧ ((r 0xE0 1 0xFF ++ List.replicate 33 0).getD 36 0).toNat % 16 = 0) ∧
    (((r 0xE0 0 32).getD 3 0).toNat ≠ 0 ∧ 32 - 1 ∉ (List.range 32).filter (fun n => decide (n = 0) || (getS o.meas n).isSome)) := by
  decide +kernel

theorem witness_PldmUpdates :
    let s (st got : Nat) (ok : Bool) : State := { setReg sUp (pLft + Off.lftStat) 0x3FF with
      loft := [(7, { typ := 3, st := 1, fetchable := false, len := 5000, created := 0, digest := [], data := [] })],
      pldm := ⟨st, 1, 5000, got, 7, ok⟩ }
    ((s 0 0 false).pldm.st = 0 ∧ regF (s 0 0 false) (pBoot + Off.bootStat) 23 23 = regF (s 0 0 false) (pBoot + Off.bootStat) 22 22 ∧
      regF (setReg sUp (pBoot + Off.bootStat) 0x80800000) (pBoot + Off.bootStat) 23 23 ≠
        regF (setReg sUp (pBoot + Off.bootStat) 0x80800000) (pBoot + Off.bootStat) 22 22) ∧
    (loftState (s 2 0 false) ≠ 3 ∧ bundleId (s 2 0 false) 1 = 7 ∧
      loftUsed { s 2 0 false with loft := delS (s 2 0 false).loft 7 } + 2 ^ 32 - 1 ≤ loftCap (loftLive (s 2 0 false)) ∧
      loftState (setReg (s 2 0 false) (pLft + Off.lftStat) 0xC0000000) = 3) ∧
    ((s 3 4096 false).pldm.st = 3 ∧ (getObj (s 3 4096 false) 7).isSome = true ∧ (List.replicate 904 (1 : Byte)).length = min 4096 (5000 - 4096) ∧
      (s 3 5000 false).pldm.got = (s 3 5000 false).pldm.size ∧ (s 3 4096 false).pldm.got ≠ (s 3 4096 false).pldm.size) ∧
    ((s 2 5000 true).pldm.applied = true ∧ (s 2 5000 true).live = none ∧
      ({ s 2 5000 true with live := some ⟨1, [], false, [], []⟩ } : State).live.isSome = true) := by
  decide +kernel

/-- A crier packet from module 7 with these ARGS. -/
def cri7 (mepoch : Nat) (args : List Byte) : Crier := { k0 with origin := 7, mepoch := mepoch, seq := 65535, args := args ++ List.replicate (48 - args.length) 0 }

theorem witness_CrierPackets_comes :
    let k := cri7 0 []
    let s : State := { sUp with criRx := [(7, (65535, [65535]))] }
    (k.wf = true ∧ sUp.quar = false ∧ criSeen sUp k.origin k.seq = false ∧ isRelay sUp = false ∧ sUp.cperOff ∧ sUp.swapReq = false) ∧
    criSeen s k.origin k.seq = true := by
  unfold State.cperOff; decide +kernel

theorem witness_CrierPackets_members :
    let subj (k : Crier) := ofBytes (((k.args.drop 1).drop 3).take 2)
    let ep (k : Crier) := ofBytes (((k.args.drop 1).drop 1).take 2)
    let rp (k : Crier) := ofBytes (((k.args.drop 1).drop 5).take 2)
    let s := setReg sUp (pMbr + Off.mbrId) 9
    let own := cri7 0 [3, 0, 1, 0, 9, 0, 0xFE, 0xFF]
    let mine := cri7 0 [3, 0, 1, 0, 8, 0, 9, 0]
    let old := cri7 0 [3, 0, 0, 0, 8, 0, 0xFE, 0xFF]
    (own.wf = true ∧ subj own = modId s ∧ rp own ≠ modId s) ∧
    (mine.wf = true ∧ subj mine ≠ modId s ∧ serialAfter (ep mine) s.mepoch = true ∧ rp mine = modId s ∧ rp mine ≠ 0xFFFE) ∧
    (old.wf = true ∧ subj old ≠ modId s ∧ serialAfter (ep old) s.mepoch = false ∧ rp old ≠ modId s) := by
  decide +kernel

theorem witness_CrierPackets_suspect :
    let k := cri7 0 [1, 0, 0, 0, 8, 0, 0, 0]
    let s : State := { regsAt sUp [(pMbr + Off.mbrId, 9), (pMbr + Off.mbrStat, 0x40000000), (pMbr + Off.mbrCoordA, 0xFFFE0009)] with
      mepoch := 65535, reports := [(8, 6, 0)] }
    let s' : State := { s with reports := s.reports.filter (fun r => !(decide (r.1 = 8) && decide (r.2.1 = 7))) ++ [(8, 7, s.time)] }
    k.wf = true ∧ s.quar = false ∧ criSeen s 7 k.seq = false ∧ isRelay s = false ∧ s.cperOff ∧ s.swapReq = false ∧
    ofBytes (((k.args.drop 1).drop 3).take 2) = 8 ∧ mbrState s = 2 ∧ s.mepoch < 65536 ∧ actingCoord s' = some (modId s) ∧ 2 ≤ (reporters s' 8).length ∧
    mbrState sUp ≠ 2 := by
  unfold State.cperOff; decide +kernel

theorem witness_CrierPackets_fence :
    let s := setPart (sDesc arB) 0 { getPart (sDesc arB) 0 with inStep := true, step := 5 }
    let k := cri7 0 ([2, 0, 0, 0, 0, 0, 0, 0] ++ bytesOf 8 5)
    let x := getPart s 0
    k.wf = true ∧ k.mepoch = s.mepoch ∧ ofBytes ((k.args.drop 1).take 1) % 32 = 0 ∧ fenceGroup s 0 7 = some 63 ∧ x.inStep = true ∧ x.cause = none ∧
    x.step = ofBytes (((k.args.drop 1).drop 7).take 8) ∧ s.quar = false ∧ isRelay s = false ∧ s.cperOff ∧ s.swapReq = false := by
  unfold State.cperOff; decide +kernel

theorem witness_CrierPackets_write :
    let a := pMod + 0x100
    let k := cri7 0 (bytesOf 4 a)
    (k.wf = true ∧ k.mepoch = sUp.mepoch ∧ sUp.up = true ∧ criArg k 0 4 = a ∧ a % 4 = 0 ∧ a < 2 ^ 29 ∧ (rowAt a).isSome = true ∧ sUp.pageOpen (pageOf a) = true ∧
      0x100 ≤ a % 4096 ∧ classOf (pageOf a) ∈ plainClasses) ∧
    (sUp.census = none ∧ criArg (cri7 0 [255, 255, 255]) 3 45 = 0 ∧ (cri7 0 [255, 255, 255]).wf = true) := by
  decide +kernel

theorem witness_MembersWatch :
    let s : State := { regsAt sUp [(pMbr + Off.mbrId, 9), (pMbr + Off.mbrStat, 0x40000000), (pMbr + Off.mbrCoordA, 0xFFFE0003), (pMbr + Off.mbrMonA, 0xFFFE0004)] with
      mepoch := 65535, watch := [(5, (0, 3, false)), (6, (0, 4, false))], reports := [(8, 6, 0)], criTok := 1 }
    let q : State := { s with criQ := [k0] }
    let u := setReg s (pMbr + Off.mbrStat) 0x20000000
    (s.quar = false ∧ mbrState s = 2 ∧ s.hbAt + 100000000 ≤ 100000000 ∧ monitors s = [4] ∧ choosePlane s 4 false = some 16) ∧
    (s.mepoch < 65536 ∧ (∀ m ∈ [3, 4], rxSeen (rxWin s (m * 8 + 6)) 0 = false) ∧ getD s.watch 5 (0, 0, false) = (0, 3, false) ∧ 4 ∈ monitors s) ∧
    (0 + 100000000 ≤ 100000000 ∧ s.fab.lostMods.contains 5 = false ∧ 3 + 1 < 5 ∧ getD s.watch 6 (0, 0, false) = (0, 4, false) ∧ 4 + 1 = 5 ∧
      coordinators s = [3] ∧ 3 ≠ modId s) ∧
    (s.heard + 500000000 ≤ 500000000 ∧ s.swapReq = false ∧ s.cperOff ∧ 499999999 < s.heard + 500000000) ∧
    (u.managed wM pMbr = true ∧ mbrState u ≤ 1 ∧ mbrState u = 1 ∧ s.managed wM pMbr = true ∧ 2 ≤ mbrState s ∧ mbrState s ≠ 1) ∧
    (s.managed wM pCri = true ∧ s.criQ = [] ∧ 0 < s.criTok ∧ q.criQ ≠ [] ∧ q.managed wM pCri = true ∧ q.criHold = [] ∧ 0 < q.criTok) := by
  unfold State.cperOff; decide +kernel

theorem witness_Halt :
    let s := sUp
    let f : State := { s with hltRun := 4 }
    let h : State := { setReg s (pHlt + Off.hltStat) 0xA0000000 with hltRec := [2], hltSaved := true, hltClr := true }
    let c : State := { h with hltRec := [] }
    (99999 < s.hltAt + 100000 ∧ s.hltAt + 100000 ≤ 100000) ∧ (s.hltRun + 1 < hltN s ∧ f.hltRun + 1 = hltN (setReg f (pHlt + Off.hltCfg) 5) ∧ 0 < f.hltRun ∧
      f.hltRun < hltN f ∧ bit (reg s (pHlt + Off.hltStat)) 31 = false) ∧
    (bit (reg h (pHlt + Off.hltStat)) 31 = true ∧ allAtBoundary h = true ∧ h.hltRec ≠ [] ∧ allAtBoundary sPart = false) ∧
    (h.managed wM pHlt = true ∧ bit (reg s (pHlt + Off.hltStat)) 29 = false ∧ bit (reg h (pHlt + Off.hltStat)) 29 = true ∧ s.managed wM pHlt = true) ∧
    (c.hltClr = true ∧ c.hltSaved = true ∧ c.hltRec = []) := by
  decide +kernel

theorem witness_FaultedSteps :
    let c : Cause := ⟨7, 0, 0, 0, 0xFFFF, 0⟩
    let s := setPart sPart 0 { getPart sPart 0 with learner := true, cause := some c }
    let x := getPart s 0
    let t (st : Nat) : State := setHam (setReg sUp (pMod + Off.modHmap + 12) 0x80000000) 127 { Hamlet.init with tstate := [(16, st)] }
    (x.learner = true ∧ x.inStep = true ∧ x.placing = false ∧ x.cause = some c ∧ s.quar = false ∧ s.dark = false ∧ (∀ h ∈ x.hams, (getHam s h).retired = false) ∧
      (getPart sPart 0).cause = none) ∧
    (∀ st ∈ [0, 1, 28, 29], tileWorks (t st) 127 16 = true ∧ (getHam (t st) 127).retired = false ∧ hamletOn (t st) 127 = true ∧ (getHam (t st) 127).bound = true ∧
      (t st).dark = false ∧ onTile (t st) 127 16 = [] ∧ tileSt (t st) 127 16 = st % 4 ∧ (t st).cperOff) ∧
    (∀ l < 17, l ≠ 16 → tileWorks (t 1) 127 l = true) ∧ tileWorks (t 2) 127 16 = false := by
  unfold State.cperOff; decide +kernel

theorem witness_LoftMirror :
    let s := regsAt sUp [(pBbr + Off.bbrHeadLo, 2), (pBbr + Off.bbrHeadLo + 4, 0)]
    loftState s ≠ 3 ∧ keysUp s.loft = true ∧ pair s (pBbr + Off.bbrHeadLo) ≠ pair s (pBbr + Off.bbrMirrorLo) ∧ pair s (pBbr + Off.bbrHeadLo) ≠ 2 ^ 64 - 1 ∧
    pair sUp (pBbr + Off.bbrHeadLo) = 2 ^ 64 - 1 := by
  decide +kernel

/-- Rank `r` of the checkpoint group 63, whose members are [9, 7] or [7, 9]. -/
def sCk (r : Nat) : State :=
  let s := sChain (if r = 0 then [9, 7] else [7, 9]) r []
  regsAt s [(pMbr + Off.mbrId, 9), (pCkp + Off.ckpJob, 63), (pCkp + Off.ckpRecheck, 1), (pCkp + Off.ckpBuddy, 0x03FC0001), (pCkp + Off.ckpManLen, 1)]

theorem witness_Mirrors :
    let m : Mirror := ⟨0, 5, 1, true, false⟩
    let s : State := { sCk 0 with mirrors := [m] }
    let b := 0x10000
    let t := memAt s b (bytesOf 8 0 ++ bytesOf 4 1)
    let t := memAt t (b + 0x100) (bytesOf 4 0x44534B43 ++ List.replicate 20 0 ++ bytesOf 8 0)
    (s.mirrors = [m] ∧ m.closed = false ∧ mirQuiet s m.part = true ∧ s.quar = false ∧ choosePlane s (buddy s) false = some 16 ∧
      (∀ m ∈ sUp.mirrors, m.closed = true)) ∧
    (regF s (pCkp + Off.ckpRecheck) 15 0 ≠ 0 ∧ s.ckCheckAt ≤ 1000000000 ∧ regF sUp (pCkp + Off.ckpRecheck) 15 0 = 0 ∧
      (let u := setReg sUp (pCkp + Off.ckpRecheck) 1
       regF u (pCkp + Off.ckpRecheck) 15 0 ≠ 0 ∧ u.ckCheckAt ≤ 1000000000 ∧ ∀ q < 32, keptAt u q = none)) ∧
    (keptAt t 0 = some b ∧ (∀ q < 32, q ≠ 0 → keptAt t q = none) ∧ rdNat t.mem (b + 8) 4 = 1 ∧ rdNat t.mem (b + genBytes t + 8) 4 ≠ 1 ∧
      rdNat t.mem (b + 0x100) 4 = 0x44534B43 ∧
      sha384 (rdBytes t.mem (b + 0x1000) (rdNat t.mem (b + 0x118) 8)) ≠ rdBytes t.mem (b + 0x128) 48 ∧ t.cperOff) := by
  unfold State.cperOff; decide +kernel

/-- An ordinal: Flush not complete, no generator waited for. -/
def ord0 : Sys2Proof.Machine.Ordinal := ⟨1, 5, 0, 0, [], [], false, []⟩

theorem witness_ShardFlush :
    let s (r : Nat) : State := { sCk r with ck := some ord0 }
    (ord0.flushed = false ∧ ord0.gens = [] ∧ ckRank (s 0) = 0) ∧ (ckRank (s 1) = 1 ∧ (s 1).quar = false ∧ ckMod (s 1) 0 ≠ modId (s 1)) ∧
    (1 < ckN (s 0) ∧ (∀ i < (bytesOf 6 0 ++ bytesOf 90 0).length / 96, ofBytes (((bytesOf 6 0 ++ bytesOf 90 0).drop (96 * i + 6)).take 2) = ord0.mepoch)) ∧
    (∃ i < (bytesOf 6 0 ++ bytesOf 90 1).length / 96, ofBytes (((bytesOf 6 0 ++ bytesOf 90 1).drop (96 * i + 6)).take 2) ≠ ord0.mepoch) ∧
    sUp.ck = none := by
  decide +kernel

/-- An ordinal whose Flush is complete, with every rank's entries: `n` bytes of rank 0. -/
def ordN (n : Nat) : Sys2Proof.Machine.Ordinal := { ord0 with flushed := true, ranks := [(0, List.replicate n 0), (1, [])] }

theorem witness_Manifests :
    let s (r n : Nat) : State := { sCk r with ck := some (ordN n), leaseAt := some 0 }
    (∀ r ∈ [0, 1], (s r 0).ck = some (ordN 0) ∧ ckRank (s r 0) = r) ∧ (ordN 0).flushed = true ∧ (∀ r < ckN (s 0 0), (getS (ordN 0).ranks r).isSome = true) ∧
    (s 0 0).quar = false ∧ (s 0 0).leaseAt = some (s 0 0).mepoch ∧ max 1 (reg (s 0 0) (pCkp + Off.ckpManLen)).toNat = 1 ∧
    (let c : State := { s 0 0 with ck := some { ordN 0 with ranks := [] } }
     ckRank c = 0 ∧ ¬ ∀ r < ckN c, (getS ({ ordN 0 with ranks := [] } : Sys2Proof.Machine.Ordinal).ranks r).isSome = true) := by
  decide +kernel

/-- A manifest fits its slot where the signature, which is a free value here, has its 96 bytes; with 4,096 bytes of entries it does not. -/
theorem witness_ManifestLengths (s : State) (h : ∀ m, (Config.ecdsaSign (attKey s) m).length = 96) :
    (manifest s (ordN 0)).length ≤ 4096 * 1 ∧ 4096 * 1 < (manifest s (ordN 4096)).length := by
  have l : ∀ n v, (bytesOf n v).length = n := by
    intro n
    induction n with
    | zero => intro v; rfl
    | succ n ih => intro v; simp [bytesOf, ih]
  have d : ∀ x, (sha384 x).length ≤ 48 := by
    intro x
    have b : ∀ w : List Nat, (w.flatMap (bytesBE 8)).length = 8 * w.length := by
      intro w
      induction w with
      | nil => rfl
      | cons y w ih => simp only [List.flatMap_cons, List.length_append, ih, List.length_cons, bytesBE, List.length_reverse, l]; omega
    rw [sha384, b, List.length_take]
    omega
  have e := d (Config.certChain (attKey s))
  constructor <;>
    simp only [manifest, ordN, ord0, l, h, List.length_append, List.length_replicate, List.flatMap_cons, List.flatMap_nil, List.length_nil] <;> omega

theorem witness_Restores_decide :
    let s := sCk 0
    (ckRank s = 0 ∧ [5, 3].length = ckN s ∧ 3 ∈ [5, 3] ∧ ∀ r ∈ [5, 3], 3 ≤ r) ∧ ckRank (sCk 1) ≠ 0 ∧ [5].length ≠ ckN s := by
  decide +kernel

/-- A shard: KEYS of partition 0 with 48 bytes. -/
def shdOf (kind : Nat) (good : Bool) : CkShard :=
  let body := bytesOf 8 1 ++ bytesOf 8 5 ++ bytesOf 8 9 ++ bytesOf 8 0xFFFFFFFF ++ bytesOf 16 0
  { hdr := bytesOf 4 0 ++ bytesOf 1 kind ++ bytesOf 1 0 ++ bytesOf 18 0 ++ bytesOf 8 48 ++ bytesOf 8 0 ++
      (if good then sha384 body else bytesOf 48 0) ++ List.replicate 168 0, body := body }

theorem witness_Restores_load :
    let s := setPart sLearn 0 { getPart sLearn 0 with cstep := 5 }
    let y := getPart s 0
    ((∀ p ∈ learners s, (getPart s p).cstep = 5) ∧ ∃ p ∈ learners s, (getPart s p).cstep ≠ 6) ∧
    (shdPart (shdOf 2 true) = 0 ∧ y.st ≠ .free ∧ y.images ≠ [] ∧ y.learner = decide (shdKind (shdOf 2 true) ≤ 2) ∧ y.learner ≠ decide (shdKind (shdOf 3 true) ≤ 2)) ∧
    (shdGood (shdOf 2 true) = true ∧ shdGood (shdOf 2 false) = false ∧ shdKind (shdOf 2 true) = 2 ∧ (shdOf 2 true).body.length = 48) := by
  decide +kernel

theorem witness_CkpRestore :
    let man := bytesOf 4 0x4E414D43 ++ List.replicate 252 0
    (sUp.managed wM pCkp = true ∧ bit (0x80000002 : W32) 31 = true ∧ bit (reg sUp (pCkp + Off.ckpStat)) 29 = false ∧ fld (0x80000002 : W32) 2 1 = 1 ∧
      fld (0x80000004 : W32) 2 1 = 2 ∧ sUp.ledger.ringUp = false ∧ bit (reg (setReg sUp (pCkp + Off.ckpStat) 0x20000000) (pCkp + Off.ckpStat)) 29 = true) ∧
    (256 + 96 * manF man 0x24 4 ≤ man.length ∧ manF man 0 4 = 0x4E414D43 ∧ ¬ (256 + 96 * manF [] 0x24 4 ≤ ([] : List Byte).length)) := by
  decide +kernel

theorem witness_Counters :
    let cnt := cntPg 127
    (sUp.managed wM cnt = true ∧ regF (setReg sUp (cnt + Off.cntTidx) 16) (cnt + Off.cntTidx) 4 0 = 16 ∧ (setReg sUp (cnt + Off.cntTidx) 16).managed wM cnt = true) ∧
    (fld (0xA : W32) 15 0 ≤ 0xA ∧ 0x8001 ≤ fld (0x8004 : W32) 15 0 ∧ ¬ (fld (0xB : W32) 15 0 ≤ 0xA ∨ (0x8001 ≤ fld (0xB : W32) 15 0 ∧ fld (0xB : W32) 15 0 ≤ 0x8004))) ∧
    (0x101 ≤ fld (0x108 : W32) 15 0 ∧ fld (0x108 : W32) 15 0 ≤ 0x108 ∧ fld (0x8002 : W32) 15 0 = 0x8002) := by
  decide +kernel

theorem witness_CensusRuns :
    let c : CensusRun := ⟨5, some 7, 0, 0, [], 0, [(0x227FFF, 1)]⟩
    let s : State := { sUp with census := some c }
    let d : State := { sUp with census := some { c with done := censusUnits sUp } }
    (sUp.managed wM pMcn = true ∧ sUp.census = none ∧ sUp.quar = false ∧ bit (0x80000005 : W32) 30 = false ∧ bit (0xC0000005 : W32) 30 = true) ∧
    (s.census = some c ∧ s.managed wM pMcn = true ∧ pageExists pMcn = true ∧ pMcn ∉ c.done ∧ pMcn ∈ censusUnits sUp) ∧
    ((∀ u ∈ censusUnits d, u ∈ censusUnits sUp) ∧ c.id < 2 ^ 24 ∧ memWf c.shadow = true ∧ ∀ e ∈ c.shadow, e.1 < censusBytes) := by
  refine ⟨by decide +kernel, by decide +kernel, fun _ h => h, by decide +kernel⟩

theorem witness_EthernetPtpAndHostLinks :
    let s := regsAt sUp [(ethPg 3 + Off.ethCfg, 8), (ethPg 3 + Off.ethStat, 0xC0000000)]
    (bit (reg (setReg s (ethPg 3 + Off.ethStat) 0) (ethPg 3 + Off.ethStat)) 31 = false ∧ bit (reg s (ethPg 3 + Off.ethStat)) 31 = true ∧
      bit (reg s (ethPg 3 + Off.ethStat)) 30 = true ∧ bit (reg s (ethPg 3 + Off.ethCfg)) 3 = true ∧
      bit (reg (setReg s (ethPg 3 + Off.ethCfg) 0) (ethPg 3 + Off.ethCfg)) 3 = false) ∧
    (s.criHold = [] ∧ 0 = regF s (ethPg 3 + Off.ethCfg) 2 0 ∧ 7 ≠ regF s (ethPg 3 + Off.ethCfg) 2 0) := by
  decide +kernel

theorem witness_StepsKeepMemoriesCanonical :
    let s : State := { State.reset with pending := [.vinLow] }
    s.memOk = true ∧ (match step s with | .next t => t.dark | _ => false) = true := by
  decide +kernel

theorem witness_IdleStep : State.reset.pending = [] := rfl

/-! ### Small steps: the expected values are worked out by hand from the rules named -/

/-- The step with a command in front of the queue answers a next state of which `f` holds. -/
def after (i : Instr) (s : State) (f : State → Bool) : Bool :=
  match step { s with pending := [i] } with
  | .next t => f t && t.pending.isEmpty
  | _ => false

/-- FIPS 180-4, R586: SHA-384 of "abc" starts CB 00 75 3F. -/
theorem test_sha384 : (sha384 [0x61, 0x62, 0x63]).take 4 = [0xCB, 0x00, 0x75, 0x3F] := by decide +kernel

/-- R417: the check value of CRC-32 for "123456789" is CBF43926. -/
theorem test_crc32 : crc32 [0x31, 0x32, 0x33, 0x34, 0x35, 0x36, 0x37, 0x38, 0x39] = 0xCBF43926 := by decide +kernel

/-- R92: 1 + 2 is 3, and 2^24 + 1 ties to the even 2^24. -/
theorem test_fadd : fadd 0x3F800000 0x40000000 = 0x40400000 ∧ fadd 0x4B800000 0x3F800000 = 0x4B800000 := by decide +kernel

/-- R92: (1 + 2^−23)² − (1 + 2^−22) is 2^−46 when it is rounded once. -/
theorem test_fma : ffma 0x3F800001 0x3F800001 0xBF800002 = 0x28800000 := by decide +kernel

/-- R535: stage 7 makes the module READY. -/
theorem test_boot_ready : after .bootReady State.reset (fun t => t.up) = true := by decide +kernel

/-- R17, R70: a class M write to a read-only register changes nothing and is counted in ERR_CNT. -/
theorem test_write_rejected :
    after (.registerWrite wM (pMbr + Off.mbrStat) 4 0) sUp (fun t => decide (mbrState t = 0) && decide (reg t (pMbr + Off.errCnt) = 1)) = true := by
  decide +kernel

/-- R573: MBR.ID makes an UNASSIGNED module SPARE. -/
theorem test_member_id : after (.mbrIdWrite wM 9) sUp (fun t => decide (modId t = 9) && decide (mbrState t = 1)) = true := by decide +kernel

/-- R163: a SYNC whose signal names counter 63 increments it. -/
theorem test_sync : after (.ctlSync d15) (sCmd 0 1 signals63 0) (fun t => decide (getD (getStr t 0 15).sync 63 0 = 65535)) = true := by decide +kernel

/-- R416: a lane of an UP port that turns bad puts it into TRAINING. -/
theorem test_lane_bad : after (.laneBad 0 0) (setReg sUp (ylkPg 0 + Off.ylkStat) 0x400F8000) (fun t => decide (portState t 0 = 1)) = true := by
  decide +kernel

/-- R425: a packet of an older epoch is dropped and counted in STALE_DROP. -/
theorem test_stale_packet :
    after (.store (pkt7 0 1 0 0x5000 [1])) { sUp with mepoch := 1 } (fun t => decide (reg t (ylkPg 15 + Off.ylkStaleDrop) = 1) && t.mem.isEmpty) = true := by
  decide +kernel

/-- R430: a STORE of a peer writes its bytes and is acknowledged. -/
theorem test_store : after (.store (pkt7 0 2 0 0x5000 [1, 2])) sPeer (fun t => decide (rdNat t.mem 0x5000 2 = 0x201) && decide (t.fab.outbox.length = 1)) = true := by
  decide +kernel

/-- R457, R458: a contribution lands in the slot of its parity. -/
theorem test_reduce_put :
    after (.reducePut { pkt7 0 4 0 (2 ^ 41) [1, 2, 3, 4] with vc := 3 }) (sRed [0, 7] 0) (fun t => decide (rdNat t.mem 0x7100 4 = 0x04030201)) = true := by
  decide +kernel

/-- R456: the root adds the child's slot to its own contribution: 1 + 0 at this parity. -/
theorem test_segment_combine : after (.segmentCombine 0 0 0 0) (sRed [0, 7] 0) (fun t => decide (rd32 t.mem 0x6000 = 0x3F800000)) = true := by
  decide +kernel

/-- R489: a producer count more than a ring ahead is ignored and counted. -/
theorem test_doorbell_bad :
    after (.cmdqDoorbell 511 false 0 4 2) (sRing 1 0xFFFFFFFF []) (fun t => decide (cqProdOf t 511 = 0) && decide (reg t (fncPg 511 + Off.fncDbBad) = 1)) = true := by
  decide +kernel

/-- R494, R495: CREATE takes the hamlet and the pseudo-channel that it names. -/
theorem test_create :
    after (.create wM 31 1) (sAsk 0 1 1) (fun t => decide ((getPart t 31).hams = [0]) && decide (pcOwner t 0 = some 31) && decide ((getHam t 0).part = some 31)) = true := by
  decide +kernel

/-- R515: a droop past the second threshold stretches the clock to 3/4. -/
theorem test_droop :
    after (.droopCross 127 17 0x31) (setRegAt (sIsl 0) (islPg 127 + Off.islDroop) 17 0x00503010) (fun t => decide ((getIsl t 127 17).stretch = 2)) = true := by
  decide +kernel

/-- R575: a sample in which both inputs assert the halt halts the module. -/
theorem test_halt : after (.haltSample false true 100000) sUp (fun t => bit (reg t (pHlt + Off.hltStat)) 31) = true := by decide +kernel

/-- R571: a FENCE of KIND MODULE quarantines, and no packet leaves. -/
theorem test_fence : after (.fenceModule (cri7 0 [1])) sUp (fun t => t.quar && decide (mbrState t = 3) && t.fab.outbox.isEmpty) = true := by decide +kernel

/-- R531: an owner key is enrolled once. -/
theorem test_owner_enrol : after (.ownerEnrol wM 0x80000001) { sUp with ownKeys := [(1, [])] } (fun t => decide (reg t (pAtt + Off.errCnt) = 1)) = true := by
  decide +kernel

/-- R619: GO starts a census with its ID, which is then BUSY. -/
theorem test_census : after (.censusStart wM 0x80000005) sUp (fun t => decide (reg t (pMcn + Off.mcnCenStat) = 0x80000005)) = true := by decide +kernel

/-- An operand that names no unit of the module is refused (log entry 7). -/
theorem test_ill_formed_refused : (match step { sUp with pending := [.flr 512] } with | .refused .illFormed => true | _ => false) = true := by decide +kernel

end Sys2Proof.Machine
end

section
/-! Writes to a TIL page by a manager: which registers a write and its ledger record change, the non-finite registers and the range
bounds (R142 to R144). -/

namespace Sys2Proof.Machine

/-! ### Which registers an operation changes -/

/-- An indexed register keeps its address below the index. -/
@[simp] theorem regKey_mod (s : State) (a : Nat) : regKey s a % 0x20000000 = a % 0x20000000 := by
  rcases regKey_cases s a with ⟨_, h⟩ | ⟨_, _, _, h⟩
  · rw [h]
  · omega

theorem regKey_of_noIndex (s : State) (a : Nat) (h : idxAddr a = none) : regKey s a = a := by
  rcases regKey_cases s a with ⟨_, e⟩ | ⟨x, _, e, _⟩
  · exact e
  · simp [h] at e

theorem cellsSame.refl (s : State) (l : List Nat) : cellsSame s s l := fun _ _ => rfl

theorem cellsSame.mono {s t : State} {l m : List Nat} (h : cellsSame s t l) (k : l ⊆ m) : cellsSame s t m :=
  fun x hx => h x (fun e => hx (k e))

theorem cellsSame.trans {s t u : State} {l : List Nat} (h : cellsSame s t l) (k : cellsSame t u l) : cellsSame s u l :=
  fun x hx => (k x hx).trans (h x hx)

theorem cellsSame.ite {s t u : State} {l : List Nat} {c : Prop} [Decidable c] (h : cellsSame s t l) (k : cellsSame s u l) :
    cellsSame s (if c then t else u) l := by
  split
  · exact h
  · exact k

theorem cellsSame_setReg (s : State) (a : Nat) (v : W32) : cellsSame s (setReg s a v) [regKey s a] :=
  fun _ hk => getS_putDef_of_ne _ _ _ _ _ (fun e => hk (by simp [e]))

theorem cellsSame_put (s : State) {a : Nat} (v : W32) (h : idxAddr a = none) {l : List Nat} (hl : a ∈ l) :
    cellsSame s (setReg s a v) l :=
  (cellsSame_setReg s a v).mono (by simp [regKey_of_noIndex s a h, hl])

theorem cellsSame.of_regs {s t u : State} {l : List Nat} (h : cellsSame s t l) (e : u.regs = t.regs) : cellsSame s u l :=
  fun k hk => by rw [e]; exact h k hk

theorem cellsSame_intBit (s : State) {p : Nat} (i : Nat) (hp : p % 4096 = 0) {l : List Nat} (hl : p + Off.intStat ∈ l) :
    cellsSame s (intBit s p i) l :=
  (cellsSame_put s _ (idxAddr_header _ (show (p + 0x10) % 4096 < 0x28 by omega)) hl).of_regs (intSet_regs s p _)

/-- A register and its place are as they were where neither the register nor its index was written. -/
theorem reg_of_cellsSame {s t : State} {a : Nat} {l : List Nat} (h : cellsSame s t l) (ha : a < 0x20000000)
    (hl : ∀ x ∈ l, x % 0x20000000 ≠ a) (hi : ∀ y, idxAddr a = some y → ∀ x ∈ l, x % 0x20000000 ≠ y) :
    regKey t a = regKey s a ∧ reg t a = reg s a := by
  have hk : regKey t a = regKey s a := by
    refine regKey_congr s t a (fun y hy => h y (fun hm => hi y hy y hm ?_))
    have := (idxAddr_spec a y hy).2
    unfold pageOf at this
    omega
  refine ⟨hk, ?_⟩
  unfold reg getD
  rw [hk, h _ (fun hm => hl _ hm ?_)]
  rw [regKey_mod]; omega

/-! ### What a ledger record changes -/

theorem cellsSame_ledgerNumber (s : State) (a n : Nat) :
    cellsSame s (ledgerNumber s a n) ((pageOf a + Off.ledgerSeq) :: ledgerCells) := by
  have hq : idxAddr (pageOf a + Off.ledgerSeq) = none :=
    idxAddr_header _ (show (pageOf a + 0x24) % 4096 < 0x28 by unfold pageOf; omega)
  have hlo : idxAddr (pLdg + Off.ldgHeadSeqLo) = none := by decide
  have hhi : idxAddr (pLdg + Off.ldgHeadSeqLo + 4) = none := by decide
  exact ((cellsSame_put s _ hq (by simp)).trans (cellsSame_put _ _ hlo (by simp [ledgerCells]))).trans
    (cellsSame_put _ _ hhi (List.mem_cons_of_mem _ (by decide)))

theorem cellsSame_ledgerAlarm (s : State) (n : Nat) (b : Bool) : cellsSame s (ledgerAlarm s n b) ledgerCells := by
  have hint (t : State) (i : Nat) : cellsSame t (intBit t pLdg i) ledgerCells := cellsSame_intBit t i (by decide) (by decide)
  have hlost : idxAddr (pLdg + Off.ldgLost) = none := by decide
  have hl : cellsSame s (if b = true then intBit (bump s (pLdg + Off.ldgLost) 1) pLdg 1 else s) ledgerCells :=
    cellsSame.ite ((cellsSame_put s _ hlost (by decide)).trans (hint _ 1)) (cellsSame.refl _ _)
  unfold ledgerAlarm
  exact cellsSame.ite (hl.trans (hint _ 0)) hl

@[simp] theorem ledgerChain_regs (s : State) (n : Nat) (c : List Byte) : (ledgerChain s n c).regs = s.regs := by rw [ledgerChain]

/-- Of the registers, a record changes its page's LEDGER_SEQ and those of the LDG page. -/
theorem cellsSame_ledgerAdd (s : State) (w : Writer) (f a : Nat) (o n : W32) :
    cellsSame s (ledgerAdd s w f a o n) ((pageOf a + Off.ledgerSeq) :: ledgerCells) := by
  have hring (q : Nat) (r : List Byte) : cellsSame s (ringPut s q r) ((pageOf a + Off.ledgerSeq) :: ledgerCells) := by
    unfold ringPut; split <;> exact fun _ _ => rfl
  obtain ⟨q, r, c, l, e⟩ := ledgerAdd_form s w f a o n
  have hchain := ((hring q r).trans (cellsSame_ledgerNumber _ a q)).of_regs (ledgerChain_regs _ q c)
  rw [e]
  exact hchain.trans ((cellsSame_ledgerAlarm _ q l).mono (List.subset_cons_self _ _))

theorem cellsSame_ledgerIf (s : State) (w : Writer) (b : Bool) (a : Nat) (o n x : W32) :
    cellsSame s (ledgerIf s w b a o n x) ((pageOf a + Off.ledgerSeq) :: ledgerCells) := by
  unfold ledgerIf; split
  · exact cellsSame.refl _ _
  · exact cellsSame_ledgerAdd _ _ _ _ _ _

theorem bytesOf_length (k v : Nat) : (bytesOf k v).length = k := by
  induction k generalizing v with
  | zero => rfl
  | succ k ih => simp [bytesOf, ih]

theorem ledgerBody_length (s : State) (w : Writer) (q f a : Nat) (o n : W32) : (ledgerBody s w q f a o n).length = 48 := by
  simp [ledgerBody, bytesOf_length]

/-- Outside the next record's slot of the ring a record leaves every byte as it was. -/
theorem rdB_ledgerAdd (s : State) (w : Writer) (f a c : Nat) (o n : W32) (h : ¬ inNextRecords s 1 c) :
    rdB (ledgerAdd s w f a o n).mem c = rdB s.mem c := by
  simp only [ledgerAdd, ledgerAlarm_mem, ledgerChain_mem, ledgerNumber_mem, ringPut_mem]
  split
  next hup =>
    refine rdB_wrBytes_outside _ _ _ _ (Decidable.byContradiction fun hc => h ⟨hup, 0, Nat.one_pos, ?_⟩)
    simp only [List.length_append, ledgerBody_length, List.length_take, Nat.add_zero] at hc ⊢
    omega
  next => rfl

/-- The next record of a state depends on its ledger and its LDG registers alone. -/
theorem inNextRecords_congr {s t : State} (n c : Nat) (hl : t.ledger = s.ledger)
    (hr : ∀ x ∈ [pLdg + Off.ldgRingBaseLo, pLdg + Off.ldgRingBaseLo + 4, pLdg + Off.ldgHeadSeqLo, pLdg + Off.ldgHeadSeqLo + 4],
      reg t x = reg s x) : inNextRecords t n c ↔ inNextRecords s n c := by
  simp only [List.forall_mem_cons] at hr
  obtain ⟨hb, hb', hh, hh', -⟩ := hr
  simp only [inNextRecords, hl, tableOff, pair, hb, hb', hh, hh']

/-- A write of a register that has one place, with its record. -/
theorem ledgerOnly_ledgerIf_setReg (s : State) (w : Writer) (b : Bool) (a : Nat) (v o n x : W32) (ha : a < 0x20000000)
    (hi : idxAddr a = none)
    (hb : a ∉ [pLdg + Off.ldgRingBaseLo, pLdg + Off.ldgRingBaseLo + 4, pLdg + Off.ldgHeadSeqLo, pLdg + Off.ldgHeadSeqLo + 4]) :
    ledgerOnly s (ledgerIf (setReg s a v) w b a o n x) 1 [a, pageOf a + Off.ledgerSeq] := by
  have hput : cellsSame s (setReg s a v) ([a, pageOf a + Off.ledgerSeq] ++ ledgerCells) := cellsSame_put s v hi (by simp)
  refine ⟨((regsOnly_setReg s a v).ledger.trans (ledgerOnly_ledgerIf _ _ _ _ _ _ _)).eq,
    hput.trans ((cellsSame_ledgerIf _ w b a o n x).mono (by simp)), fun c hc => ?_⟩
  have hnext : ¬ inNextRecords (setReg s a v) 1 c := by
    refine fun hin => hc ((inNextRecords_congr (s := s) (t := setReg s a v) 1 c rfl (fun y hy => ?_)).1 hin)
    have hidx : idxAddr y = none := by revert y; decide
    have hlt : y < 0x20000000 := by revert y; decide
    exact reg_setReg_of_ne s y a v hlt ha (fun e => hb (e ▸ hy)) (by simp [hidx])
  unfold ledgerIf
  split
  · rfl
  · exact rdB_ledgerAdd _ _ _ _ _ _ _ hnext

/-- A further change of registers and interrupts. -/
theorem ledgerOnly.regs {s t u : State} {n : Nat} {l m : List Nat} (h : ledgerOnly s t n l) (k : RegsOnly t u) (c : cellsSame t u m)
    (hl : l ⊆ m) : ledgerOnly s u n m := by
  obtain ⟨he, hc, hm⟩ := h
  obtain ⟨r, i, rfl⟩ := k
  have hlm : l ++ ledgerCells ⊆ m ++ ledgerCells :=
    List.append_subset.2 ⟨List.subset_append_of_subset_left _ hl, List.subset_append_right _ _⟩
  exact ⟨by rw [he], (hc.mono hlm).trans (c.mono (by simp)), hm⟩

/-! ### A manager's write -/

/-- What holds of a managed write: the writer is well formed and of class M, the module is READY, and the page takes writes. -/
theorem managed_iff (s : State) (w : Writer) (p : Nat) : s.managed w p = true ↔
    (s.up = true ∧ w.wf = true ∧ w.cls = .m) ∧ pageExists p = true ∧ pageLive s p = true ∧ pageRetired s p = false := by
  simp [State.managed, State.pageOpen, manager, and_assoc]

theorem admits_managed (s : State) (w : Writer) (r : RegRow) (a : Nat) (v : W32) (h : s.managed w (pageOf a) = true)
    (hr : r.wr % 2 = 1) : admits s w r a v = true := by
  obtain ⟨⟨hup, -, hm⟩, -⟩ := (managed_iff ..).1 h
  simp only [State.up, Bool.and_eq_true, Bool.not_eq_true'] at hup
  simp [admits, bootAdmits, clsAdmits, hm, hup.1, hup.2, clsBit, hr]

/-- A manager's write of a register of its page's block, neither half of a pair: what the register's own rule lets it hold, and
the record of the change. -/
theorem writeCore_managed (s : State) (w : Writer) (a : Nat) (v n : W32) (b : Bool) (adj : W32 → W32 → Option W32) (r : RegRow)
    (h : s.managed w (pageOf a) = true) (ho : 0x28 ≤ a % 4096) (hrow : rowAt a = some r) (hwr : r.wr % 2 = 1) (hk : r.kind = 0)
    (hn : adj (reg s a) (applyFields r (reg s a) v) = some n) :
    writeCore w a v b adj s =
      ⟨ledgerIf (setReg s a n) w b a (reg s a) n (v &&& w32 r.wo), true, reg s a, n, v &&& w32 r.wo⟩ := by
  obtain ⟨-, -, hlive, hret⟩ := (managed_iff ..).1 h
  have hctl : a % 4096 ≠ Off.pageCtl := by show a % 4096 ≠ 8; omega
  have hown : a % 4096 ≠ Off.owner := by show a % 4096 ≠ 0x20; omega
  simp [writeCore, hlive, hrow, hret, admits_managed s w r a v h hwr, hk, hctl, hown, headerVal, hn]

/-! ### The tile page -/

theorem tilePage_bounds {p : Nat} (h : tilePage p = true) : p % 4096 = 0 ∧ 0x2000000 ≤ p ∧ p < 0xA000000 := by
  simp only [tilePage, pageExists, Nat.shiftRight_eq_div_pow, Bool.and_eq_true, decide_eq_true_eq] at h
  split at h
  · omega
  · simp only [Bool.and_eq_true, decide_eq_true_eq] at h
    omega

theorem classOf_tilePage {p : Nat} (h : tilePage p = true) : classOf p = 0x40 := by
  simp only [tilePage, pageExists, Nat.shiftRight_eq_div_pow, Bool.and_eq_true, decide_eq_true_eq] at h
  simp only [classOf, Nat.shiftRight_eq_div_pow]
  grind

/-- The registers of a tile page are those of the TIL table (R139 to R145). -/
theorem rowAt_til {p o : Nat} (hp : tilePage p = true) (hlo : 0x28 ≤ o) (ho : o < 4096) :
    rowAt (p + o) = findRow regsTil (instanceOf p) o := by
  obtain ⟨hm, -, -⟩ := tilePage_bounds hp
  have hpg : pageOf (p + o) = p := by unfold pageOf; omega
  have hmod : (p + o) % 4096 = o := by omega
  simp only [rowAt, hpg, hmod, classOf_tilePage hp, if_neg (show ¬ o < 0x28 by omega)]
  rfl

/-- Of the TIL registers only the bounds are indexed, by BND_IDX (R142). -/
theorem idxAddr_til {p o y : Nat} (hp : tilePage p = true) (ho : o < 4096) (h : idxAddr (p + o) = some y) :
    y = p + Off.tilBndIdx := by
  obtain ⟨hm, -, -⟩ := tilePage_bounds hp
  by_cases hlo : o < 0x28
  · rw [idxAddr_header _ (by omega)] at h
    exact absurd h (by simp)
  · have hpg : pageOf (p + o) = p := by unfold pageOf; omega
    have hbank : regsTil.all (fun r => r.bank.all (fun b => decide (b.1 = Off.tilBndIdx))) = true := by decide
    simp only [idxAddr, rowAt_til hp (by omega) ho, hpg, Option.map_eq_some_iff, Option.bind_eq_some_iff] at h
    obtain ⟨b, ⟨r, hr, hb⟩, rfl⟩ := h
    have := List.all_eq_true.1 hbank r (findRow_mem _ _ _ _ hr).1
    simp only [hb, Option.all_some, decide_eq_true_eq] at this
    rw [this]

theorem ledgerCells_lt : ∀ x ∈ ledgerCells, x < 0x2000000 := by decide

/-- A TIL register and its place are as they were where neither it nor BND_IDX was written. -/
theorem reg_til_of_cellsSame {s t : State} {p o : Nat} {l : List Nat} (hp : tilePage p = true) (ho : o < 4096) (h : cellsSame s t l)
    (hl : ∀ x ∈ l, x % 0x20000000 ≠ p + o ∧ x % 0x20000000 ≠ p + Off.tilBndIdx) :
    regKey t (p + o) = regKey s (p + o) ∧ reg t (p + o) = reg s (p + o) := by
  obtain ⟨-, -, hlt⟩ := tilePage_bounds hp
  exact reg_of_cellsSame h (by omega) (fun x hx => (hl x hx).1) (fun y hy x hx => idxAddr_til hp ho hy ▸ (hl x hx).2)

/-- A ledger record for a TIL page leaves the page's other registers as they were. -/
theorem reg_til_ledgerIf {p o c : Nat} (s : State) (w : Writer) (b : Bool) (x y z : W32) (hp : tilePage p = true) (ho : o < 4096)
    (hc : c < 4096) (hne : o ≠ Off.ledgerSeq) :
    regKey (ledgerIf s w b (p + c) x y z) (p + o) = regKey s (p + o) ∧ reg (ledgerIf s w b (p + c) x y z) (p + o) = reg s (p + o) := by
  obtain ⟨hm, hlo, hlt⟩ := tilePage_bounds hp
  have hpg : pageOf (p + c) = p := by unfold pageOf; omega
  refine reg_til_of_cellsSame hp ho (cellsSame_ledgerIf s w b (p + c) x y z) (List.forall_mem_cons.2 ⟨?_, fun k hk => ?_⟩)
  · simp only [hpg, Off.ledgerSeq, Off.tilBndIdx] at hne ⊢
    omega
  · have := ledgerCells_lt k hk
    omega

/-! ### The non-finite registers (R144) -/

theorem resetOf_til {p o : Nat} {r : RegRow} (hp : tilePage p = true) (hlo : 0x28 ≤ o) (ho : o < 4096)
    (hr : findRow regsTil (instanceOf p) o = some r) : resetOf (p + o) = w32 r.reset := by
  have hown : (p + o) % 4096 ≠ Off.owner := by
    show (p + o) % 4096 ≠ 0x20
    have := (tilePage_bounds hp).1
    omega
  simp [resetOf, hown, rowAt_til hp hlo ho, hr]

/-- The offset of NF_A or NF_B. -/
theorem nfOff_cases (second : Bool) :
    (if second then Off.tilNfB else Off.tilNfA) = 0x108 ∨ (if second then Off.tilNfB else Off.tilNfA) = 0x10C := by
  cases second
  · exact .inl rfl
  · exact .inr rfl

/-- The row of NF_A or NF_B. -/
def nfRow (o : Nat) : RegRow := ⟨o, 1, 4, 3, 0, false, false, none, 0, 0x80000000, 0, 0, 0xffff000⟩

theorem findRow_til_nf (i o : Nat) (h : o = 0x108 ∨ o = 0x10C) : findRow regsTil i o = some (nfRow o) := by
  rcases h with rfl | rfl <;> simp [findRow, regsTil, nfRow]

/-- FLAG is W1C (R17, R144). -/
theorem bit_applyFields_nf (o : Nat) (old v : W32) (hv : bit v 31 = true) : bit (applyFields (nfRow o) old v) 31 = false := by
  have hmask : (w32 0x80000000).getLsbD 31 = true := by decide
  rw [bit] at hv
  simp only [bit, applyFields, nfRow, BitVec.getLsbD_and, BitVec.getLsbD_not, hv, hmask]
  simp

/-- FLAG cleared by a manager: the register is at its reset value, with a record (R144). -/
theorem clearValid_nf (s : State) (w : Writer) (p o : Nat) (v : W32) (hp : tilePage p = true) (hm : s.managed w p = true)
    (ho : o = 0x108 ∨ o = 0x10C) (hv : bit v 31 = true) (hf : bit (reg s (p + o)) 31 = true) :
    clearValid w (p + o) v [] s = ledgerIf (setReg s (p + o) 0x0FFFF000) w false (p + o) (reg s (p + o)) 0x0FFFF000 0 := by
  obtain ⟨hal, -, -⟩ := tilePage_bounds hp
  have hrow := findRow_til_nf (instanceOf p) o ho
  have hpg : pageOf (p + o) = p := by unfold pageOf; omega
  have hreset : resetOf (p + o) = 0x0FFFF000 := resetOf_til hp (by omega) (by omega) hrow
  unfold clearValid
  rw [writeCore_managed s w (p + o) v 0x0FFFF000 false _ _ (hpg.symm ▸ hm) (by omega) ((rowAt_til hp (by omega) (by omega)).trans hrow)
    (by simp [nfRow]) rfl (by simp [hf, bit_applyFields_nf o _ v hv, hreset])]
  simp [w32, nfRow]

theorem idxAddr_nf {p o : Nat} (hp : tilePage p = true) (ho : o = 0x108 ∨ o = 0x10C) : idxAddr (p + o) = none := by
  simp [idxAddr, rowAt_til hp (show 0x28 ≤ o by omega) (by omega), findRow_til_nf _ o ho, nfRow]

/-- The same, as seen from outside. -/
theorem clearValid_nf_spec (s : State) (w : Writer) (p o : Nat) (v : W32) (hp : tilePage p = true) (hm : s.managed w p = true)
    (ho : o = 0x108 ∨ o = 0x10C) (hv : bit v 31 = true) (hf : bit (reg s (p + o)) 31 = true) :
    reg (clearValid w (p + o) v [] s) (p + o) = 0x0FFFF000 ∧
    ledgerOnly s (clearValid w (p + o) v [] s) 1 [p + o, p + Off.ledgerSeq] := by
  obtain ⟨hal, hlo, hlt⟩ := tilePage_bounds hp
  have hpg : pageOf (p + o) = p := by unfold pageOf; omega
  rw [clearValid_nf s w p o v hp hm ho hv hf]
  constructor
  · rw [(reg_til_ledgerIf _ w false _ _ _ hp (by omega) (by omega) (show o ≠ 0x24 by omega)).2, reg_setReg_self _ _ _ (by omega)]
  · have h := ledgerOnly_ledgerIf_setReg s w false (p + o) 0x0FFFF000 (reg s (p + o)) 0x0FFFF000 0 (by omega) (idxAddr_nf hp ho)
      (fun hx => by have : p + o < 0x2000000 := by revert hx; generalize p + o = x; revert x; decide
                    omega)
    rwa [hpg] at h

theorem bit_or_intBit (x : W32) (i : Nat) (h : i < 32) : bit (x ||| w32 (2 ^ i)) i = true := by
  have hb : (w32 (2 ^ i)).getLsbD i = true := by
    rw [w32, BitVec.getLsbD_ofNat]
    simp [h, Nat.testBit_two_pow_self]
  rw [bit, BitVec.getLsbD_or, hb, Bool.or_true]

theorem exec_nfFlagClear (s : State) (w : Writer) (p : Nat) (second : Bool) (v : W32) (same : Option W32) (hw : w.wf = true)
    (hp : tilePage p = true) : exec (.nfFlagClear w p second v same) s = .next (nfWrite w p second v same s) :=
  checked_of_wf (.nfFlagClear w p second v same) _ (Bool.and_eq_true_iff.2 ⟨hw, hp⟩)

/-- A manager clears FLAG and no command sets it. -/
theorem nfWrite_none (s : State) (w : Writer) (p : Nat) (second : Bool) (v : W32) :
    nfWrite w p second v none s = clearValid w (p + if second then Off.tilNfB else Off.tilNfA) v [] s := rfl

/-- A command sets the flag in the cycle of its clear: it is recorded and the page's source 0 is set (R144). -/
theorem nfWrite_some_spec (s : State) (w : Writer) (p o : Nat) (second : Bool) (v c : W32) (hp : tilePage p = true)
    (hm : s.managed w p = true) (he : (if second then Off.tilNfB else Off.tilNfA) = o) (hv : bit v 31 = true)
    (hf : bit (reg s (p + o)) 31 = true) :
    reg (nfWrite w p second v (some c) s) (p + o) = setBit (c &&& 0x0FFFFFFF) 31 true ∧
    bit (reg (nfWrite w p second v (some c) s) (p + Off.intStat)) 0 = true ∧
    ledgerOnly s (nfWrite w p second v (some c) s) 1 [p + o, p + Off.ledgerSeq, p + Off.intStat] := by
  obtain ⟨hal, hlo, hlt⟩ := tilePage_bounds hp
  have ho : o = 0x108 ∨ o = 0x10C := he ▸ nfOff_cases second
  obtain ⟨hreg, honly⟩ := clearValid_nf_spec s w p o v hp hm ho hv hf
  have hw : nfWrite w p second v (some c) s =
      intBit (setReg (clearValid w (p + o) v [] s) (p + o) (setBit (c &&& 0x0FFFFFFF) 31 true)) p 0 := by
    simp only [nfWrite, he]
    rw [if_neg (by rw [hreg]; decide)]
  have hint (t : State) {l : List Nat} (hl : p + Off.intStat ∈ l) : cellsSame t (intBit t p 0) l := cellsSame_intBit t 0 hal hl
  rw [hw]
  refine ⟨?_, ?_, ?_⟩
  · rw [(reg_til_of_cellsSame hp (by omega) (hint _ (List.mem_singleton_self _)) ?_).2, reg_setReg_self _ _ _ (by omega)]
    simp only [List.forall_mem_singleton, Off.intStat, Off.tilBndIdx]
    omega
  · have hlt' : p + Off.intStat < 0x20000000 := show p + 0x10 < 0x20000000 by omega
    rw [intBit, reg_intSet_self _ _ _ hlt', bit_or_intBit _ 0 (by decide)]
  · exact honly.regs ((regsOnly_setReg _ _ _).trans (regsOnly_intBit _ p 0))
      ((cellsSame_put _ _ (idxAddr_nf hp ho) (by simp)).trans (hint _ (by simp))) (by simp)

/-! ### Range bounds (R142, R143) -/

/-- The row of BND_LO or BND_HI, and that of BND_KEY. -/
def boundRow (o z : Nat) : RegRow := ⟨o, 1, 4, 3, 0, false, false, some (0x120, 5, 0), 0xffffffff, 0, 0, 0, z⟩
def bndKeyRow : RegRow := ⟨0x124, 1, 4, 3, 0, false, false, some (0x120, 5, 0), 0xc000ffff, 0, 0, 0, 0xffff⟩

theorem findRow_til_bound (i o : Nat) (h : o = 0x128 ∨ o = 0x12C) : ∃ z, findRow regsTil i o = some (boundRow o z) := by
  rcases h with rfl | rfl <;> simp [findRow, regsTil, boundRow]

theorem findRow_til_key (i : Nat) : findRow regsTil i 0x124 = some bndKeyRow := by simp [findRow, regsTil, bndKeyRow]

theorem ledgerIf_same (s : State) (w : Writer) (b : Bool) (a : Nat) (v : W32) : ledgerIf s w b a v v 0 = s := by
  simp [ledgerIf]

theorem and_w32_zero (v : W32) : v &&& w32 0 = 0 := by simp [w32]

/-- A manager's write of a bound is staged for the entry that BND_IDX names and leaves the register as it was (R142). -/
theorem bndStage_managed (s : State) (w : Writer) (p o : Nat) (hi : Bool) (v : W32) (hp : tilePage p = true)
    (hm : s.managed w p = true) (he : (if hi then Off.tilBndHi else Off.tilBndLo) = o) (ho : o = 0x128 ∨ o = 0x12C) :
    getS (bndStage w p hi v s).bndStaged (regKey s (p + o)) = some v ∧ reg (bndStage w p hi v s) (p + o) = reg s (p + o) := by
  obtain ⟨hal, -, hlt⟩ := tilePage_bounds hp
  have hpg : pageOf (p + o) = p := by unfold pageOf; omega
  obtain ⟨z, hrow⟩ := findRow_til_bound (instanceOf p) o ho
  have hwc := writeCore_managed s w (p + o) v (reg s (p + o)) false (fun old _ => some old) _ (hpg.symm ▸ hm) (by omega)
    ((rowAt_til hp (by omega) (by omega)).trans hrow) (by simp [boundRow]) rfl rfl
  rw [show (boundRow o z).wo = 0 from rfl, and_w32_zero, ledgerIf_same] at hwc
  simp only [bndStage, he, hwc, if_true]
  exact ⟨getS_putS_self _ _ _, (reg_congr _ (setReg s (p + o) (reg s (p + o))) _ rfl).trans (reg_setReg_self _ _ _ (by omega))⟩

/-- A staged bound is written to its register, with a record of its own, and is staged no more. -/
theorem bndTake_some (s : State) (w : Writer) (a : Nat) (v : W32) (h : getS s.bndStaged (regKey s a) = some v) :
    ∃ u, u.regs = (setReg s a v).regs ∧ u.bndStaged = delS s.bndStaged (regKey s a) ∧
      bndTake w a s = ledgerIf u w false a (reg s a) v 0 :=
  ⟨{ setReg s a v with bndStaged := delS s.bndStaged (regKey s a) }, rfl, rfl, by simp only [bndTake, h]; rfl⟩

theorem bndTake_none (s : State) (w : Writer) (a : Nat) (h : getS s.bndStaged (regKey s a) = none) : bndTake w a s = s := by
  simp only [bndTake, h]

theorem ledgerIf_bndStaged (s : State) (w : Writer) (b : Bool) (a : Nat) (o n x : W32) :
    (ledgerIf s w b a o n x).bndStaged = s.bndStaged := by
  rw [(ledgerOnly_ledgerIf s w b a o n x).eq]

theorem cellsSame_bndTake (s : State) (w : Writer) (a : Nat) :
    cellsSame s (bndTake w a s) (regKey s a :: (pageOf a + Off.ledgerSeq) :: ledgerCells) := by
  cases h : getS s.bndStaged (regKey s a) with
  | none => rw [bndTake_none s w a h]; exact cellsSame.refl _ _
  | some v =>
    obtain ⟨u, hu, -, e⟩ := bndTake_some s w a v h
    rw [e]
    exact (((cellsSame_setReg s a v).mono (by simp)).of_regs hu).trans ((cellsSame_ledgerIf u w false a _ _ 0).mono (by simp))

/-- A bound that takes effect leaves every other one staged. -/
theorem getS_bndTake_of_ne (s : State) (w : Writer) (a k : Nat) (hk : regKey s a ≠ k) :
    getS (bndTake w a s).bndStaged k = getS s.bndStaged k := by
  cases h : getS s.bndStaged (regKey s a) with
  | none => rw [bndTake_none s w a h]
  | some v =>
    obtain ⟨u, -, hu, e⟩ := bndTake_some s w a v h
    rw [e, ledgerIf_bndStaged, hu, getS_delS_of_ne _ _ _ hk]

/-- What a bound register holds once its staged value takes effect: that value, or what it held where none is staged. -/
theorem reg_bndTake (s : State) (w : Writer) {p o : Nat} (hp : tilePage p = true) (ho : o < 4096) (hne : o ≠ Off.ledgerSeq) :
    reg (bndTake w (p + o) s) (p + o) = getD s.bndStaged (regKey s (p + o)) (reg s (p + o)) := by
  have hlt := (tilePage_bounds hp).2.2
  unfold getD
  cases h : getS s.bndStaged (regKey s (p + o)) with
  | none => rw [bndTake_none s w _ h, Option.getD_none]
  | some v =>
    obtain ⟨u, hu, -, e⟩ := bndTake_some s w _ v h
    rw [e, (reg_til_ledgerIf u w false _ _ _ hp ho ho hne).2, reg_congr _ _ _ hu, reg_setReg_self _ _ _ (by omega), Option.getD_some]

/-- What a write of one TIL register with its record leaves alone: every other register of the page. -/
theorem reg_til_of_write {s t : State} {p c o : Nat} (hp : tilePage p = true)
    (h : cellsSame s t (regKey s (p + c) :: (pageOf (p + c) + Off.ledgerSeq) :: ledgerCells)) (hc : c < 4096) (ho : o < 4096)
    (hne : o ≠ c) (hseq : o ≠ Off.ledgerSeq) (hidx : c ≠ Off.tilBndIdx) :
    regKey t (p + o) = regKey s (p + o) ∧ reg t (p + o) = reg s (p + o) := by
  obtain ⟨hm, hlo, hlt⟩ := tilePage_bounds hp
  have hpg : pageOf (p + c) = p := by unfold pageOf; omega
  rw [hpg] at h
  simp only [Off.ledgerSeq, Off.tilBndIdx] at hseq hidx
  refine reg_til_of_cellsSame hp ho h (List.forall_mem_cons.2 ⟨?_, List.forall_mem_cons.2 ⟨?_, fun k hk => ?_⟩⟩)
  · simp only [regKey_mod, Off.tilBndIdx]
    omega
  · simp only [Off.ledgerSeq, Off.tilBndIdx]
    omega
  · have := ledgerCells_lt k hk
    omega

theorem fld_congr (x y : W32) (hi lo : Nat) (h : ∀ i, lo ≤ i → i ≤ hi → x.getLsbD i = y.getLsbD i) : fld x hi lo = fld y hi lo := by
  refine Nat.eq_of_testBit_eq (fun j => ?_)
  simp only [fld, Nat.testBit_mod_two_pow, Nat.testBit_shiftRight]
  by_cases hj : j < hi + 1 - lo
  · have := h (lo + j) (by omega) (by omega)
    simp only [BitVec.getLsbD] at this
    rw [this]
  · simp [hj]

/-- BND_KEY as a write leaves it: LAYER and ACTION are taken, and LO above HI makes the entry OFF (R142, R143). -/
def bndKeyVal (old v : W32) (crossed : Bool) : W32 :=
  if crossed then setFld (applyFields bndKeyRow old v) 31 30 0 else applyFields bndKeyRow old v

theorem getLsbD_setFld_zero (x : W32) (i : Nat) : (setFld x 31 30 0).getLsbD i = (x.getLsbD i && decide (i < 30)) := by
  have hm : ∀ i < 32, (~~~ BitVec.ofNat 32 (maskOf 31 30)).getLsbD i = decide (i < 30) := by decide
  by_cases hi : i < 32
  · simp only [setFld, BitVec.getLsbD_or, BitVec.getLsbD_and, hm i hi]
    simp
  · simp [BitVec.getLsbD_of_ge _ _ (Nat.le_of_not_lt hi)]

/-- A RW bit that is not W1C takes the written bit (R15 to R17). -/
theorem getLsbD_applyFields (r : RegRow) (old v : W32) (i : Nat) (hi : i < 32) (hrw : (w32 r.rw).getLsbD i = true) (hw : r.w1c = 0) :
    (applyFields r old v).getLsbD i = v.getLsbD i := by
  simp only [applyFields, hw, and_w32_zero, BitVec.getLsbD_and, BitVec.getLsbD_or, BitVec.getLsbD_not, hrw]
  simp [hi]

/-- LAYER is as written, and ACTION too unless the bounds are crossed. -/
theorem fld_bndKeyVal (old v : W32) (crossed : Bool) :
    fld (bndKeyVal old v crossed) 15 0 = fld v 15 0 ∧ fld (bndKeyVal old v crossed) 31 30 = if crossed then 0 else fld v 31 30 := by
  have hmask : ∀ i < 32, (i ≤ 15 ∨ 30 ≤ i) → (w32 bndKeyRow.rw).getLsbD i = true := by decide
  have hn (i : Nat) (hi : i < 32) (h : i ≤ 15 ∨ 30 ≤ i) : (applyFields bndKeyRow old v).getLsbD i = v.getLsbD i :=
    getLsbD_applyFields bndKeyRow old v i hi (hmask i hi h) rfl
  cases crossed with
  | false =>
    exact ⟨fld_congr _ _ _ _ (fun i _ hi => hn i (by omega) (by omega)), fld_congr _ _ _ _ (fun i hi hi' => hn i (by omega) (by omega))⟩
  | true =>
    have hoff : fld (bndKeyVal old v true) 31 30 = fld (0 : W32) 31 30 := fld_congr _ _ _ _ (fun i hi _ => by
      simp only [bndKeyVal, if_true, getLsbD_setFld_zero, decide_eq_false (show ¬ i < 30 by omega), Bool.and_false]
      exact BitVec.getLsbD_zero.symm)
    refine ⟨fld_congr _ _ _ _ (fun i _ hi => ?_), hoff⟩
    simp only [bndKeyVal, if_true, getLsbD_setFld_zero, hn i (by omega) (by omega), decide_eq_true (show i < 30 by omega), Bool.and_true]

/-- The value that a bound takes with the next write of the key. -/
def nextBound (s : State) (p o : Nat) : W32 := getD s.bndStaged (regKey s (p + o)) (reg s (p + o))

/-- The two bounds take effect; of the page's other registers only LEDGER_SEQ changes. -/
theorem bndTakes_spec (s : State) (w : Writer) {p : Nat} (hp : tilePage p = true) :
    let t := bndTake w (p + Off.tilBndHi) (bndTake w (p + Off.tilBndLo) s)
    reg t (p + Off.tilBndLo) = nextBound s p Off.tilBndLo ∧ reg t (p + Off.tilBndHi) = nextBound s p Off.tilBndHi ∧
    ∀ o < 4096, o ≠ 0x128 → o ≠ 0x12C → o ≠ 0x24 → reg t (p + o) = reg s (p + o) := by
  have keeps (u : State) {c o : Nat} (hc : c = 0x128 ∨ c = 0x12C) (ho : o < 4096) (hne : o ≠ c) (hq : o ≠ 0x24) :
      regKey (bndTake w (p + c) u) (p + o) = regKey u (p + o) ∧ reg (bndTake w (p + c) u) (p + o) = reg u (p + o) :=
    reg_til_of_write hp (cellsSame_bndTake u w (p + c)) (by omega) ho hne hq (by show c ≠ 0x120; omega)
  refine ⟨?_, ?_, fun o ho hlo hhi hq => ?_⟩
  · rw [(keeps _ (.inr rfl) (by decide) (by decide) (by decide)).2, reg_bndTake s w hp (by decide) (by decide), nextBound]
  · obtain ⟨hk, hr⟩ := keeps s (c := Off.tilBndLo) (o := Off.tilBndHi) (.inl rfl) (by decide) (by decide) (by decide)
    have hne : regKey s (p + Off.tilBndLo) ≠ regKey s (p + Off.tilBndHi) := fun e => by
      have := congrArg (· % 0x20000000) e
      simp only [regKey_mod, Off.tilBndLo, Off.tilBndHi] at this
      omega
    rw [reg_bndTake _ w hp (by decide) (by decide), hk, hr, getD, getS_bndTake_of_ne _ _ _ _ hne, nextBound, getD]
  · rw [(keeps _ (.inr rfl) ho hhi hq).2, (keeps s (.inl rfl) ho hlo hq).2]

/-- BND_KEY holding `n`, with the record of the change. -/
def keyWritten (s : State) (w : Writer) (p : Nat) (n : W32) : State :=
  ledgerIf (setReg s (p + Off.tilBndKey) n) w false (p + Off.tilBndKey) (reg s (p + Off.tilBndKey)) n 0

/-- The write of the key leaves the bounds that are staged, and the page's registers other than LEDGER_SEQ. -/
theorem keyWritten_spec (s : State) (w : Writer) {p : Nat} (n : W32) (hp : tilePage p = true) :
    reg (keyWritten s w p n) (p + Off.tilBndKey) = n ∧ ∀ o < 4096, o ≠ 0x124 → o ≠ 0x24 →
      nextBound (keyWritten s w p n) p o = nextBound s p o ∧ reg (keyWritten s w p n) (p + o) = reg s (p + o) := by
  have hlt := (tilePage_bounds hp).2.2
  have hsame : cellsSame s (keyWritten s w p n)
      (regKey s (p + Off.tilBndKey) :: (pageOf (p + Off.tilBndKey) + Off.ledgerSeq) :: ledgerCells) :=
    ((cellsSame_setReg s (p + Off.tilBndKey) n).mono (by simp)).trans ((cellsSame_ledgerIf _ w false _ _ n 0).mono (by simp))
  refine ⟨?_, fun o ho hne hq => ?_⟩
  · rw [keyWritten, (reg_til_ledgerIf _ w false _ _ _ hp (by decide) (by decide) (by decide)).2,
      reg_setReg_self _ _ _ (show p + 0x124 < 0x20000000 by omega)]
  · obtain ⟨hk, hr⟩ := reg_til_of_write hp hsame (by decide) ho hne hq (by decide)
    have hst : (keyWritten s w p n).bndStaged = s.bndStaged := by rw [keyWritten, ledgerIf_bndStaged, setReg_bndStaged]
    exact ⟨by rw [nextBound, hk, hr, hst, nextBound], hr⟩

/-- The new bounds of the entry have LO above HI. -/
def boundsCross (s : State) (p : Nat) : Bool := flt (nextBound s p Off.tilBndHi) (nextBound s p Off.tilBndLo)

/-- A manager's write of BND_KEY: the key with its record, then the staged bounds, LO first, then the error of crossed bounds. -/
theorem bndKey_managed (s : State) (w : Writer) (p : Nat) (v : W32) (hp : tilePage p = true) (hm : s.managed w p = true) :
    let n := bndKeyVal (reg s (p + Off.tilBndKey)) v (boundsCross s p)
    let t := bndTake w (p + Off.tilBndHi) (bndTake w (p + Off.tilBndLo) (keyWritten s w p n))
    bndKey w p v s = if boundsCross s p then errInc t p else t := by
  obtain ⟨hal, -, -⟩ := tilePage_bounds hp
  have hpg : pageOf (p + Off.tilBndKey) = p := by unfold pageOf; show (p + 0x124) / 4096 * 4096 = p; omega
  obtain ⟨crossed, hc⟩ : ∃ c, boundsCross s p = c := ⟨_, rfl⟩
  have hwc := writeCore_managed s w (p + Off.tilBndKey) v _ false
    (fun _ n => some (if crossed then setFld n 31 30 0 else n)) bndKeyRow (hpg.symm ▸ hm)
    (show 0x28 ≤ (p + 0x124) % 4096 by omega) ((rowAt_til hp (by decide) (by decide)).trans (findRow_til_key (instanceOf p))) rfl rfl rfl
  rw [show bndKeyRow.wo = 0 from rfl, and_w32_zero] at hwc
  simp only [hc]
  simp only [boundsCross, nextBound] at hc
  simp only [bndKey, hc, hwc]
  rfl

theorem reg_errInc {p o : Nat} (s : State) (hp : tilePage p = true) (ho : o < 4096) (hint : o ≠ 0x10) :
    reg (errInc s p) (p + o) = if o = 0x1C then w32 (satAdd 32 (reg s (p + Off.errCnt)).toNat 1) else reg s (p + o) := by
  obtain ⟨hal, hlo, hlt⟩ := tilePage_bounds hp
  have herr : idxAddr (p + Off.errCnt) = none := idxAddr_header _ (show (p + 0x1C) % 4096 < 0x28 by omega)
  have hbit (t : State) : reg (intBit t p 31) (p + o) = reg t (p + o) := by
    refine (reg_til_of_cellsSame hp ho (cellsSame_intBit t 31 hal (List.mem_singleton_self _)) ?_).2
    simp only [List.forall_mem_singleton, Off.intStat, Off.tilBndIdx]
    omega
  rw [errInc, hbit]
  split
  next h => subst h; exact reg_setReg_self _ _ _ (by show p + 0x1C < _; omega)
  next h =>
    refine (reg_til_of_cellsSame hp ho (cellsSame_put s _ herr (List.mem_singleton_self _)) ?_).2
    simp only [List.forall_mem_singleton, Off.errCnt, Off.tilBndIdx]
    omega

/-- The bounds entry after a manager's write of its key (R142, R143). -/
theorem bndKey_spec (s : State) (w : Writer) (p : Nat) (v : W32) (hp : tilePage p = true) (hm : s.managed w p = true) :
    let t := bndKey w p v s
    reg t (p + Off.tilBndLo) = nextBound s p Off.tilBndLo ∧ reg t (p + Off.tilBndHi) = nextBound s p Off.tilBndHi ∧
    fld (reg t (p + Off.tilBndKey)) 15 0 = fld v 15 0 ∧
    fld (reg t (p + Off.tilBndKey)) 31 30 = (if boundsCross s p then 0 else fld v 31 30) ∧
    reg t (p + Off.errCnt) =
      (if boundsCross s p then w32 (satAdd 32 (reg s (p + Off.errCnt)).toNat 1) else reg s (p + Off.errCnt)) := by
  dsimp only
  rw [bndKey_managed s w p v hp hm]
  obtain ⟨hlay, hact⟩ := fld_bndKeyVal (reg s (p + Off.tilBndKey)) v (boundsCross s p)
  generalize bndKeyVal (reg s (p + Off.tilBndKey)) v (boundsCross s p) = n at hlay hact
  obtain ⟨hkey, hkeep⟩ := keyWritten_spec s w n hp
  obtain ⟨hlo, hhi, htakes⟩ := bndTakes_spec (keyWritten s w p n) w hp
  generalize bndTake w (p + Off.tilBndHi) (bndTake w (p + Off.tilBndLo) (keyWritten s w p n)) = t at hlo hhi htakes
  have hend {o : Nat} (ho : o < 4096) (hint : o ≠ 0x10) (herr : o ≠ 0x1C) :
      reg (if boundsCross s p then errInc t p else t) (p + o) = reg t (p + o) := by
    rw [apply_ite (reg · (p + o)), reg_errInc _ hp ho hint, if_neg herr, ite_self]
  have hn : reg (if boundsCross s p then errInc t p else t) (p + Off.tilBndKey) = n := by
    rw [hend (by decide) (by decide) (by decide), htakes _ (by decide) (by decide) (by decide) (by decide), hkey]
  refine ⟨?_, ?_, hn ▸ hlay, hn ▸ hact, ?_⟩
  · rw [hend (by decide) (by decide) (by decide), hlo, (hkeep _ (by decide) (by decide) (by decide)).1]
  · rw [hend (by decide) (by decide) (by decide), hhi, (hkeep _ (by decide) (by decide) (by decide)).1]
  · have hcnt : reg t (p + Off.errCnt) = reg s (p + Off.errCnt) := by
      rw [htakes _ (by decide) (by decide) (by decide) (by decide), (hkeep _ (by decide) (by decide) (by decide)).2]
    rw [apply_ite (reg · (p + Off.errCnt)), reg_errInc _ hp (by decide) (by decide), if_pos rfl, hcnt]

theorem exec_bndBoundWrite (s : State) (w : Writer) (p : Nat) (hi : Bool) (v : W32) (hw : w.wf = true) (hp : tilePage p = true) :
    exec (.bndBoundWrite w p hi v) s = .next (bndStage w p hi v s) :=
  checked_of_wf (.bndBoundWrite w p hi v) _ (Bool.and_eq_true_iff.2 ⟨hw, hp⟩)

theorem exec_bndKeyWrite (s : State) (w : Writer) (p : Nat) (v : W32) (hw : w.wf = true) (hp : tilePage p = true) :
    exec (.bndKeyWrite w p v) s = .next (bndKey w p v s) :=
  checked_of_wf (.bndKeyWrite w p v) _ (Bool.and_eq_true_iff.2 ⟨hw, hp⟩)

/-- Settles O11: a manager's write of each TIL register is what `writeCore` leaves of it, and the registers it does not name are
kept by the frame of a ledger record. -/
theorem tilePageWrites : Obligations.TilePageWrites := by
  unfold Obligations.TilePageWrites
  intro s w p v hp hm nf bnd
  obtain ⟨⟨-, hw, -⟩, -⟩ := (managed_iff ..).1 hm
  refine ⟨fun second hv hf => ?_, fun second c hv hf => ?_, ?_, ?_, ?_⟩
  · refine ⟨_, exec_nfFlagClear s w p second v none hw hp, ?_⟩
    rw [nfWrite_none]
    exact clearValid_nf_spec s w p _ v hp hm (nfOff_cases second) hv hf
  · exact ⟨_, exec_nfFlagClear s w p second v (some c) hw hp, nfWrite_some_spec s w p _ second v c hp hm rfl hv hf⟩
  · exact ⟨_, exec_bndBoundWrite s w p false v hw hp, bndStage_managed s w p _ false v hp hm rfl (.inl rfl)⟩
  · exact ⟨_, exec_bndBoundWrite s w p true v hw hp, bndStage_managed s w p _ true v hp hm rfl (.inr rfl)⟩
  · exact ⟨_, exec_bndKeyWrite s w p v hw hp, bndKey_spec s w p v hp hm⟩

end Sys2Proof.Machine
end

section
/-! The vector unit's cross-lane operations on a state that maps a logical tile to a physical tile that no module has. -/

namespace Sys2Proof.Machine

/-! ### A corrected scratchpad error can move the tile map

`HAM.TMAP[12]` lies at offset 0x130 of the HAM page, and so does `TIL.SPAD_ECC` of a TIL page. The page of "physical tile" 24 is the
HAM page itself (block code 0x18), so on a state whose TMAP[12] names tile 24, which no module has (R25), counting a corrected error
(R132) raises TMAP[12]: the command then acts on the context of tile 25. The statement takes every state, so it fails there. -/

/-- LD of scratchpad address 0 into register 0. -/
def ldWord : W128 := 0x30300000000000000000000000000000#128

/-- The dispatch of logical tile 12 of hamlet 0, whose reads meet one corrected error. -/
def correctedDisp : Disp := ⟨0, 12, 0, 0, 1, none⟩

/-- Logical tile 12 is mapped to physical tile 24, whose scratchpad starts with a word that is not zero; its stream is at `ldWord`. -/
def mapsToTile24 : State :=
  let s := setReg { State.reset with mem := [(0x200E, 0x30), (0x200F, 0x30)] } (hamPgOf 0 + Off.hamTmap + 4 * 12) 0x80000018
  let s := setPart (setHam s 0 { Hamlet.init with part := some 0 }) 0 { Part.init with inStep := true }
  let s := setTile s 24 { Tile.init with spad := [(0, 1)] }
  setStr s 0 12 { Stream.init with phase := .body, bodyAt := 0x2000, bodyLen := 1 }

theorem mapsToTile24_sends : mapsToTile24.sends correctedDisp 3 0x30 ldWord 0 := by
  unfold State.sends; decide +kernel

/-- The load leaves register 0 of the stream's tile as it was, where it should hold the first word of the scratchpad. -/
theorem vecLd_mapsToTile24 : ∃ t, exec (.vecLd correctedDisp) mapsToTile24 = .next t ∧
    vget (getTile t (ctxKey mapsToTile24 0 12)) (vecCmd ldWord).dst 0 ≠
      rd32 (mapsToTile24.ctx 0 12).spad (fld (vecCmd ldWord).imm 17 0 + 4 * 0) :=
  ⟨_, rfl, by decide +kernel⟩

/-- Refutes O7: on a state that maps logical tile 12 to physical tile 24, counting a corrected scratchpad error in SPAD_ECC
overwrites TMAP[12], and a load writes the register of another tile. -/
theorem not_vectorCrossLaneResults : ¬ Obligations.VectorCrossLaneResults := by
  unfold Obligations.VectorCrossLaneResults
  intro h
  obtain ⟨-, -, -, -, -, hld, -⟩ := h mapsToTile24 correctedDisp ldWord 0
  obtain ⟨t, ht, -, hlanes, -⟩ := hld mapsToTile24_sends
  obtain ⟨u, hu, hne⟩ := vecLd_mapsToTile24
  obtain rfl : u = t := by simpa using hu.symm.trans ht
  exact hne (hlanes 0 (by decide))

end Sys2Proof.Machine
end

section
/-! Weight epochs: a manager's write of a slot's base on a state whose base register holds a reserved bit. -/

namespace Sys2Proof.Machine

/-! ### A reserved bit of a slot's base outlives a write

Sn_BASE has bits [26:0] and Sn_SIZE bits [15:0]; a write takes these bits and keeps every other bit of the register (R15, R16:
`applyFields`). Where the reserved bits are 0, as at reset, the register then holds the written value cut to its field. The statement
takes every state, also one whose register holds a reserved bit, and there the bit stays. -/

theorem exec_slotBaseWrite (s : State) (w : Writer) (n : Nat) (size : Bool) (v : W32) (hw : w.wf = true) (hn : n < 3) :
    exec (.slotBaseWrite w n size v) s = .next (slotRegWrite w n size v s) :=
  checked_of_wf (.slotBaseWrite w n size v) _ (Bool.and_eq_true_iff.2 ⟨hw, decide_eq_true hn⟩)

/-- A class M writer over PCIe. -/
def pciManager : Writer := ⟨.m, 0, 0, 0, 0, false⟩

/-- A READY module with every slot EMPTY, where S0_BASE holds its reserved bit 31. -/
def reservedBase : State :=
  setReg (setReg State.reset (pBoot + Off.bootStat) 0x80000000) (pEpo + Off.epoSBase) 0x80000000

theorem managed_reservedBase : reservedBase.managed pciManager pEpo = true := by decide +kernel

theorem slotSt_reservedBase : slotSt reservedBase 0 = 0 := by decide +kernel

/-- The manager writes 0 to S0_BASE, which is taken and leaves bit 31 of the register set. -/
theorem slotRegWrite_reservedBase :
    reg (slotRegWrite pciManager 0 false 0 reservedBase) (pEpo + Off.epoSBase) = 0x80000000 := by
  decide +kernel

/-- Refutes O29: on a state whose S0_BASE holds the reserved bit 31, a manager's write of 0 to the base of the EMPTY slot 0 leaves
0x80000000 in the register, where the statement's third part says 0. Parts three and four need the hypothesis that the reserved bits
of the register are 0. -/
theorem not_epochLoadsAndSlotRegisters : ¬ Obligations.EpochLoadsAndSlotRegisters := by
  unfold Obligations.EpochLoadsAndSlotRegisters
  intro h
  obtain ⟨-, -, hempty, -, -⟩ := h reservedBase pciManager 0 0 (by decide)
  obtain ⟨t, ht, hbase, -⟩ := hempty false managed_reservedBase slotSt_reservedBase
  rw [exec_slotBaseWrite _ _ _ _ _ rfl (by decide)] at ht
  obtain rfl : slotRegWrite pciManager 0 false 0 reservedBase = t := by simpa using ht
  exact absurd (slotRegWrite_reservedBase.symm.trans hbase) (by decide)

end Sys2Proof.Machine
end

section
/-! Values that a write leaves: the fields of a register, numbers in memory, and a register that has one place. -/

namespace Sys2Proof.Machine

/-! ### Fields of a register -/

/-- Bit `i` after bits `[hi:lo]` are replaced by `v`. -/
theorem getLsbD_setFld (x : W32) (hi lo v i : Nat) (hi32 : hi < 32) :
    (setFld x hi lo v).getLsbD i = if lo ≤ i ∧ i ≤ hi then v.testBit (i - lo) else x.getLsbD i := by
  by_cases hi' : i < 32
  · simp only [setFld, maskOf, BitVec.getLsbD_or, BitVec.getLsbD_and, BitVec.getLsbD_not, BitVec.getLsbD_ofNat, hi',
      Nat.testBit_shiftLeft, Nat.testBit_two_pow_sub_one, Nat.testBit_mod_two_pow, decide_true, Bool.true_and]
    by_cases hlo : lo ≤ i <;> by_cases hhi : i ≤ hi
    · have hin : i - lo < hi + 1 - lo := by omega
      simp [hlo, hhi, hin]
    · have hout : ¬ i - lo < hi + 1 - lo := by omega
      simp [hhi, hout]
    · simp [hlo]
    · simp [hlo]
  · rw [if_neg (by omega), BitVec.getLsbD_of_ge _ _ (Nat.le_of_not_lt hi'), BitVec.getLsbD_of_ge _ _ (Nat.le_of_not_lt hi')]

theorem fld_setFld_self (x : W32) (hi lo v : Nat) (hi32 : hi < 32) : fld (setFld x hi lo v) hi lo = v % 2 ^ (hi + 1 - lo) := by
  refine Nat.eq_of_testBit_eq (fun j => ?_)
  simp only [fld, Nat.testBit_mod_two_pow, Nat.testBit_shiftRight]
  by_cases hj : j < hi + 1 - lo
  · have hbit := getLsbD_setFld x hi lo v (lo + j) hi32
    rw [if_pos ⟨by omega, by omega⟩, Nat.add_sub_cancel_left] at hbit
    rw [← hbit]; rfl
  · simp [hj]

@[simp] theorem bit_setBit_self (x : W32) (i : Nat) (b : Bool) (h : i < 32) : bit (setBit x i b) i = b := by
  cases b <;> simp [bit, setBit, getLsbD_setFld _ _ _ _ _ h]

/-! ### Numbers in memory -/

theorem ofBytes_bytesOf (k v : Nat) : ofBytes (bytesOf k v) = v % 256 ^ k := by
  induction k generalizing v with
  | zero => simp [bytesOf, ofBytes, Nat.mod_one]
  | succ k ih =>
    simp only [bytesOf, ofBytes, ih, BitVec.toNat_ofNat, Nat.pow_succ']
    exact Nat.mod_mul.symm

theorem ofBytes_lt (bs : List Byte) : ofBytes bs < 256 ^ bs.length := by
  induction bs with
  | nil => simp [ofBytes]
  | cons b bs ih =>
    have hb : b.toNat < 256 := b.isLt
    simp only [ofBytes, List.length_cons, Nat.pow_succ']
    omega

theorem rdNat_lt (m : Memory) (a n : Nat) : rdNat m a n < 256 ^ n := by
  simpa [rdNat] using ofBytes_lt (rdBytes m a n)

theorem rdBytes_eq_map (m : Memory) (a n : Nat) : rdBytes m a n = (List.range n).map (fun i => rdB m (a + i)) := by
  induction n generalizing a with
  | zero => rfl
  | succ n ih => simp [rdBytes, ih, List.range_succ_eq_map, Function.comp_def, Nat.add_assoc, Nat.add_comm 1]

theorem rdNat_congr {m m' : Memory} {a n : Nat} (h : ∀ i < n, rdB m' (a + i) = rdB m (a + i)) : rdNat m' a n = rdNat m a n := by
  simp only [rdNat, rdBytes_eq_map]
  rw [List.map_congr_left (fun i hi => h i (List.mem_range.1 hi))]

/-- A byte after a write of bytes. -/
theorem rdB_wrBytes (m : Memory) (a c : Nat) (bs : List Byte) :
    rdB (wrBytes m a bs) c = if a ≤ c ∧ c < a + bs.length then bs.getD (c - a) 0 else rdB m c := by
  split
  next h =>
    obtain ⟨i, rfl⟩ := Nat.exists_eq_add_of_le h.1
    have hi : i < bs.length := by omega
    rw [rdB_wrBytes_inside _ _ _ _ hi, Nat.add_sub_cancel_left, List.getD_eq_getElem?_getD, List.getElem?_eq_getElem hi, Option.getD_some]
  next h => exact rdB_wrBytes_outside _ _ _ _ (by omega)

theorem rdBytes_wrBytes_self (m : Memory) (a : Nat) (bs : List Byte) : rdBytes (wrBytes m a bs) a bs.length = bs := by
  refine List.ext_getElem (by simp) (fun i hi _ => ?_)
  have hi' : i < bs.length := by simpa using hi
  simp [rdBytes_eq_map, rdB_wrBytes_inside _ _ _ _ hi']

/-! ### A register that has one place -/

/-- A register of a page is none of others at other offsets of it. -/
theorem add_notMem_map {p o : Nat} (l : List Nat) (h : o ∉ l) : p + o ∉ l.map (p + ·) := fun hm => by
  obtain ⟨x, hx, e⟩ := List.mem_map.1 hm
  exact h (Nat.add_left_cancel e ▸ hx)

/-- A register that is not indexed is as it was where it was not written. -/
theorem reg_of_noIndex {s t : State} {a : Nat} {l : List Nat} (hi : idxAddr a = none) (h : cellsSame s t l) (hl : a ∉ l) :
    reg t a = reg s a := by
  simp only [reg, getD, regKey_of_noIndex _ a hi, h a hl]

theorem pair_of_noIndex {s t : State} {a : Nat} {l : List Nat} (hi : idxAddr a = none) (hi' : idxAddr (a + 4) = none)
    (h : cellsSame s t l) (hl : a ∉ l) (hl' : a + 4 ∉ l) : pair t a = pair s a := by
  simp only [pair, reg_of_noIndex hi h hl, reg_of_noIndex hi' h hl']

theorem cellsSame_bump (s : State) {a : Nat} (k : Nat) (h : idxAddr a = none) : cellsSame s (bump s a k) [a] :=
  cellsSame_put s _ h (List.mem_singleton_self a)

theorem reg_bump_self (s : State) (a k : Nat) (ha : a < 0x20000000) :
    reg (bump s a k) a = w32 (satAdd 32 (reg s a).toNat k) := reg_setReg_self s a _ ha

theorem cellsSame_errInc (s : State) {p : Nat} (hp : p % 4096 = 0) : cellsSame s (errInc s p) [p + Off.errCnt, p + Off.intStat] := by
  have herr : idxAddr (p + Off.errCnt) = none := idxAddr_header _ (show (p + 0x1C) % 4096 < 0x28 by omega)
  exact (cellsSame_put s _ herr (by simp)).trans (cellsSame_intBit _ 31 hp (by simp))

/-- An error of a page is counted, saturating. -/
theorem reg_errInc_errCnt (s : State) {p : Nat} (hp : p % 4096 = 0) (hlt : p < 0x10000000) :
    reg (errInc s p) (p + Off.errCnt) = w32 (satAdd 32 (reg s (p + Off.errCnt)).toNat 1) := by
  have herr : idxAddr (p + Off.errCnt) = none := idxAddr_header _ (show (p + 0x1C) % 4096 < 0x28 by omega)
  have hne : p + Off.errCnt ∉ [p + Off.intStat] := add_notMem_map [Off.intStat] (by decide)
  rw [errInc, reg_of_noIndex herr (cellsSame_intBit _ 31 hp (List.mem_singleton_self _)) hne]
  exact reg_bump_self s _ 1 (show p + 0x1C < _ by omega)

/-- An INT_STAT bit that the unit sets reads 1. -/
theorem bit_intBit_self (s : State) {p i : Nat} (hlt : p < 0x10000000) (hi : i < 32) :
    bit (reg (intBit s p i) (p + Off.intStat)) i = true := by
  rw [intBit, reg_intSet_self _ _ _ (show p + 0x10 < 0x20000000 by omega), bit_or_intBit _ i hi]

end Sys2Proof.Machine
end

section
/-! The page of a function, and writes of the tiers' bytes. -/

namespace Sys2Proof.Machine

/-! ### The page of a function (R55, R480) -/

theorem fncPg_bounds {n : Nat} (hn : n < 512) : fncPg n % 4096 = 0 ∧ 0x100000 ≤ fncPg n ∧ fncPg n < 0x300000 := by
  simp only [fncPg, if_neg (show n ≠ 0x200 by omega), hubPg]
  omega

theorem pageOf_fncPg_add {n o : Nat} (hn : n < 512) (ho : o < 4096) : pageOf (fncPg n + o) = fncPg n := by
  have := (fncPg_bounds hn).1
  unfold pageOf
  omega

theorem hubClass_fnc {i : Nat} (hlo : 0x100 ≤ i) (hhi : i ≤ 0x2FF) : hubClass i = 0x1B := by
  unfold hubClass
  iterate 11 rw [if_neg (by omega)]
  rw [if_pos ⟨hlo, hhi⟩]

theorem classOf_fncPg {n : Nat} (hn : n < 512) : classOf (fncPg n) = 0x1B := by
  obtain ⟨-, hlo, hhi⟩ := fncPg_bounds hn
  have hdom : fncPg n >>> 25 = 0 := by rw [Nat.shiftRight_eq_div_pow]; omega
  have hidx : 0x100 ≤ fncPg n >>> 12 ∧ fncPg n >>> 12 ≤ 0x2FF := by rw [Nat.shiftRight_eq_div_pow]; omega
  simp only [classOf, hdom, if_true, hubClass_fnc hidx.1 hidx.2]

/-- The registers of a function's page are those of the FNC table. -/
theorem rowAt_fnc {n o : Nat} (hn : n < 512) (hlo : 0x28 ≤ o) (ho : o < 4096) :
    rowAt (fncPg n + o) = findRow regsFnc (instanceOf (fncPg n)) o := by
  have hmod : (fncPg n + o) % 4096 = o := by have := (fncPg_bounds hn).1; omega
  simp only [rowAt, pageOf_fncPg_add hn ho, hmod, classOf_fncPg hn, if_neg (show ¬ o < 0x28 by omega)]
  rfl

/-- No register of a function's page is indexed. -/
theorem idxAddr_fnc {n o : Nat} (hn : n < 512) (ho : o < 4096) : idxAddr (fncPg n + o) = none := by
  by_cases hlo : o < 0x28
  · exact idxAddr_header _ (by have := (fncPg_bounds hn).1; omega)
  · rw [idxAddr, rowAt_fnc hn (by omega) ho]
    cases hr : findRow regsFnc (instanceOf (fncPg n)) o with
    | none => rfl
    | some r =>
      have hall : regsFnc.all (fun r => decide (r.bank = none)) = true := by decide
      have hbank : r.bank = none := of_decide_eq_true (List.all_eq_true.1 hall r (findRow_mem _ _ _ _ hr).1)
      simp [hbank]

/-- Every register of a function's block is 0 after a reset (R501). -/
theorem resetOf_fnc {n o : Nat} (hn : n < 512) (hlo : 0x28 ≤ o) (ho : o < 4096) : resetOf (fncPg n + o) = 0 := by
  have hown : (fncPg n + o) % 4096 ≠ Off.owner := by
    show (fncPg n + o) % 4096 ≠ 0x20
    have := (fncPg_bounds hn).1
    omega
  rw [resetOf, if_neg (fun h => hown h.1), rowAt_fnc hn hlo ho]
  cases hr : findRow regsFnc (instanceOf (fncPg n)) o with
  | none => rfl
  | some r =>
    have hall : regsFnc.all (fun r => decide (r.reset = 0)) = true := by decide
    have hreset : r.reset = 0 := of_decide_eq_true (List.all_eq_true.1 hall r (findRow_mem _ _ _ _ hr).1)
    simp [hreset, w32]

/-- A register of a function's page is as it was where it was not written. -/
theorem reg_fnc_of_cellsSame {s t : State} {n o : Nat} {l : List Nat} (hn : n < 512) (ho : o < 4096) (h : cellsSame s t l)
    (hl : fncPg n + o ∉ l) : reg t (fncPg n + o) = reg s (fncPg n + o) :=
  reg_of_noIndex (idxAddr_fnc hn ho) h hl

theorem reg_fnc_setReg_self (s : State) {n o : Nat} (v : W32) (hn : n < 512) (ho : o < 4096) :
    reg (setReg s (fncPg n + o) v) (fncPg n + o) = v :=
  reg_setReg_self _ _ _ (by have := (fncPg_bounds hn).2.2; omega)

/-- The LDG registers that a ledger record changes lie on no function's page. -/
theorem fnc_notMem_ledgerCells {n : Nat} (o : Nat) (hn : n < 512) : fncPg n + o ∉ ledgerCells := fun h => by
  have hlt : ∀ x ∈ ledgerCells, x < 0x100000 := by decide
  have := hlt _ h
  have := (fncPg_bounds hn).2.1
  omega

theorem fnc_notMem_append {n o : Nat} {l : List Nat} (hn : n < 512) (h : fncPg n + o ∉ l) : fncPg n + o ∉ l ++ ledgerCells := by
  rw [List.mem_append]
  exact not_or.2 ⟨h, fnc_notMem_ledgerCells o hn⟩

/-! ### Bytes of the tiers written -/

/-- MCN.MCTR1 and MCTR3, which count the bytes written to the tiers (R617). -/
def tierCounters : List Nat :=
  [pMcn + Off.mcnMctrLo + 8, pMcn + Off.mcnMctrLo + 12, pMcn + Off.mcnMctrLo + 24, pMcn + Off.mcnMctrLo + 28]

/-- From `s` to `t` only bytes of the tiers, their poison marks and the counts of bytes written changed. -/
structure TiersOnly (s t : State) : Prop where
  frame : t = { s with mem := t.mem, poison := t.poison, regs := t.regs }
  cells : cellsSame s t tierCounters

theorem TiersOnly.refl (s : State) : TiersOnly s s := ⟨rfl, cellsSame.refl s _⟩

theorem TiersOnly.trans {s t u : State} (h : TiersOnly s t) (k : TiersOnly t u) : TiersOnly s u :=
  ⟨by rw [k.frame, h.frame], h.cells.trans k.cells⟩

theorem TiersOnly.cellsKept {s t : State} (h : TiersOnly s t) : cellsKept s t 128 [] := by
  have hin : ∀ k ∈ tierCounters, pMcn + Off.mcnMctrLo ≤ k ∧ k < pMcn + Off.mcnMctrLo + 64 := by decide
  exact fun k _ hk => h.cells k (fun hmem => hk (.inr (hin k hmem)))

theorem cellsSame_setRegAt (s : State) (a b : Nat) (v : W32) : cellsSame s (setRegAt s a b v) [a + 0x20000000 * b] :=
  fun _ hk => getS_putDef_of_ne _ _ _ _ _ (fun e => hk (by simp [e]))

theorem cellsSame_countM (s : State) (i n : Nat) :
    cellsSame s (countM s i n) [pMcn + Off.mcnMctrLo + 8 * i, pMcn + Off.mcnMctrLo + 8 * i + 4] := by
  unfold countM
  split
  · exact cellsSame.refl s _
  · exact ((cellsSame_setRegAt s _ 0 _).mono (by simp)).trans ((cellsSame_setRegAt _ _ 0 _).mono (by simp))

theorem tiersOnly_memWrite (s : State) (off : Nat) (bs : List Byte) : TiersOnly s (memWrite s off bs) := by
  refine ⟨?_, ?_⟩
  · have hirqs : (memWrite s off bs).irqs = s.irqs := by
      unfold memWrite countM
      split <;> rfl
    obtain ⟨r, i, e⟩ := memWrite_only s off bs
    rw [e] at hirqs ⊢
    cases hirqs
    rfl
  · unfold memWrite
    have hlo : [pMcn + Off.mcnMctrLo + 8 * 1, pMcn + Off.mcnMctrLo + 8 * 1 + 4] ⊆ tierCounters := by decide
    have hhi : [pMcn + Off.mcnMctrLo + 8 * 3, pMcn + Off.mcnMctrLo + 8 * 3 + 4] ⊆ tierCounters := by decide
    split
    · exact (cellsSame_countM _ 1 _).mono hlo
    · exact (cellsSame_countM _ 3 _).mono hhi

end Sys2Proof.Machine
end

section
/-! Functions are enabled and disabled (R480, R482), with their budgets (R285), and reset (R501). -/

namespace Sys2Proof.Machine

/-! ### Budgets (R285) -/

theorem budAt_add (s : State) (i k : Nat) : budAt s (i + k) = budAt s i + 16 * k := by
  unfold budAt; omega

theorem budBurst_lt (s : State) (i : Nat) : budBurst s i < 2 ^ 32 := rdNat_lt s.mem _ 4

theorem budAt_congr {s t : State} {l : List Nat} (h : cellsSame s t l) (hl : pOrc + Off.orcBudBaseLo ∉ l)
    (hl' : pOrc + Off.orcBudBaseLo + 4 ∉ l) (i : Nat) : budAt t i = budAt s i := by
  have hi : idxAddr (pOrc + Off.orcBudBaseLo) = none := by decide
  have hi' : idxAddr (pOrc + Off.orcBudBaseLo + 4) = none := by decide
  simp only [budAt, pair_of_noIndex hi hi' h hl hl']

theorem budAt_setBal (s : State) (i v j : Nat) : budAt (setBal s i v) j = budAt s j :=
  budAt_congr (tiersOnly_memWrite s _ _).cells (by decide) (by decide) j

theorem setBal_mem (s : State) (i v : Nat) : (setBal s i v).mem = wrBytes s.mem (budAt s i + 8) (bytesOf 4 v) := memWrite_mem ..

/-- A balance holds what it is set to. -/
theorem budBal_setBal_self (s : State) (i v : Nat) (hv : v < 2 ^ 32) : budBal (setBal s i v) i = v := by
  have hself := rdBytes_wrBytes_self s.mem (budAt s i + 8) (bytesOf 4 v)
  rw [bytesOf_length] at hself
  rw [budBal, budAt_setBal, setBal_mem, rdNat, hself, ofBytes_bytesOf]
  exact Nat.mod_eq_of_lt hv

/-- Setting a balance leaves every number of four bytes outside it as it was. -/
theorem rdNat_setBal (s : State) (i v a : Nat) (h : a + 4 ≤ budAt s i + 8 ∨ budAt s i + 12 ≤ a) :
    rdNat (setBal s i v).mem a 4 = rdNat s.mem a 4 := by
  refine rdNat_congr (fun k hk => ?_)
  rw [setBal_mem]
  exact rdB_wrBytes_outside _ _ _ _ (by rw [bytesOf_length]; omega)

theorem budBal_setBal_of_ne (s : State) {i j : Nat} (v : Nat) (h : j ≠ i) : budBal (setBal s i v) j = budBal s j := by
  rw [budBal, budAt_setBal, rdNat_setBal _ _ _ _ (by unfold budAt; omega), budBal]

theorem budBurst_setBal (s : State) (i v j : Nat) : budBurst (setBal s i v) j = budBurst s j := by
  rw [budBurst, budAt_setBal, rdNat_setBal _ _ _ _ (by unfold budAt; omega), budBurst]

/-- Balances set to BURST, one after the other. -/
theorem budFill_list (n : Nat) (l : List Nat) (s : State) :
    let t := l.foldl (fun s c => setBal s (4 * n + c) (budBurst s (4 * n + c))) s
    TiersOnly s t ∧ ∀ c, budBal t (4 * n + c) = if c ∈ l then budBurst s (4 * n + c) else budBal s (4 * n + c) := by
  induction l generalizing s with
  | nil => exact ⟨TiersOnly.refl s, fun c => by simp⟩
  | cons k l ih =>
    obtain ⟨honly, hbal⟩ := ih (setBal s (4 * n + k) (budBurst s (4 * n + k)))
    refine ⟨(tiersOnly_memWrite s _ _).trans honly, fun c => ?_⟩
    rw [List.foldl_cons, hbal c, budBurst_setBal]
    by_cases hmem : c ∈ l
    · simp [hmem]
    · by_cases hck : c = k
      · subst hck
        simp [hmem, budBal_setBal_self s _ _ (budBurst_lt s (4 * n + c))]
      · simp [hmem, hck, budBal_setBal_of_ne s (i := 4 * n + k) (j := 4 * n + c) _ (by omega)]

/-- A function's four balances are at BURST once it is enabled (R285). -/
theorem budFill_spec (s : State) (n : Nat) : TiersOnly s (budFill s n) ∧
    ∀ k < 4, budBal (budFill s n) (4 * n + k) = budBurst s (4 * n + k) := by
  obtain ⟨honly, hbal⟩ := budFill_list n (List.range 4) s
  exact ⟨honly, fun k hk => (hbal k).trans (if_pos (List.mem_range.2 hk))⟩

/-! ### OWNER set by the module -/

theorem ownerSet_spec (s : State) {p : Nat} (v : Nat) (hp : p % 4096 = 0) (hlt : p < 0x10000000) (hv : v < 1024) :
    RegsOnly s (ownerSet s p 9 0 v) ∧ cellsSame s (ownerSet s p 9 0 v) [p + Off.owner, p + Off.intStat] ∧
    regF (ownerSet s p 9 0 v) (p + Off.owner) 9 0 = v := by
  have hown : idxAddr (p + Off.owner) = none := idxAddr_header _ (show (p + 0x20) % 4096 < 0x28 by omega)
  unfold ownerSet
  dsimp only
  split
  next h => exact ⟨RegsOnly.refl s, cellsSame.refl s _, h⟩
  next =>
    refine ⟨(regsOnly_setRegF ..).trans (regsOnly_intBit ..), (cellsSame_put s _ hown (by simp)).trans (cellsSame_intBit _ 29 hp (by simp)), ?_⟩
    have hne : p + Off.owner ∉ [p + Off.intStat] := add_notMem_map [Off.intStat] (by decide)
    rw [regF, reg_of_noIndex hown (cellsSame_intBit _ 29 hp (List.mem_singleton_self _)) hne, setRegF,
      reg_setReg_self _ _ _ (show p + 0x20 < _ by omega), fld_setFld_self _ _ _ _ (by decide)]
    exact Nat.mod_eq_of_lt hv

/-! ### A manager's write of FNC.CFG (R480, R482) -/

/-- The row of FNC.CFG. -/
def cfgRow : RegRow := ⟨0x100, 1, 4, 1, 0, false, false, none, 0x8000071f, 0, 0, 0, 0⟩

/-- The value that a write of FNC.CFG asks for. -/
def cfgAsked (s : State) (n : Nat) (v : W32) : W32 := applyFields cfgRow (reg s (fncPg n + Off.fncCfg)) v

/-- FNC.CFG holding `x`, with the record of the change. -/
def cfgWritten (s : State) (w : Writer) (n : Nat) (x : W32) : State :=
  let a := fncPg n + Off.fncCfg
  ledgerIf (setReg s a x) w false a (reg s a) x 0

theorem rowAt_fncCfg {n : Nat} (hn : n < 512) : rowAt (fncPg n + Off.fncCfg) = some cfgRow := by
  rw [rowAt_fnc hn (by decide) (by decide)]
  simp [findRow, regsFnc, cfgRow]

/-- ENABLE is as written. -/
theorem bit_cfgAsked (s : State) (n : Nat) (v : W32) : bit (cfgAsked s n v) 31 = bit v 31 :=
  getLsbD_applyFields cfgRow _ v 31 (by decide) (by decide) rfl

/-- A write of CFG leaves it at `x`; beside it only the record and its page's LEDGER_SEQ change. -/
theorem cfgWritten_spec (s : State) (w : Writer) {n : Nat} (x : W32) (hn : n < 512) :
    ledgerOnly s (cfgWritten s w n x) 1 [fncPg n + Off.fncCfg, fncPg n + Off.ledgerSeq] ∧
    reg (cfgWritten s w n x) (fncPg n + Off.fncCfg) = x := by
  obtain ⟨-, hlo, hhi⟩ := fncPg_bounds hn
  have hcfg : Off.fncCfg < 4096 := by decide
  have hpg := pageOf_fncPg_add hn hcfg
  have hldg : fncPg n + Off.fncCfg ∉
      [pLdg + Off.ldgRingBaseLo, pLdg + Off.ldgRingBaseLo + 4, pLdg + Off.ldgHeadSeqLo, pLdg + Off.ldgHeadSeqLo + 4] := by
    simp only [List.mem_cons, List.not_mem_nil, or_false, pLdg, Off.fncCfg, Off.ldgRingBaseLo, Off.ldgHeadSeqLo]
    omega
  have hframe := ledgerOnly_ledgerIf_setReg s w false (fncPg n + Off.fncCfg) x (reg s (fncPg n + Off.fncCfg)) x 0
    (by omega) (idxAddr_fnc hn hcfg) hldg
  rw [hpg] at hframe
  refine ⟨hframe, ?_⟩
  have hout : fncPg n + Off.fncCfg ∉ (pageOf (fncPg n + Off.fncCfg) + Off.ledgerSeq) :: ledgerCells := by
    rw [hpg]
    exact fnc_notMem_append hn (add_notMem_map [Off.ledgerSeq] (by decide))
  unfold cfgWritten
  rw [reg_fnc_of_cellsSame hn hcfg (cellsSame_ledgerIf _ w false _ _ _ 0) hout, reg_fnc_setReg_self s x hn hcfg]

section
variable {s : State} {w : Writer} {n : Nat} {v : W32}

theorem exec_functionEnable (hn : n < 512) (hm : s.managed w (fncPg n) = true) :
    exec (.functionEnable w n v) s = .next (fncCfgWrite w n v s) := by
  obtain ⟨⟨-, hw, -⟩, -⟩ := (managed_iff ..).1 hm
  exact checked_of_wf (.functionEnable w n v) _ (Bool.and_eq_true_iff.2 ⟨hw, decide_eq_true hn⟩)

theorem exec_functionDisable (hn : n < 512) (hm : s.managed w (fncPg n) = true) :
    exec (.functionDisable w n v) s = .next (fncCfgWrite w n v s) := by
  obtain ⟨⟨-, hw, -⟩, -⟩ := (managed_iff ..).1 hm
  exact checked_of_wf (.functionDisable w n v) _ (Bool.and_eq_true_iff.2 ⟨hw, decide_eq_true hn⟩)

/-- A manager's write of CFG that its definition lets leave `x`: an ENABLE other than the written one is an error, and a function
that comes to be enabled or disabled takes or gives up its page. -/
theorem fncCfgWrite_some (hn : n < 512) (hm : s.managed w (fncPg n) = true) {x : W32}
    (hx : cfgAdj s n (reg s (fncPg n + Off.fncCfg)) (cfgAsked s n v) = some x) :
    fncCfgWrite w n v s =
      let u := if bit x 31 = bit v 31 then cfgWritten s w n x else errInc (cfgWritten s w n x) (fncPg n)
      if bit x 31 && !bit (reg s (fncPg n + Off.fncCfg)) 31 then budFill (ownerSet u (fncPg n) 9 0 n) n
      else if bit (reg s (fncPg n + Off.fncCfg)) 31 && !bit x 31 then ownerSet u (fncPg n) 9 0 0x3FF
      else u := by
  have hpg := pageOf_fncPg_add hn (show Off.fncCfg < 4096 by decide)
  have hmod : 0x28 ≤ (fncPg n + Off.fncCfg) % 4096 := by
    have := (fncPg_bounds hn).1
    simp only [Off.fncCfg]
    omega
  have hwc := writeCore_managed s w (fncPg n + Off.fncCfg) v x false (cfgAdj s n) cfgRow (hpg.symm ▸ hm) hmod (rowAt_fncCfg hn) rfl rfl hx
  rw [show cfgRow.wo = 0 from rfl, and_w32_zero] at hwc
  simp only [fncCfgWrite, hwc]
  rfl

/-- A manager's write of CFG that its definition refuses changes nothing but the page's errors. -/
theorem fncCfgWrite_none (hn : n < 512) (hm : s.managed w (fncPg n) = true)
    (hx : cfgAdj s n (reg s (fncPg n + Off.fncCfg)) (cfgAsked s n v) = none) : fncCfgWrite w n v s = errInc s (fncPg n) := by
  obtain ⟨-, -, hlive, hret⟩ := (managed_iff ..).1 hm
  have hpg := pageOf_fncPg_add hn (show Off.fncCfg < 4096 by decide)
  have hal := (fncPg_bounds hn).1
  have hctl : (fncPg n + Off.fncCfg) % 4096 ≠ Off.pageCtl := by show (fncPg n + 0x100) % 4096 ≠ 8; omega
  have hown : (fncPg n + Off.fncCfg) % 4096 ≠ Off.owner := by show (fncPg n + 0x100) % 4096 ≠ 0x20; omega
  have hadm : admits s w cfgRow (fncPg n + Off.fncCfg) v = true := admits_managed s w cfgRow _ v (hpg.symm ▸ hm) rfl
  have hwc : writeCore w (fncPg n + Off.fncCfg) v false (cfgAdj s n) s = .none (errInc s (fncPg n)) := by
    unfold cfgAsked at hx
    simp [writeCore, hpg, hlive, hret, rowAt_fncCfg hn, hadm, hctl, hown, headerVal, hx, show cfgRow.kind = 0 from rfl]
  simp only [fncCfgWrite, hwc]
  rfl

/-- CFG after a write whose ENABLE is not taken as written: `x`, with one error of the page. -/
theorem cfgRefused_spec (x : W32) (hn : n < 512) :
    let t := errInc (cfgWritten s w n x) (fncPg n)
    reg t (fncPg n + Off.fncCfg) = x ∧
    reg t (fncPg n + Off.errCnt) = w32 (satAdd 32 (reg s (fncPg n + Off.errCnt)).toNat 1) := by
  obtain ⟨hal, -, hhi⟩ := fncPg_bounds hn
  obtain ⟨⟨-, hcells, -⟩, hcfg⟩ := cfgWritten_spec s w x hn
  have herr : fncPg n + Off.errCnt ∉ [fncPg n + Off.fncCfg, fncPg n + Off.ledgerSeq] ++ ledgerCells :=
    fnc_notMem_append hn (add_notMem_map [Off.fncCfg, Off.ledgerSeq] (by decide))
  refine ⟨?_, ?_⟩
  · rw [reg_fnc_of_cellsSame hn (by decide) (cellsSame_errInc _ hal) (add_notMem_map [Off.errCnt, Off.intStat] (by decide)), hcfg]
  · rw [reg_errInc_errCnt _ hal (by omega), reg_fnc_of_cellsSame hn (by decide) hcells herr]

/-- ENABLE taken (R480): the function has its page, and its budgets are at BURST (R285). -/
theorem fncCfgWrite_enables (hn : n < 512) (hm : s.managed w (fncPg n) = true) (hv : bit v 31 = true)
    (hoff : bit (reg s (fncPg n + Off.fncCfg)) 31 = false) (hvf : n < numVfs s)
    (hslots : slotsOverlap s n (reg s (fncPg n + Off.fncSlots)) = false)
    (hring : ∀ j < 64, ¬ inNextRecords s 1 (budAt s (4 * n) + j)) :
    let t := fncCfgWrite w n v s
    bit (reg t (fncPg n + Off.fncCfg)) 31 = true ∧ regF t (fncPg n + Off.owner) 9 0 = n ∧
      (∀ k < 4, budBal t (4 * n + k) = budBurst s (4 * n + k)) ∧ t.reqs = s.reqs ∧ t.parts = s.parts ∧ t.streams = s.streams := by
  obtain ⟨hal, hlo, hhi⟩ := fncPg_bounds hn
  obtain ⟨x, hx⟩ : ∃ x, cfgAsked s n v = x := ⟨_, rfl⟩
  have hbit : bit x 31 = true := by rw [← hx, bit_cfgAsked, hv]
  have hadj : cfgAdj s n (reg s (fncPg n + Off.fncCfg)) (cfgAsked s n v) = some x := by
    simp [cfgAdj, hx, hbit, hoff, Nat.not_le.2 hvf, hslots]
  have heq : fncCfgWrite w n v s = budFill (ownerSet (cfgWritten s w n x) (fncPg n) 9 0 n) n := by
    rw [fncCfgWrite_some hn hm hadj]
    simp [hbit, hv, hoff]
  obtain ⟨⟨hframe, hcells, hmem⟩, hcfg⟩ := cfgWritten_spec s w x hn
  obtain ⟨hregs, hocells, howner⟩ := ownerSet_spec (cfgWritten s w n x) n hal (by omega) (show n < 1024 by omega)
  obtain ⟨hfill, hbal⟩ := budFill_spec (ownerSet (cfgWritten s w n x) (fncPg n) 9 0 n) n
  rw [heq]
  generalize budFill (ownerSet (cfgWritten s w n x) (fncPg n) 9 0 n) n = t at hfill hbal ⊢
  generalize ownerSet (cfgWritten s w n x) (fncPg n) 9 0 n = u2 at hregs hocells howner hfill hbal
  generalize cfgWritten s w n x = u1 at hframe hcells hmem hcfg hregs hocells
  have hmcn (o : Nat) : fncPg n + o ∉ tierCounters := fun h => by
    have hlt : ∀ y ∈ tierCounters, y < 0x100000 := by decide
    have := hlt _ h
    omega
  have hbud (i : Nat) : budAt u2 i = budAt s i := by
    have hcell (a : Nat) (ha : a < 0x100000) (hl : a ∉ ledgerCells) :
        a ∉ ([fncPg n + Off.fncCfg, fncPg n + Off.ledgerSeq] ++ ledgerCells) := by
      simp only [List.mem_append, List.mem_cons, List.not_mem_nil, or_false, hl]
      omega
    have hcell' (a : Nat) (ha : a < 0x100000) : a ∉ [fncPg n + Off.owner, fncPg n + Off.intStat] := by
      simp only [List.mem_cons, List.not_mem_nil, or_false]
      omega
    rw [budAt_congr hocells (hcell' _ (by decide)) (hcell' _ (by decide)),
      budAt_congr hcells (hcell _ (by decide) (by decide)) (hcell _ (by decide) (by decide))]
  have hburst (k : Nat) (hk : k < 4) : budBurst u2 (4 * n + k) = budBurst s (4 * n + k) := by
    rw [budBurst, hbud, budBurst]
    refine rdNat_congr (fun i hi => ?_)
    rw [hregs.eq, hmem _ ?_]
    rw [budAt_add, Nat.add_assoc, Nat.add_assoc]
    exact hring _ (by omega)
  refine ⟨?_, ?_, fun k hk => (hbal k hk).trans (hburst k hk), ?_, ?_, ?_⟩
  · rw [reg_fnc_of_cellsSame hn (by decide) hfill.cells (hmcn _),
      reg_fnc_of_cellsSame hn (by decide) hocells (add_notMem_map [Off.owner, Off.intStat] (by decide)), hcfg, hbit]
  · rw [regF, reg_fnc_of_cellsSame hn (by decide) hfill.cells (hmcn _), ← regF, howner]
  all_goals rw [hfill.frame, hregs.eq, hframe]

/-- ENABLE of a function beyond NumVFs stays 0 and is an error (R480). -/
theorem fncCfgWrite_beyondNumVfs (hn : n < 512) (hm : s.managed w (fncPg n) = true) (hv : bit v 31 = true)
    (hoff : bit (reg s (fncPg n + Off.fncCfg)) 31 = false) (hvf : numVfs s ≤ n) :
    let t := fncCfgWrite w n v s
    bit (reg t (fncPg n + Off.fncCfg)) 31 = false ∧
      reg t (fncPg n + Off.errCnt) = w32 (satAdd 32 (reg s (fncPg n + Off.errCnt)).toNat 1) := by
  have hadj : cfgAdj s n (reg s (fncPg n + Off.fncCfg)) (cfgAsked s n v) = some (setBit (cfgAsked s n v) 31 false) := by
    simp [cfgAdj, bit_cfgAsked, hv, hoff, hvf]
  have heq : fncCfgWrite w n v s = errInc (cfgWritten s w n (setBit (cfgAsked s n v) 31 false)) (fncPg n) := by
    rw [fncCfgWrite_some hn hm hadj]
    simp [hv, hoff]
  obtain ⟨hcfg, herr⟩ := cfgRefused_spec (s := s) (w := w) (setBit (cfgAsked s n v) 31 false) hn
  dsimp only
  rw [heq, hcfg]
  exact ⟨bit_setBit_self _ 31 false (by decide), herr⟩

/-- ENABLE of a function whose slots overlap another's is refused (R482). -/
theorem fncCfgWrite_overlap (hn : n < 512) (hm : s.managed w (fncPg n) = true) (hv : bit v 31 = true)
    (hoff : bit (reg s (fncPg n + Off.fncCfg)) 31 = false) (hvf : n < numVfs s)
    (hslots : slotsOverlap s n (reg s (fncPg n + Off.fncSlots)) = true) : fncCfgWrite w n v s = errInc s (fncPg n) :=
  fncCfgWrite_none hn hm (by simp [cfgAdj, bit_cfgAsked, hv, hoff, Nat.not_le.2 hvf, hslots])

/-- A function without requests is disabled and gives up its page (R480). -/
theorem fncCfgWrite_disables (hn : n < 512) (hm : s.managed w (fncPg n) = true) (hv : bit v 31 = false)
    (hon : bit (reg s (fncPg n + Off.fncCfg)) 31 = true) (hreq : activeOf s n = 0) :
    let t := fncCfgWrite w n v s
    bit (reg t (fncPg n + Off.fncCfg)) 31 = false ∧ regF t (fncPg n + Off.owner) 9 0 = 0x3FF ∧
      ledgerOnly s t 1 [fncPg n + Off.fncCfg, fncPg n + Off.owner, fncPg n + Off.intStat, fncPg n + Off.ledgerSeq] := by
  obtain ⟨hal, -, hhi⟩ := fncPg_bounds hn
  obtain ⟨x, hx⟩ : ∃ x, cfgAsked s n v = x := ⟨_, rfl⟩
  have hbit : bit x 31 = false := by rw [← hx, bit_cfgAsked, hv]
  have hadj : cfgAdj s n (reg s (fncPg n + Off.fncCfg)) (cfgAsked s n v) = some x := by
    simp [cfgAdj, hx, hbit, hreq]
  have heq : fncCfgWrite w n v s = ownerSet (cfgWritten s w n x) (fncPg n) 9 0 0x3FF := by
    rw [fncCfgWrite_some hn hm hadj]
    simp [hbit, hv, hon]
  obtain ⟨honly, hcfg⟩ := cfgWritten_spec s w x hn
  obtain ⟨hregs, hocells, howner⟩ := ownerSet_spec (cfgWritten s w n x) 0x3FF hal (by omega) (by decide)
  dsimp only
  rw [heq]
  refine ⟨?_, howner, honly.regs hregs (hocells.mono (by simp)) (by simp)⟩
  rw [reg_fnc_of_cellsSame hn (by decide) hocells (add_notMem_map [Off.owner, Off.intStat] (by decide)), hcfg, hbit]

/-- A function with requests stays enabled, and the write is an error (R480). -/
theorem fncCfgWrite_busy (hn : n < 512) (hm : s.managed w (fncPg n) = true) (hv : bit v 31 = false)
    (hon : bit (reg s (fncPg n + Off.fncCfg)) 31 = true) (hreq : activeOf s n ≠ 0) :
    let t := fncCfgWrite w n v s
    bit (reg t (fncPg n + Off.fncCfg)) 31 = true ∧
      reg t (fncPg n + Off.errCnt) = w32 (satAdd 32 (reg s (fncPg n + Off.errCnt)).toNat 1) := by
  have hadj : cfgAdj s n (reg s (fncPg n + Off.fncCfg)) (cfgAsked s n v) = some (setBit (cfgAsked s n v) 31 true) := by
    simp [cfgAdj, bit_cfgAsked, hv, hon, hreq]
  have heq : fncCfgWrite w n v s = errInc (cfgWritten s w n (setBit (cfgAsked s n v) 31 true)) (fncPg n) := by
    rw [fncCfgWrite_some hn hm hadj]
    simp [hv, hon]
  obtain ⟨hcfg, herr⟩ := cfgRefused_spec (s := s) (w := w) (setBit (cfgAsked s n v) 31 true) hn
  dsimp only
  rw [heq, hcfg]
  exact ⟨bit_setBit_self _ 31 true (by decide), herr⟩

end

end Sys2Proof.Machine
end

section
/-! Function-level reset (R501), the apertures (R477, R478, R483, R484), and obligation O43. -/

namespace Sys2Proof.Machine

/-! ### Function-level reset (R501) -/

/-- The registers of a function that FLR returns to reset, beside CMDQ_CONS, which the command ring's own reset returns. -/
def flrRegs : List Nat :=
  [Off.fncSeedLo, Off.fncSeedHi, Off.fncCmdqBaseLo, Off.fncCmdqBaseHi, Off.fncHringBaseLo, Off.fncHringBaseHi, Off.fncRings,
   Off.fncHringProd, Off.fncHringCons]

/-- Registers of a page at reset, one after the other. -/
def resetRegs (p : Nat) (l : List Nat) (s : State) : State := l.foldl (fun s o => setReg s (p + o) (resetOf (p + o))) s

theorem resetRegs_cons (p k : Nat) (l : List Nat) (s : State) :
    resetRegs p (k :: l) s = resetRegs p l (setReg s (p + k) (resetOf (p + k))) := rfl

/-- Of a function's registers those named read 0, and nothing else changes. -/
theorem resetRegs_spec {n : Nat} (hn : n < 512) (l : List Nat) (hl : ∀ o ∈ l, 0x28 ≤ o ∧ o < 4096) (s : State) :
    let t := resetRegs (fncPg n) l s
    RegsOnly s t ∧ cellsSame s t (l.map (fncPg n + ·)) ∧ ∀ o ∈ l, reg t (fncPg n + o) = 0 := by
  induction l generalizing s with
  | nil => exact ⟨RegsOnly.refl s, cellsSame.refl s _, fun o ho => absurd ho (by simp)⟩
  | cons k l ih =>
    obtain ⟨⟨hklo, hk⟩, hl'⟩ := List.forall_mem_cons.1 hl
    obtain ⟨hframe, hcells, hzero⟩ := ih hl' (setReg s (fncPg n + k) (resetOf (fncPg n + k)))
    rw [resetRegs_cons]
    refine ⟨(regsOnly_setReg ..).trans hframe, ?_, fun o ho => ?_⟩
    · exact (cellsSame_put s _ (idxAddr_fnc hn hk) (by simp)).trans (hcells.mono (by simp))
    · by_cases hmem : o ∈ l
      · exact hzero o hmem
      · obtain rfl : o = k := (List.mem_cons.1 ho).resolve_right hmem
        refine (reg_fnc_of_cellsSame hn hk hcells (by simpa using hmem)).trans ?_
        rw [reg_fnc_setReg_self _ _ hn hk, resetOf_fnc hn hklo hk]

theorem setReg_regs_congr {s t : State} (a : Nat) (v : W32) (h : s.regs = t.regs) : (setReg s a v).regs = (setReg t a v).regs := by
  simp only [setReg, regKey, h]

/-- Of the registers, the command ring starting again changes CMDQ_CONS. -/
theorem cqReset_regs (s : State) (n : Nat) : (cqReset s n).regs = (setReg s (fncPg n + Off.fncCmdqCons) 0).regs := by
  have hdrop : (dropFetched s n).regs = s.regs := by rw [dropFetched]
  rw [cqReset, ← setReg_regs_congr _ _ hdrop]

/-- What FLR does where none is pending. -/
theorem flrBegin_of_idle (s : State) (n : Nat) (h : bit (reg s (fncPg n + Off.fncStat)) 31 = false) :
    flrBegin s n =
      let u := resetRegs (fncPg n) flrRegs (cqReset (setRegF s (fncPg n + Off.fncStat) 31 31 1) n)
      { u with
        hrWait := delS u.hrWait n,
        reqs := u.reqs.map (fun e => if e.2.func = n ∧ e.2.st ≠ stFree then (e.1, { e.2 with mute := true }) else e) } := by
  rw [flrBegin, h]
  rfl

/-- The registers after FLR: PEND set, the reset ones 0, every other one as it was. -/
theorem flrBegin_regs (s : State) {n : Nat} (hn : n < 512) (h : bit (reg s (fncPg n + Off.fncStat)) 31 = false) :
    let t := flrBegin s n
    bit (reg t (fncPg n + Off.fncStat)) 31 = true ∧ (∀ o ∈ Off.fncCmdqCons :: flrRegs, reg t (fncPg n + o) = 0) ∧
      reg t (fncPg n + Off.fncCfg) = reg s (fncPg n + Off.fncCfg) := by
  have hflr : ∀ o ∈ flrRegs, 0x28 ≤ o ∧ o < 4096 := by decide
  obtain ⟨-, hcells, hzero⟩ := resetRegs_spec hn flrRegs hflr (cqReset (setRegF s (fncPg n + Off.fncStat) 31 31 1) n)
  have hreset : (flrBegin s n).regs = (resetRegs (fncPg n) flrRegs (cqReset (setRegF s (fncPg n + Off.fncStat) 31 31 1) n)).regs := by
    rw [flrBegin_of_idle s n h]
  have hkeep {o : Nat} (ho : o < 4096) (hnot : o ∉ flrRegs) : reg (flrBegin s n) (fncPg n + o) =
      reg (setReg (setRegF s (fncPg n + Off.fncStat) 31 31 1) (fncPg n + Off.fncCmdqCons) 0) (fncPg n + o) := by
    rw [reg_congr _ _ _ hreset, reg_fnc_of_cellsSame hn ho hcells (by simpa using hnot), reg_congr _ _ _ (cqReset_regs _ n)]
  have hother {o : Nat} (u : State) (c : Nat) (x : W32) (ho : o < 4096) (hc : c < 4096) (hne : o ≠ c) :
      reg (setReg u (fncPg n + c) x) (fncPg n + o) = reg u (fncPg n + o) :=
    reg_fnc_of_cellsSame hn ho (cellsSame_put u x (idxAddr_fnc hn hc) (List.mem_singleton_self _)) (by simpa using hne)
  refine ⟨?_, List.forall_mem_cons.2 ⟨?_, fun o ho => ?_⟩, ?_⟩
  · rw [hkeep (by decide) (by decide), hother _ _ _ (by decide) (by decide) (by decide), setRegF,
      reg_fnc_setReg_self _ _ hn (by decide)]
    exact bit_setBit_self _ 31 true (by decide)
  · rw [hkeep (by decide) (by decide), reg_fnc_setReg_self _ _ hn (by decide)]
  · rw [reg_congr _ _ _ hreset, hzero o ho]
  · rw [hkeep (by decide) (by decide), hother _ _ _ (by decide) (by decide) (by decide), setRegF,
      hother _ _ _ (by decide) (by decide) (by decide)]

/-- FLR leaves the tiers, host memory and partitions alone, drops what the rings hold, and silences the function's requests. -/
theorem flrBegin_frame (s : State) {n : Nat} (hn : n < 512) (h : bit (reg s (fncPg n + Off.fncStat)) 31 = false) :
    let t := flrBegin s n
    t.mem = s.mem ∧ t.parts = s.parts ∧ t.host = s.host ∧ t.hrWait = delS s.hrWait n ∧ t.cqOrder = s.cqOrder.filter (· ≠ n) ∧
      t.hub = (dropFetched s n).hub ∧
      t.reqs = s.reqs.map (fun e => if e.2.func = n ∧ e.2.st ≠ stFree then (e.1, { e.2 with mute := true }) else e) := by
  have hflr : ∀ o ∈ flrRegs, 0x28 ≤ o ∧ o < 4096 := by decide
  obtain ⟨hframe, -, -⟩ := resetRegs_spec hn flrRegs hflr (cqReset (setRegF s (fncPg n + Off.fncStat) 31 31 1) n)
  rw [flrBegin_of_idle s n h]
  generalize resetRegs (fncPg n) flrRegs (cqReset (setRegF s (fncPg n + Off.fncStat) 31 31 1) n) = u at hframe
  obtain ⟨r, i, rfl⟩ := hframe
  simp only [cqReset, dropFetched, setRegF, setReg_mem, setReg_parts, setReg_host, setReg_hrWait, setReg_cqOrder, setReg_hub, setReg_reqs,
    and_self]

/-- FLR of a function of which none is pending: PEND, the rings, SEED and the requests (R501). -/
theorem flrBegin_spec (s : State) {n : Nat} (hn : n < 512) (h : bit (reg s (fncPg n + Off.fncStat)) 31 = false) :
    let t := flrBegin s n
    bit (reg t (fncPg n + Off.fncStat)) 31 = true ∧
      (∀ o ∈ [Off.fncSeedLo, Off.fncCmdqBaseLo, Off.fncHringBaseLo], pair t (fncPg n + o) = 0) ∧
      (∀ o ∈ [Off.fncRings, Off.fncCmdqCons, Off.fncHringProd, Off.fncHringCons], reg t (fncPg n + o) = 0) ∧
      getD t.hrWait n [] = [] ∧ n ∉ t.cqOrder ∧ dbOn t n = false ∧ t.mem = s.mem ∧ t.parts = s.parts ∧ t.host = s.host ∧
      reg t (fncPg n + Off.fncCfg) = reg s (fncPg n + Off.fncCfg) ∧
      t.hub = s.hub.filter (fun i => match i with | .cmd f _ _ => decide (f ≠ n) | _ => true) ∧
      t.reqs = s.reqs.map (fun e => if e.2.func = n ∧ e.2.st ≠ stFree then (e.1, { e.2 with mute := true }) else e) := by
  obtain ⟨hpend, hzero, hcfg⟩ := flrBegin_regs s hn h
  obtain ⟨hmem, hparts, hhost, hwait, horder, hhub, hreqs⟩ := flrBegin_frame s hn h
  have hpairs : ∀ o ∈ [Off.fncSeedLo, Off.fncCmdqBaseLo, Off.fncHringBaseLo],
      o ∈ Off.fncCmdqCons :: flrRegs ∧ o + 4 ∈ Off.fncCmdqCons :: flrRegs := by decide
  have hcounts : ∀ o ∈ [Off.fncRings, Off.fncCmdqCons, Off.fncHringProd, Off.fncHringCons], o ∈ Off.fncCmdqCons :: flrRegs := by decide
  refine ⟨hpend, fun o ho => ?_, fun o ho => hzero o (hcounts o ho), by simp [hwait, getD], by simp [horder], ?_, hmem, hparts, hhost,
    hcfg, hhub, hreqs⟩
  · rw [pair, hzero o (hpairs o ho).1, Nat.add_assoc, hzero (o + 4) (hpairs o ho).2]
    rfl
  · simp [dbOn, hpend, show n ≠ 0x200 by omega]

theorem flrBegin_of_pending (s : State) (n : Nat) (h : bit (reg s (fncPg n + Off.fncStat)) 31 = true) : flrBegin s n = s := by
  rw [flrBegin, h]
  rfl

/-- FLR_COMPLETE clears PEND and sets the page's INT_STAT bit 0. -/
theorem flrEnd_spec (s : State) {n : Nat} (hn : n < 512) (h : bit (reg s (fncPg n + Off.fncStat)) 31 = true) :
    let t := flrEnd s n
    bit (reg t (fncPg n + Off.fncStat)) 31 = false ∧ bit (reg t (fncPg n + Off.intStat)) 0 = true ∧
      t = { s with regs := t.regs, irqs := t.irqs } ∧ cellsSame s t [fncPg n + Off.fncStat, fncPg n + Off.intStat] := by
  obtain ⟨hal, -, hhi⟩ := fncPg_bounds hn
  have heq : flrEnd s n = intBit (setRegF s (fncPg n + Off.fncStat) 31 31 0) (fncPg n) 0 := by
    rw [flrEnd, h]
    rfl
  dsimp only
  rw [heq]
  refine ⟨?_, bit_intBit_self _ (by omega) (by decide), ((regsOnly_setRegF ..).trans (regsOnly_intBit ..)).eq,
    (cellsSame_put s _ (idxAddr_fnc hn (by decide)) (by simp)).trans (cellsSame_intBit _ 0 hal (by simp))⟩
  rw [reg_fnc_of_cellsSame hn (by decide) (cellsSame_intBit _ 0 hal (List.mem_singleton_self _))
      (add_notMem_map [Off.intStat] (by decide)), setRegF,
    reg_fnc_setReg_self _ _ hn (by decide)]
  exact bit_setBit_self _ 31 false (by decide)

theorem exec_flr (s : State) {n : Nat} (hn : n < 512) : exec (.flr n) s = .next (flrBegin s n) :=
  checked_of_wf (.flr n) _ (decide_eq_true hn)

theorem exec_flrComplete (s : State) {n : Nat} (hn : n < 512) : exec (.flrComplete n) s = .next (flrEnd s n) :=
  checked_of_wf (.flrComplete n) _ (decide_eq_true hn)

/-! ### The host's accesses to the tiers (R372, R478) -/

/-- The `m` bytes from module offset `b` on lie in one tier, on no poisoned line. -/
def cleanSpan (s : State) (b m : Nat) : Prop :=
  (b + m ≤ nearEnd ∨ (farBase ≤ b ∧ b + m ≤ farEnd)) ∧ ∀ i < m, poisoned s (b + i) 1 = none

theorem all_assignedOff_iff (a m : Nat) : (List.range m).all (fun i => assignedOff (a + i)) = true ↔ ∀ i < m, assignedOff (a + i) = true := by
  simp [List.all_eq_true]

theorem cleanSpan.all_assigned {s : State} {b m : Nat} (h : cleanSpan s b m) :
    (List.range m).all (fun i => assignedOff (b + i)) = true := by
  refine (all_assignedOff_iff b m).2 (fun i hi => ?_)
  have htier := h.1
  simp only [assignedOff, Bool.or_eq_true, Bool.and_eq_true, decide_eq_true_eq]
  omega

/-- A nonempty span without an assigned offset is not one of assigned offsets. -/
theorem not_all_assignedOff {a m : Nat} (hm : 0 < m) (h : ∀ i < m, assignedOff (a + i) = false) :
    ¬ (List.range m).all (fun i => assignedOff (a + i)) = true := fun hall => by
  have hfirst := (all_assignedOff_iff a m).1 hall 0 hm
  exact Bool.false_ne_true ((h 0 hm).symm.trans hfirst)

/-- A read of a clean span returns the tiers' bytes. -/
theorem aperRead_clean {s : State} {a m : Nat} (h : cleanSpan s a m) :
    let t := aperRead s a m
    t.resp = rdBytes s.mem a m ∧ t = { s with resp := t.resp, freeCtr := t.freeCtr } := by
  refine ⟨?_, rfl⟩
  rw [aperRead, rdBytes_eq_map]
  refine List.map_congr_left (fun i hi => ?_)
  have hi' := List.mem_range.1 hi
  simp [aperByte, (all_assignedOff_iff a m).1 h.all_assigned i hi', h.2 i hi']

/-- A read of unassigned offsets returns zeros. -/
theorem aperRead_outside (s : State) (a m : Nat) (ha : ∀ i < m, assignedOff (a + i) = false) :
    (aperRead s a m).resp = List.replicate m 0 := by
  refine List.eq_replicate_iff.2 ⟨by simp [aperRead], fun b hb => ?_⟩
  obtain ⟨i, hi, rfl⟩ := List.mem_map.1 hb
  simp [aperByte, ha i (List.mem_range.1 hi)]

/-- A write of a clean span puts its bytes at their place; beside them only poison marks and the counts of bytes written change. -/
theorem aperWrite_clean {s : State} {a : Nat} {bs : List Byte} (h : cleanSpan s a bs.length) :
    let t := aperWrite s a bs
    t = { s with mem := t.mem, poison := t.poison, regs := t.regs } ∧ cellsKept s t 128 [] ∧
      ∀ x, rdB t.mem x = if a ≤ x ∧ x < a + bs.length then bs.getD (x - a) 0 else rdB s.mem x := by
  have honly := tiersOnly_memWrite s a bs
  rw [aperWrite, if_pos h.all_assigned]
  exact ⟨honly.frame, honly.cellsKept, fun x => by rw [memWrite_mem, rdB_wrBytes]⟩

/-- A fold whose every step leaves `s` leaves `s`. -/
theorem foldl_fixed_of_mem {α β : Type} (f : α → β → α) (s : α) (l : List β) (h : ∀ x ∈ l, f s x = s) : l.foldl f s = s := by
  induction l with
  | nil => rfl
  | cons x l ih =>
    obtain ⟨hx, hl⟩ := List.forall_mem_cons.1 h
    rw [List.foldl_cons, hx, ih hl]

/-- A write of unassigned offsets is discarded. -/
theorem aperWrite_outside (s : State) (a : Nat) (bs : List Byte) (hlen : 0 < bs.length)
    (ha : ∀ i < bs.length, assignedOff (a + i) = false) : aperWrite s a bs = s := by
  rw [aperWrite, if_neg (not_all_assignedOff hlen ha)]
  refine foldl_fixed_of_mem _ _ _ (fun x hx => ?_)
  have hx' : x.1 < bs.length := List.mem_range.1 (List.of_mem_zip (show (x.1, x.2) ∈ _ from hx)).1
  rw [ha x.1 hx']
  rfl

/-! ### BAR4 (R478) -/

theorem exec_apertureAccess (s : State) {off len : Nat} {data : List Byte} (write : Bool) (ho : off < 68719476736)
    (hl : len ≤ 4096) (hd : data.length ≤ 4096) :
    exec (.apertureAccess off write len data) s = .next (pfAccess off write len data s) :=
  checked_of_wf (.apertureAccess off write len data) _
    (show (decide (off < 68719476736) && decide (len ≤ 4096) && decide (data.length ≤ 4096)) = true by simp [ho, hl, hd])

/-- The module offset that BAR4 reaches. -/
def pfOff (s : State) (off : Nat) : Nat := regF s (pPci + Off.pciAperBase) 13 0 * 2 ^ 36 + off

section
variable {s : State} {off len : Nat} {data : List Byte}

theorem pfAccess_read_clean (h : cleanSpan s (pfOff s off) len) : pfAccess off false len data s = aperRead s (pfOff s off) len := by
  have hall := h.all_assigned
  unfold pfOff at hall ⊢
  simp only [pfAccess, Bool.false_eq_true, if_false, if_pos hall]

theorem pfAccess_write_clean (h : cleanSpan s (pfOff s off) data.length) :
    pfAccess off true len data s = aperWrite s (pfOff s off) data := by
  have hall := h.all_assigned
  unfold pfOff at hall ⊢
  simp only [pfAccess, if_true, if_pos hall]

theorem pfAccess_read_outside (hlen : 0 < len) (h : ∀ i < len, assignedOff (pfOff s off + i) = false) :
    pfAccess off false len data s = aperRead (bump s (pPci + Off.pciAperErr) 1) (pfOff s off) len := by
  have hall := not_all_assignedOff hlen h
  unfold pfOff at hall ⊢
  simp only [pfAccess, Bool.false_eq_true, if_false, if_neg hall]

theorem pfAccess_write_outside (hlen : 0 < data.length) (h : ∀ i < data.length, assignedOff (pfOff s off + i) = false) :
    pfAccess off true len data s = bump s (pPci + Off.pciAperErr) 1 := by
  have hall := not_all_assignedOff hlen h
  rw [← aperWrite_outside (bump s (pPci + Off.pciAperErr) 1) _ data hlen h]
  unfold pfOff at hall ⊢
  simp only [pfAccess, if_true, if_neg hall]

end

/-! ### BAR2 (R483, R484) -/

theorem exec_vfApertureAccess (s : State) {n off len : Nat} {data : List Byte} (write : Bool) (hn : n < 512)
    (ho : off < 17179869184) (hl : len ≤ 4096) (hd : data.length ≤ 4096) :
    exec (.vfApertureAccess n off write len data) s = .next (vfAccess n off write len data s) :=
  checked_of_wf (.vfApertureAccess n off write len data) _
    (show (decide (n < 512) && decide (off < 17179869184) && decide (len ≤ 4096) && decide (data.length ≤ 4096)) = true by
      simp [hn, ho, hl, hd])

/-- The entry of the allocation table that an offset in BAR2 names. -/
def vfEntry (s : State) (n off : Nat) : Nat × Nat × Nat := allocEntry s n (off / 0x10000000)

/-- The module offset that BAR2 reaches. -/
def vfOff (s : State) (n off : Nat) : Nat := gOff (vfEntry s n off).1 + off % 0x10000000

section
variable {s : State} {n off len : Nat} {data : List Byte}

theorem vfAccess_read (hvalid : (vfEntry s n off).2.2 % 2 = 1) (hfit : off % 0x10000000 + len ≤ (vfEntry s n off).2.1) :
    vfAccess n off false len data s = aperRead s (vfOff s n off) len := by
  unfold vfEntry at hvalid hfit
  rw [vfAccess, if_neg (by simp only [Bool.false_eq_true, if_false, false_and, or_false]; omega)]
  rfl

theorem vfAccess_write (hflags : (vfEntry s n off).2.2 % 4 = 3) (hfit : off % 0x10000000 + data.length ≤ (vfEntry s n off).2.1) :
    vfAccess n off true len data s = aperWrite s (vfOff s n off) data := by
  unfold vfEntry at hflags hfit
  rw [vfAccess, if_neg (by simp only [if_true, true_and]; omega)]
  rfl

theorem vfAccess_read_refused (h : (vfEntry s n off).2.2 % 2 = 0 ∨ (vfEntry s n off).2.1 < off % 0x10000000 + len) :
    vfAccess n off false len data s = { bump s (fncPg n + Off.fncAperErr) 1 with resp := List.replicate len 0 } := by
  unfold vfEntry at h
  rw [vfAccess, if_pos (by simpa only [Bool.false_eq_true, if_false, false_and, or_false] using h)]
  rfl

theorem vfAccess_write_refused (h : (vfEntry s n off).2.2 % 4 ≠ 3 ∨ (vfEntry s n off).2.1 < off % 0x10000000 + data.length) :
    vfAccess n off true len data s = bump s (fncPg n + Off.fncAperErr) 1 := by
  unfold vfEntry at h
  rw [vfAccess, if_pos (by simp only [if_true, true_and]; omega)]
  rfl

end

/-! ### Refused accesses are counted -/

/-- What a counted refusal changes: its counter. -/
theorem bump_refused (s : State) {a : Nat} (hi : idxAddr a = none) (ha : a < 0x20000000) :
    let t := bump s a 1
    reg t a = w32 (satAdd 32 (reg s a).toNat 1) ∧ t = { s with regs := t.regs, resp := t.resp } ∧ cellsSame s t [a] :=
  ⟨reg_bump_self s a 1 ha, rfl, cellsSame_bump s 1 hi⟩

/-- The same, of a read, which returns the bytes `r`. -/
theorem bump_refused_read (s : State) {a : Nat} (r : List Byte) (hi : idxAddr a = none) (ha : a < 0x20000000) :
    let t : State := { bump s a 1 with resp := r }
    reg t a = w32 (satAdd 32 (reg s a).toNat 1) ∧ t = { s with regs := t.regs, resp := t.resp } ∧ cellsSame s t [a] := by
  obtain ⟨hcount, -, hcells⟩ := bump_refused s hi ha
  refine ⟨hcount, ?_, hcells⟩
  obtain ⟨x, hx⟩ : ∃ x, bump s a 1 = { s with regs := x } := ⟨_, rfl⟩
  rw [hx]

/-- Settles O43: each command is its function of the model, and what that function does is said above case by case: CFG writes
by `fncCfgWrite_some` and `fncCfgWrite_none`, FLR by `flrBegin_spec` and `flrEnd_spec`, the apertures by what of a span is assigned
and what of an allocation is admitted. -/
theorem functionsResetsAndApertures : Obligations.FunctionsResetsAndApertures := by
  unfold Obligations.FunctionsResetsAndApertures
  intro s w v n off len data c managed on err pend a inside outside wrote entry o b small pf vf refused
  have hpci : idxAddr (pPci + Off.pciAperErr) = none := by decide
  have hpci' : pPci + Off.pciAperErr < 0x20000000 := by decide
  have hfnc (hn : n < 512) : idxAddr (c + Off.fncAperErr) = none ∧ c + Off.fncAperErr < 0x20000000 :=
    ⟨idxAddr_fnc hn (by decide), by have := (fncPg_bounds hn).2.2; show fncPg n + 0x148 < _; omega⟩
  refine ⟨?enable, ?beyondNumVfs, ?overlap, ?disable, ?busy, ?flr, ?flrPending, ?flrComplete, ?pfRead, ?pfWrite, ?pfReadOutside,
    ?pfWriteOutside, ?vfRead, ?vfWrite, ?vfReadRefused, ?vfWriteRefused⟩
  case enable =>
    exact fun ⟨hn, hm⟩ hv hoff hvf hslots hring =>
      ⟨_, exec_functionEnable hn hm, fncCfgWrite_enables hn hm hv hoff hvf hslots hring⟩
  case beyondNumVfs => exact fun ⟨hn, hm⟩ hv hoff hvf => ⟨_, exec_functionEnable hn hm, fncCfgWrite_beyondNumVfs hn hm hv hoff hvf⟩
  case overlap =>
    intro ⟨hn, hm⟩ hv hoff hvf hslots
    rw [exec_functionEnable hn hm, fncCfgWrite_overlap hn hm hv hoff hvf hslots]
  case disable => exact fun ⟨hn, hm⟩ hv hon hreq => ⟨_, exec_functionDisable hn hm, fncCfgWrite_disables hn hm hv hon hreq⟩
  case busy => exact fun ⟨hn, hm⟩ hv hon hreq => ⟨_, exec_functionDisable hn hm, fncCfgWrite_busy hn hm hv hon hreq⟩
  case flr => exact fun hn hidle => ⟨_, exec_flr s hn, flrBegin_spec s hn hidle⟩
  case flrPending => exact fun hn hpend => by rw [exec_flr s hn, flrBegin_of_pending s n hpend]
  case flrComplete => exact fun hn hpend => ⟨_, exec_flrComplete s hn, flrEnd_spec s hn hpend⟩
  case pfRead =>
    intro ⟨ho, hl, hd, _⟩ hin
    exact ⟨_, exec_apertureAccess s false ho hl hd, pfAccess_read_clean (s := s) hin ▸ aperRead_clean hin⟩
  case pfWrite =>
    intro ⟨ho, hl, hd, _⟩ hin
    exact ⟨_, exec_apertureAccess s true ho hl hd, pfAccess_write_clean (s := s) hin ▸ aperWrite_clean hin⟩
  case pfReadOutside =>
    intro ⟨ho, hl, hd, hpos, _⟩ hout
    refine ⟨_, exec_apertureAccess s false ho hl hd, ?_⟩
    rw [pfAccess_read_outside hpos hout]
    exact ⟨aperRead_outside _ _ len hout, reg_bump_self s _ 1 hpci', by simp only [aperRead, bump, setReg_mem]⟩
  case pfWriteOutside =>
    intro ⟨ho, hl, hd, _, hpos⟩ hout
    exact ⟨_, exec_apertureAccess s true ho hl hd, pfAccess_write_outside (s := s) hpos hout ▸ bump_refused s hpci hpci'⟩
  case vfRead =>
    intro ⟨hn, ho, hl, hd, _⟩ hvalid hfit hin
    exact ⟨_, exec_vfApertureAccess s false hn ho hl hd, vfAccess_read (s := s) hvalid hfit ▸ aperRead_clean hin⟩
  case vfWrite =>
    intro ⟨hn, ho, hl, hd, _⟩ hflags hfit hin
    exact ⟨_, exec_vfApertureAccess s true hn ho hl hd, vfAccess_write (s := s) hflags hfit ▸ aperWrite_clean hin⟩
  case vfReadRefused =>
    intro ⟨hn, ho, hl, hd, _⟩ hbad
    refine ⟨_, exec_vfApertureAccess s false hn ho hl hd, ?_⟩
    rw [vfAccess_read_refused hbad]
    exact ⟨bump_refused_read s _ (hfnc hn).1 (hfnc hn).2, rfl⟩
  case vfWriteRefused =>
    intro ⟨hn, ho, hl, hd, _⟩ hbad
    refine ⟨_, exec_vfApertureAccess s true hn ho hl hd, ?_⟩
    rw [vfAccess_write_refused hbad]
    exact ⟨bump_refused s (hfnc hn).1 (hfnc hn).2, rfl⟩

end Sys2Proof.Machine
end

section
/-! Black-box records, seals and the loft checkpoint as a HALT writes them: what they leave of the halt's own state (R80, R578 to R583). -/

namespace Sys2Proof.Machine

/-! ### What is kept -/

/-- From `s` to `t` the partitions and what the halt holds of its checkpoint, records and clear are kept, and of the stored registers
only those at the places `l` changed. -/
structure HaltKept (s t : State) (l : List Nat) : Prop where
  parts : t.parts = s.parts
  records : t.hltRec = s.hltRec
  saved : t.hltSaved = s.hltSaved
  clr : t.hltClr = s.hltClr
  cells : cellsSame s t l

theorem HaltKept.refl (s : State) (l : List Nat) : HaltKept s s l := ⟨rfl, rfl, rfl, rfl, cellsSame.refl s l⟩

theorem HaltKept.trans {s t u : State} {l : List Nat} (h : HaltKept s t l) (k : HaltKept t u l) : HaltKept s u l :=
  ⟨k.parts.trans h.parts, k.records.trans h.records, k.saved.trans h.saved, k.clr.trans h.clr, h.cells.trans k.cells⟩

theorem HaltKept.mono {s t : State} {l m : List Nat} (h : HaltKept s t l) (k : l ⊆ m) : HaltKept s t m :=
  ⟨h.parts, h.records, h.saved, h.clr, h.cells.mono k⟩

theorem RegsOnly.haltKept {s t : State} {l : List Nat} (h : RegsOnly s t) (c : cellsSame s t l) : HaltKept s t l := by
  obtain ⟨r, i, rfl⟩ := h
  exact ⟨rfl, rfl, rfl, rfl, c⟩

/-- A loop whose every pass keeps the halt's state keeps it. -/
theorem haltKept_foldl {α : Type} {f : State → α → State} {l : List Nat} (hf : ∀ s a, HaltKept s (f s a) l) (as : List α) (s : State) :
    HaltKept s (as.foldl f s) l :=
  List.foldlRecOn (motive := fun t => HaltKept s t l) as f (HaltKept.refl s l) (fun t h a _ => h.trans (hf t a))

/-! ### Black-box records (R580 to R585) -/

theorem pair_lt (s : State) (a : Nat) : pair s a < 2 ^ 64 := by
  have hlo := (reg s a).isLt
  have hhi := (reg s (a + 4)).isLt
  unfold pair
  omega

/-- What a register pair of one place holds after it is written. -/
theorem pair_setPair_self (s : State) {a : Nat} (v : Nat) (ha : a + 4 < 0x20000000) (hi : idxAddr a = none) :
    pair (setPair s a v) a = v % 2 ^ 64 := by
  have hlo : reg (setPair s a v) a = w32 v := by
    rw [setPair, reg_setReg_of_ne _ _ _ _ (by omega) ha (by omega) (by simp [hi]), reg_setReg_self _ _ _ (by omega)]
  have hhi : reg (setPair s a v) (a + 4) = w32 (v >>> 32) := reg_setReg_self _ _ _ ha
  simp only [pair, hlo, hhi, w32, BitVec.toNat_ofNat, Nat.shiftRight_eq_div_pow]
  omega

/-- The registers of the BBR page that a record changes. -/
def bbrHeadCells : List Nat := [pBbr + Off.bbrHeadLo, pBbr + Off.bbrHeadHi, pBbr + Off.bbrLost, pBbr + Off.intStat]

theorem bbrHead_noIndex : idxAddr (pBbr + Off.bbrHeadLo) = none ∧ idxAddr (pBbr + Off.bbrHeadLo + 4) = none := by decide

theorem cellsSame_intBit_bbr (s : State) (i : Nat) : cellsSame s (intBit s pBbr i) [pBbr + Off.bbrLost, pBbr + Off.intStat] :=
  cellsSame_intBit s i (by decide) (by decide)

/-- A record that overwrites an unmirrored one is counted and raises the page's interrupt. -/
theorem cellsSame_bbrLost (s : State) (lost : Bool) :
    cellsSame s (if lost = true then intBit (bump s (pBbr + Off.bbrLost) 1) pBbr 1 else s) [pBbr + Off.bbrLost, pBbr + Off.intStat] :=
  cellsSame.ite (((cellsSame_bump s 1 (by decide)).mono (by simp)).trans (cellsSame_intBit_bbr _ 1)) (cellsSame.refl s _)

/-- The registers after a record: those of the BBR page's head with the next sequence number, of the rest its count and interrupt. -/
theorem bbrRaw_cells (s : State) (b : Bb) (d : List Byte) :
    cellsSame (setPair s (pBbr + Off.bbrHeadLo) ((pair s (pBbr + Off.bbrHeadLo) + 1) % 2 ^ 64)) (bbrRaw s b d)
      [pBbr + Off.bbrLost, pBbr + Off.intStat] := by
  have hmram (m : Memory) (a v : Nat) (l : List Nat) : cellsSame (setPair s a v) (setPair { s with mram := m } a v) l :=
    (cellsSame.refl _ _).of_regs rfl
  unfold bbrRaw
  exact ((hmram _ _ _ _).trans (cellsSame_intBit_bbr _ 0)).trans (cellsSame_bbrLost _ _)

/-- A record keeps the halt's state. -/
theorem bbrRaw_haltKept (s : State) (b : Bb) (d : List Byte) : HaltKept s (bbrRaw s b d) bbrHeadCells := by
  have hcells := bbrRaw_cells s b d
  obtain ⟨m, ⟨r, i, he⟩, -⟩ := bbrRaw_only s b d
  rw [he] at hcells ⊢
  refine ⟨rfl, rfl, rfl, rfl, cellsSame.trans ?_ (hcells.mono (by simp [bbrHeadCells]))⟩
  obtain ⟨hlo, hhi⟩ := bbrHead_noIndex
  exact (cellsSame_put s _ hlo (by decide)).trans (cellsSame_put _ _ hhi (by decide))

theorem pair_bbrRaw (s : State) (b : Bb) (d : List Byte) :
    pair (bbrRaw s b d) (pBbr + Off.bbrHeadLo) = (pair s (pBbr + Off.bbrHeadLo) + 1) % 2 ^ 64 := by
  obtain ⟨hlo, hhi⟩ := bbrHead_noIndex
  rw [pair_of_noIndex hlo hhi (bbrRaw_cells s b d) (by decide) (by decide), pair_setPair_self _ _ (by decide) hlo, Nat.mod_mod]

/-- The CPER record of a black-box record moves the head of its ring. -/
theorem cperAdd_haltKept (s : State) (b : Bb) (n : Nat) :
    HaltKept s (cperAdd s b n) [pRas + Off.rasCperHead, pRas + Off.intStat] := by
  have hput (m : Memory) (v : W32) : cellsSame s (intBit (setReg { s with mem := m } (pRas + Off.rasCperHead) v) pRas 4)
      [pRas + Off.rasCperHead, pRas + Off.intStat] :=
    (cellsSame_put { s with mem := m } v (by decide) (by decide)).trans (cellsSame_intBit _ 4 (by decide) (by decide))
  have hcells : cellsSame s (cperAdd s b n) [pRas + Off.rasCperHead, pRas + Off.intStat] := by
    unfold cperAdd
    exact cellsSame.ite (cellsSame.refl s _) (hput _ _)
  rcases cperAdd_only s b n with ⟨r, i, he⟩ | ⟨bs, r, i, he⟩ <;> rw [he] at hcells ⊢ <;> exact ⟨rfl, rfl, rfl, rfl, hcells⟩

/-- A record with fields keeps the halt's state. -/
theorem bbr_haltKept (s : State) (b : Bb) : HaltKept s (bbr s b) bbrCells :=
  ((bbrRaw_haltKept s b _).mono (by decide)).trans ((cperAdd_haltKept _ b _).mono (by decide))

theorem pair_bbr (s : State) (b : Bb) :
    pair (bbr s b) (pBbr + Off.bbrHeadLo) = (pair s (pBbr + Off.bbrHeadLo) + 1) % 2 ^ 64 := by
  obtain ⟨hlo, hhi⟩ := bbrHead_noIndex
  rw [bbr, pair_of_noIndex hlo hhi (cperAdd_haltKept _ b _).cells (by decide) (by decide), pair_bbrRaw]

/-! ### Seals (R80, R583) -/

/-- The registers that a seal changes: those of its records and the interrupt of the LDG page. -/
def sealCells : List Nat := (pLdg + Off.intStat) :: bbrHeadCells

theorem bbrSeal_haltKept (s : State) (code a b : Nat) (chain : List Byte) : HaltKept s (bbrSeal s code a b chain) sealCells := by
  have hrec (t : State) (x : Bb) (d : List Byte) : HaltKept t (bbrData t x d) sealCells :=
    (bbrRaw_haltKept t x _).mono (List.subset_cons_self _ _)
  have hint (t : State) : HaltKept t (intBit t pLdg 2) sealCells :=
    (regsOnly_intBit t pLdg 2).haltKept (cellsSame_intBit t 2 (by decide) (by decide))
  exact (hrec _ _ _).trans ((hrec _ _ _).trans ((hrec _ _ _).trans ((hrec _ _ _).trans (hint _))))

/-- The ledger's own fields are no part of the halt's state. -/
theorem haltKept_ledger (s : State) (x : Ledger) (l : List Nat) : HaltKept s { s with ledger := x } l :=
  ⟨rfl, rfl, rfl, rfl, cellsSame.refl s l⟩

theorem sealTo_haltKept (s : State) (code last : Nat) (chain : List Byte) : HaltKept s (sealTo s code last chain) sealCells :=
  (bbrSeal_haltKept ..).trans (haltKept_ledger ..)

theorem sealDue_haltKept (s : State) : HaltKept s (sealDue s) sealCells := by
  unfold sealDue
  split
  · exact HaltKept.refl s _
  · exact (haltKept_ledger ..).trans (sealTo_haltKept ..)

/-- The partial seal of a HALT fault, after every seal that is due. -/
theorem sealPartial_haltKept (s : State) : HaltKept s (sealPartial s) sealCells := by
  have hdue : HaltKept s (sealAllDue s) sealCells := haltKept_foldl (fun t _ => sealDue_haltKept t) _ s
  simp only [sealPartial]
  split
  · exact hdue
  · exact hdue.trans (sealTo_haltKept ..)

/-! ### The loft checkpoint and the floor of the islands (R521, R604) -/

/-- The registers that objects stored in the loft change. -/
def loftCells : List Nat := [pLft + Off.lftCap, pLft + Off.lftUsed]

theorem loftShard_haltKept (s : State) (x : CkShard) : HaltKept s (loftShard s x) loftCells := by
  have hcap : idxAddr (pLft + Off.lftCap) = none := by decide
  have hused : idxAddr (pLft + Off.lftUsed) = none := by decide
  have hcounts (t : State) : HaltKept t (loftCounts t) loftCells :=
    ((regsOnly_setReg ..).trans (regsOnly_setReg ..)).haltKept
      ((cellsSame_put t _ hcap (by decide)).trans (cellsSame_put _ _ hused (by decide)))
  have hobj (i : Nat) (o : LoftObj) : HaltKept s (setObj s i o) loftCells := ⟨rfl, rfl, rfl, rfl, cellsSame.refl s _⟩
  simp only [loftShard]
  split
  · exact HaltKept.refl s _
  · exact (hobj _ _).trans (hcounts _)

theorem loftCkpt_haltKept (s : State) : HaltKept s (loftCkpt s) loftCells :=
  haltKept_foldl (fun t p => haltKept_foldl loftShard_haltKept (partShards t p) t) _ s

theorem haltFloor_haltKept (s : State) (on : Bool) : HaltKept s (haltFloor s on) [pPwr + Off.pwrStat] := by
  have hput (v : Nat) : HaltKept s (setRegF s (pPwr + Off.pwrStat) 28 28 v) [pPwr + Off.pwrStat] :=
    (regsOnly_setRegF ..).haltKept (cellsSame_put s _ (by decide) (List.mem_singleton_self _))
  have hisl (t : State) (x : Store Island) : HaltKept t { t with isl := x } [pPwr + Off.pwrStat] :=
    ⟨rfl, rfl, rfl, rfl, cellsSame.refl t _⟩
  simp only [haltFloor]
  split
  · exact hput _
  · exact (hput _).trans (hisl _ _)

end Sys2Proof.Machine
end

section
/-! The samples of the HALT input (R575 to R579): what an agreed and a disagreeing sample, and the halt's entry, leave. -/

namespace Sys2Proof.Machine

/-! ### The registers of the HLT page -/

theorem idxAddr_hlt : ∀ a ∈ [hltA, pHlt + Off.hltCfg, pHlt + Off.hltDiscCnt, pHlt + Off.hltHaltCnt, pHlt + Off.intStat],
    idxAddr a = none := by decide

/-- A register of the HLT page is as it was where it was not written. -/
theorem reg_hlt_of_cellsSame {s t : State} {a : Nat} {l : List Nat} (h : cellsSame s t l)
    (ha : a ∈ [hltA, pHlt + Off.hltCfg, pHlt + Off.hltDiscCnt, pHlt + Off.hltHaltCnt, pHlt + Off.intStat]) (hl : a ∉ l) :
    reg t a = reg s a :=
  reg_of_noIndex (idxAddr_hlt a ha) h hl

theorem cellsSame_setHlt (s : State) (i v : Nat) : cellsSame s (setRegF s hltA i i v) [hltA] :=
  cellsSame_put s _ (idxAddr_hlt hltA (by decide)) (List.mem_singleton_self _)

/-- The bits of HLT.STAT after one of them is set or cleared. -/
theorem bit_setHlt (s : State) {i : Nat} (hi : i < 32) (b : Bool) (j : Nat) :
    bit (reg (setRegF s hltA i i (if b then 1 else 0)) hltA) j = if j = i then b else bit (reg s hltA) j := by
  rw [setRegF, reg_setReg_self _ _ _ (by decide), bit, getLsbD_setFld _ _ _ _ _ hi]
  by_cases hj : j = i
  · subst hj; cases b <;> simp
  · rw [if_neg (by omega), if_neg hj]; rfl

theorem cellsSame_intBit_hlt (s : State) (i : Nat) : cellsSame s (intBit s pHlt i) [pHlt + Off.intStat] :=
  cellsSame_intBit s i (by decide) (List.mem_singleton_self _)

/-- Setting one INT_STAT bit keeps the others. -/
theorem bit_intBit_of_bit (s : State) {p : Nat} (i j : Nat) (hlt : p < 0x10000000) (h : bit (reg s (p + Off.intStat)) j = true) :
    bit (reg (intBit s p i) (p + Off.intStat)) j = true := by
  rw [intBit, reg_intSet_self _ _ _ (show p + 0x10 < 0x20000000 by omega)]
  simp only [bit] at h ⊢
  simp [h]

theorem hltN_congr {s t : State} {l : List Nat} (h : cellsSame s t l) (hl : pHlt + Off.hltCfg ∉ l) : hltN t = hltN s := by
  simp only [hltN, regF, reg_hlt_of_cellsSame h (a := pHlt + Off.hltCfg) (by decide) hl]

/-! ### CLEAR_OK (R579) -/

/-- CLEAR_OK set or cleared: the other bits of HLT.STAT are kept. -/
theorem hltClearOk_spec (s : State) (ok : Bool) :
    RegsOnly s (hltClearOk s ok) ∧ cellsSame s (hltClearOk s ok) [hltA, pHlt + Off.intStat] ∧
    ∀ j, bit (reg (hltClearOk s ok) hltA) j = if j = 29 then ok else bit (reg s hltA) j := by
  have hset : cellsSame s (setRegF s hltA 29 29 (if ok then 1 else 0)) [hltA, pHlt + Off.intStat] :=
    (cellsSame_setHlt s 29 _).mono (by simp)
  have hint (t : State) := cellsSame_intBit_hlt t 2
  simp only [hltClearOk]
  split
  · refine ⟨(regsOnly_setRegF ..).trans (regsOnly_intBit ..), hset.trans ((hint _).mono (by simp)), fun j => ?_⟩
    rw [reg_hlt_of_cellsSame (hint _) (by decide) (by decide), bit_setHlt s (by decide)]
  · exact ⟨regsOnly_setRegF .., hset, bit_setHlt s (by decide) ok⟩

/-! ### The halt comes into force (R578) -/

/-- HALT set and counted, and the page's interrupt raised. -/
def hltForce (s : State) : State := intBit (bump (setRegF s hltA 31 31 1) (pHlt + Off.hltHaltCnt) 1) pHlt 0

/-- The registers that the halt's coming into force changes. -/
def hltForceCells : List Nat := [hltA, pHlt + Off.hltHaltCnt, pHlt + Off.intStat]

theorem hltForce_spec (s : State) :
    let t := hltForce s
    RegsOnly s t ∧ cellsSame s t hltForceCells ∧ (∀ j, bit (reg t hltA) j = if j = 31 then true else bit (reg s hltA) j) ∧
    (∀ j, bit (reg s (pHlt + Off.intStat)) j = true → bit (reg t (pHlt + Off.intStat)) j = true) ∧
    reg t (pHlt + Off.hltHaltCnt) = w32 (satAdd 32 (reg s (pHlt + Off.hltHaltCnt)).toNat 1) ∧
    bit (reg t (pHlt + Off.intStat)) 0 = true := by
  have hset := cellsSame_setHlt s 31 1
  have hcnt := cellsSame_bump (setRegF s hltA 31 31 1) 1 (idxAddr_hlt (pHlt + Off.hltHaltCnt) (by decide))
  have hint := cellsSame_intBit_hlt (bump (setRegF s hltA 31 31 1) (pHlt + Off.hltHaltCnt) 1) 0
  unfold hltForce
  refine ⟨((regsOnly_setRegF ..).trans (regsOnly_bump ..)).trans (regsOnly_intBit ..),
    (hset.mono (by decide)).trans ((hcnt.mono (by decide)).trans (hint.mono (by decide))), fun j => ?_, fun j hj => ?_, ?_,
    bit_intBit_self _ (by decide) (by decide)⟩
  · rw [reg_hlt_of_cellsSame hint (by decide) (by decide), reg_hlt_of_cellsSame hcnt (by decide) (by decide)]
    exact bit_setHlt s (by decide) true j
  · refine bit_intBit_of_bit _ 0 j (by decide) ?_
    rw [reg_hlt_of_cellsSame hcnt (by decide) (by decide), reg_hlt_of_cellsSame hset (by decide) (by decide)]
    exact hj
  · rw [reg_hlt_of_cellsSame hint (by decide) (by decide), reg_bump_self _ _ _ (by decide),
      reg_hlt_of_cellsSame hset (by decide) (by decide)]

/-- The halt's entry, where it is in force already: only its record is added. -/
theorem haltEnter_of_halted (s : State) (code : Nat) (h : halted s = true) :
    haltEnter s code = { s with hltRec := s.hltRec ++ [code], hltClr := false } := by
  simp only [haltEnter, h, if_true]

/-- The halt's entry, where it is not in force: it comes into force, and nothing of it is saved yet. -/
theorem haltEnter_of_not_halted (s : State) (code : Nat) (h : halted s = false) :
    haltEnter s code = hltForce { s with hltRec := s.hltRec ++ [code], hltClr := false, hltSaved := false } := by
  simp only [haltEnter, hltForce, h, Bool.false_eq_true, if_false]

/-- After the halt's entry HALT is set and the record kept; nothing else of HLT.STAT and no partition changes. -/
theorem haltEnter_spec (s : State) (code : Nat) :
    let t := haltEnter s code
    (t.parts = s.parts ∧ t.hltRun = s.hltRun ∧ t.hltOk = s.hltOk ∧ t.hltRec = s.hltRec ++ [code]) ∧
    cellsSame s t hltForceCells ∧ (∀ j, bit (reg t hltA) j = if j = 31 then true else bit (reg s hltA) j) ∧
    ∀ j, bit (reg s (pHlt + Off.intStat)) j = true → bit (reg t (pHlt + Off.intStat)) j = true := by
  dsimp only
  cases h : halted s with
  | true =>
    rw [haltEnter_of_halted s code h]
    refine ⟨⟨rfl, rfl, rfl, rfl⟩, cellsSame.refl s _, fun j => ?_, fun j hj => hj⟩
    split
    next hj => subst hj; exact h
    next => rfl
  | false =>
    rw [haltEnter_of_not_halted s code h]
    obtain ⟨⟨r, i, he⟩, hcells, hbits, hkept, -⟩ :=
      hltForce_spec { s with hltRec := s.hltRec ++ [code], hltClr := false, hltSaved := false }
    exact ⟨by rw [he]; exact ⟨rfl, rfl, rfl, rfl⟩, hcells, hbits, hkept⟩

/-- Where it was not in force, the halt is counted and raises the page's interrupt. -/
theorem haltEnter_counts (s : State) (code : Nat) (h : halted s = false) :
    reg (haltEnter s code) (pHlt + Off.hltHaltCnt) = w32 (satAdd 32 (reg s (pHlt + Off.hltHaltCnt)).toNat 1) ∧
    bit (reg (haltEnter s code) (pHlt + Off.intStat)) 0 = true := by
  rw [haltEnter_of_not_halted s code h]
  obtain ⟨-, -, -, -, hcount⟩ := hltForce_spec { s with hltRec := s.hltRec ++ [code], hltClr := false, hltSaved := false }
  exact hcount

/-! ### A sample is taken (R575) -/

/-- The state with both inputs shown in HLT.STAT, before they are judged. -/
def hltShown (s : State) (a b : Bool) (now : Nat) : State :=
  setRegF (setRegF { advance s now with hltAt := now } hltA 28 28 (if a then 1 else 0)) hltA 27 27 (if b then 1 else 0)

theorem hltShown_spec (s : State) (a b : Bool) (now : Nat) :
    let t := hltShown s a b now
    (t.parts = s.parts ∧ t.mram = s.mram ∧ t.hltRun = s.hltRun ∧ t.hltOk = s.hltOk ∧ t.hltRec = s.hltRec) ∧
    cellsSame s t [hltA] ∧
    ∀ j, bit (reg t hltA) j = if j = 27 then b else if j = 28 then a else bit (reg s hltA) j := by
  have hset := (cellsSame_setHlt { advance s now with hltAt := now } 28 (if a then 1 else 0)).trans
    (cellsSame_setHlt _ 27 (if b then 1 else 0))
  refine ⟨⟨rfl, rfl, rfl, rfl, rfl⟩, hset, fun j => ?_⟩
  rw [hltShown, bit_setHlt _ (by decide), bit_setHlt _ (by decide)]
  rfl

/-- A sample that comes before 100 µs have passed is none. -/
theorem exec_haltSample_early {s : State} {now : Nat} (a b : Bool) (h : now < s.hltAt + 100000) :
    exec (.haltSample a b now) s = .next s := by
  refine (checked_of_wf (.haltSample a b now) (haltSample s a b now) rfl).trans ?_
  rw [haltSample, if_pos h]

/-- A sample judges the inputs that it shows. -/
theorem exec_haltSample_due {s : State} {now : Nat} (a b : Bool) (h : s.hltAt + 100000 ≤ now) :
    exec (.haltSample a b now) s = .next
      (if !a && b then hltAgreed (hltShown s a b now) true
        else if a && !b then hltAgreed (hltShown s a b now) false else hltDisagree (hltShown s a b now)) := by
  refine (checked_of_wf (.haltSample a b now) (haltSample s a b now) rfl).trans ?_
  rw [haltSample, if_neg (Nat.not_lt.2 h)]
  rfl

theorem exec_haltSample_asserted {s : State} {now : Nat} (h : s.hltAt + 100000 ≤ now) :
    exec (.haltSample false true now) s = .next (hltAgreed (hltShown s false true now) true) := by
  rw [exec_haltSample_due false true h]
  simp

theorem exec_haltSample_deasserted {s : State} {now : Nat} (h : s.hltAt + 100000 ≤ now) :
    exec (.haltSample true false now) s = .next (hltAgreed (hltShown s true false now) false) := by
  rw [exec_haltSample_due true false h]
  simp

/-- Inputs that show the same value disagree. -/
theorem exec_haltSample_equal {s : State} {now : Nat} (a : Bool) (h : s.hltAt + 100000 ≤ now) :
    exec (.haltSample a a now) s = .next (hltDisagree (hltShown s a a now)) := by
  rw [exec_haltSample_due a a h]
  simp

/-! ### Agreed samples (R576) -/

/-- A run of disagreeing samples that an agreed one ends short of N is counted. -/
def hltRunCount (s : State) : State :=
  if decide (0 < s.hltRun) && decide (s.hltRun < hltN s) then bump s (pHlt + Off.hltDiscCnt) 1 else s

theorem hltRunCount_spec (s : State) :
    RegsOnly s (hltRunCount s) ∧ cellsSame s (hltRunCount s) [pHlt + Off.hltDiscCnt] ∧
    (0 < s.hltRun → s.hltRun < hltN s →
      reg (hltRunCount s) (pHlt + Off.hltDiscCnt) = w32 (satAdd 32 (reg s (pHlt + Off.hltDiscCnt)).toNat 1)) := by
  have hcnt : cellsSame s (bump s (pHlt + Off.hltDiscCnt) 1) [pHlt + Off.hltDiscCnt] :=
    cellsSame_bump s 1 (idxAddr_hlt _ (by decide))
  refine ⟨RegsOnly.ite (regsOnly_bump ..) (RegsOnly.refl s), cellsSame.ite hcnt (cellsSame.refl s _), fun hpos hlt => ?_⟩
  rw [hltRunCount, if_pos (by simp [hpos, hlt]), reg_bump_self _ _ _ (by decide)]

/-- The run of disagreeing samples over and the agreed state set: what an agreed sample does first. -/
def hltRunEnd (s : State) (asserted : Bool) : State :=
  setRegF { hltRunCount s with hltRun := 0 } hltA 26 26 (if asserted then 1 else 0)

theorem hltRunEnd_spec (s : State) (asserted : Bool) :
    let t := hltRunEnd s asserted
    (t.hltRun = 0 ∧ t.hltOk = s.hltOk) ∧ cellsSame s t [hltA, pHlt + Off.hltDiscCnt] ∧
    (∀ j, bit (reg t hltA) j = if j = 26 then asserted else bit (reg s hltA) j) ∧
    (0 < s.hltRun → s.hltRun < hltN s →
      reg t (pHlt + Off.hltDiscCnt) = w32 (satAdd 32 (reg s (pHlt + Off.hltDiscCnt)).toNat 1)) := by
  obtain ⟨⟨r, i, he⟩, hcells, hdisc⟩ := hltRunCount_spec s
  unfold hltRunEnd
  rw [he] at hcells hdisc ⊢
  have hset := cellsSame_setHlt { s with regs := r, irqs := i, hltRun := 0 } 26 (if asserted then 1 else 0)
  have hrun : cellsSame s { s with regs := r, irqs := i, hltRun := 0 } [pHlt + Off.hltDiscCnt] := hcells
  refine ⟨⟨rfl, rfl⟩, (hrun.mono (by simp)).trans (hset.mono (by simp)), fun j => ?_, fun hpos hlt => ?_⟩
  · rw [bit_setHlt _ (by decide), reg_hlt_of_cellsSame hrun (by decide) (by decide)]
  · rw [reg_hlt_of_cellsSame hset (by decide) (by decide)]
    exact hdisc hpos hlt

/-- An agreed de-asserted sample after the run's end. -/
theorem hltAgreed_false (s : State) :
    hltAgreed s false = hltClearOk { hltRunEnd s false with hltOk := min 1000 ((hltRunEnd s false).hltOk + 1) }
      (decide (min 1000 ((hltRunEnd s false).hltOk + 1) = 1000)) := rfl

/-- An agreed de-asserted sample: the halt stays as it is, and the thousandth in a row sets CLEAR_OK. -/
theorem hltAgreed_false_spec (s : State) :
    let t := hltAgreed s false
    t.hltOk = min 1000 (s.hltOk + 1) ∧
    (∀ j, bit (reg t hltA) j = if j = 29 then decide (1000 ≤ s.hltOk + 1) else if j = 26 then false else bit (reg s hltA) j) ∧
    (0 < s.hltRun → s.hltRun < hltN s →
      reg t (pHlt + Off.hltDiscCnt) = w32 (satAdd 32 (reg s (pHlt + Off.hltDiscCnt)).toNat 1)) := by
  obtain ⟨⟨-, hok⟩, -, hbits, hdisc⟩ := hltRunEnd_spec s false
  rw [hltAgreed_false, hok]
  obtain ⟨hframe, hcells, hbits'⟩ :=
    hltClearOk_spec { hltRunEnd s false with hltOk := min 1000 (s.hltOk + 1) } (decide (min 1000 (s.hltOk + 1) = 1000))
  refine ⟨?_, fun j => ?_, fun hpos hlt => ?_⟩
  · obtain ⟨r, i, he⟩ := hframe
    rw [he]
  · have hdec : decide (min 1000 (s.hltOk + 1) = 1000) = decide (1000 ≤ s.hltOk + 1) := decide_eq_decide.2 (by omega)
    rw [hbits' j, hdec]
    split
    next => rfl
    next => exact hbits j
  · rw [reg_hlt_of_cellsSame hcells (by decide) (by decide)]
    exact hdisc hpos hlt

/-- The state of an agreed asserted sample before the halt comes into force. -/
def hltAsserted (s : State) : State := hltClearOk { hltRunEnd s true with hltOk := 0 } false

theorem hltAsserted_spec (s : State) :
    let t := hltAsserted s
    (t.hltOk = 0 ∧ t.hltRun = 0) ∧ cellsSame s t [hltA, pHlt + Off.hltDiscCnt, pHlt + Off.intStat] ∧
    (∀ j, bit (reg t hltA) j = if j = 29 then false else if j = 26 then true else bit (reg s hltA) j) ∧
    (0 < s.hltRun → s.hltRun < hltN s →
      reg t (pHlt + Off.hltDiscCnt) = w32 (satAdd 32 (reg s (pHlt + Off.hltDiscCnt)).toNat 1)) := by
  obtain ⟨⟨hrun, -⟩, hcells, hbits, hdisc⟩ := hltRunEnd_spec s true
  obtain ⟨hframe, hcells', hbits'⟩ := hltClearOk_spec { hltRunEnd s true with hltOk := 0 } false
  refine ⟨?_, ?_, fun j => ?_, fun hpos hlt => ?_⟩
  · obtain ⟨r, i, he⟩ := hframe
    rw [hltAsserted, he]
    exact ⟨rfl, hrun⟩
  · exact (hcells.mono (by simp)).trans (cellsSame.mono (s := hltRunEnd s true) hcells' (by simp))
  · rw [hltAsserted, hbits' j]
    split
    next => rfl
    next => exact hbits j
  · rw [hltAsserted, reg_hlt_of_cellsSame hcells' (by decide) (by decide)]
    exact hdisc hpos hlt

/-- An agreed asserted sample: the halt comes into force, unless it is and the agreed state was asserted already. -/
theorem hltAgreed_true (s : State) : hltAgreed s true =
    if bit (reg s hltA) 26 && halted s then { hltAsserted s with hltClr := false } else haltEnter (hltAsserted s) 1 := by
  obtain ⟨-, hcells, -⟩ := hltRunCount_spec s
  obtain ⟨-, -, hbits, -⟩ := hltAsserted_spec s
  have hwas : reg (hltRunCount s) hltA = reg s hltA := reg_hlt_of_cellsSame hcells (by decide) (by decide)
  have hhalted : halted (hltAsserted s) = halted s := hbits 31
  rw [← hwas, ← hhalted]
  rfl

/-- The first agreed asserted sample sets HALT, at once and counted. -/
theorem hltAgreed_true_spec (s : State) :
    let t := hltAgreed s true
    (t.hltOk = 0 ∧ t.hltRun = 0) ∧
    (∀ j, bit (reg t hltA) j = if j = 31 then true else if j = 29 then false else if j = 26 then true else bit (reg s hltA) j) ∧
    (halted s = false → reg t (pHlt + Off.hltHaltCnt) = w32 (satAdd 32 (reg s (pHlt + Off.hltHaltCnt)).toNat 1) ∧
      bit (reg t (pHlt + Off.intStat)) 0 = true) ∧
    (0 < s.hltRun → s.hltRun < hltN s →
      reg t (pHlt + Off.hltDiscCnt) = w32 (satAdd 32 (reg s (pHlt + Off.hltDiscCnt)).toNat 1)) := by
  obtain ⟨hfields, hcells, hbits, hdisc⟩ := hltAsserted_spec s
  have hhalted : halted (hltAsserted s) = halted s := hbits 31
  dsimp only
  rw [hltAgreed_true]
  split
  next h =>
    have hin : halted s = true := (Bool.and_eq_true_iff.1 h).2
    refine ⟨hfields, fun j => ?_, fun hs => absurd hin (by simp [hs]), hdisc⟩
    split
    next hj => subst hj; exact hhalted.trans hin
    next => exact hbits j
  next =>
    obtain ⟨⟨-, hrun, hok, -⟩, hcells', hbits', -⟩ := haltEnter_spec (hltAsserted s) 1
    refine ⟨⟨hok.trans hfields.1, hrun.trans hfields.2⟩, fun j => ?_, fun hs => ?_, fun hpos hlt => ?_⟩
    · rw [hbits' j, hbits j]
    · rw [← reg_hlt_of_cellsSame hcells (a := pHlt + Off.hltHaltCnt) (by decide) (by decide)]
      exact haltEnter_counts _ 1 (hhalted.trans hs)
    · rw [reg_hlt_of_cellsSame hcells' (by decide) (by decide)]
      exact hdisc hpos hlt

/-! ### Disagreeing samples (R576) -/

/-- A disagreeing sample's count, before it is judged. -/
def hltDisagreed (s : State) : State := hltClearOk { s with hltRun := s.hltRun + 1, hltOk := 0 } false

theorem hltDisagreed_spec (s : State) :
    let t := hltDisagreed s
    (t.parts = s.parts ∧ t.mram = s.mram ∧ t.hltRun = s.hltRun + 1 ∧ t.hltRec = s.hltRec) ∧
    cellsSame s t [hltA, pHlt + Off.intStat] ∧ ∀ j, bit (reg t hltA) j = if j = 29 then false else bit (reg s hltA) j := by
  obtain ⟨⟨r, i, he⟩, hcells, hbits⟩ := hltClearOk_spec { s with hltRun := s.hltRun + 1, hltOk := 0 } false
  refine ⟨?_, hcells, hbits⟩
  rw [hltDisagreed, he]
  exact ⟨rfl, rfl, rfl, rfl⟩

/-- A disagreeing sample short of the Nth only counts. -/
theorem hltDisagree_of_lt {s : State} (h : s.hltRun + 1 < hltN s) : hltDisagree s = hltDisagreed s := by
  obtain ⟨-, hcells, -⟩ := hltDisagreed_spec s
  have hn : hltN (hltDisagreed s) = hltN s := hltN_congr hcells (by decide)
  exact if_pos (Or.inl (show s.hltRun + 1 < hltN (hltDisagreed s) from hn.symm ▸ h))

/-- The Nth disagreeing sample in a row: FAULT, the seal, the page's interrupt and the halt. -/
theorem hltDisagree_of_eq {s : State} (h : s.hltRun + 1 = hltN s) :
    hltDisagree s = haltEnter (intBit (sealPartial (setRegF (hltDisagreed s) hltA 30 30 1)) pHlt 1) 2 := by
  obtain ⟨-, hcells, -⟩ := hltDisagreed_spec s
  have hn : hltN (hltDisagreed s) = hltN s := hltN_congr hcells (by decide)
  refine if_neg (show ¬(s.hltRun + 1 < hltN (hltDisagreed s) ∨
    hltN (hltDisagreed s) < s.hltRun + 1 ∧ bit (reg (hltDisagreed s) hltA) 30 = true) from ?_)
  omega

/-- After the Nth disagreeing sample HALT and FAULT are set, the page's interrupt 1 is raised and the record of the fault waits. -/
theorem hltDisagree_fault_spec {s : State} (h : s.hltRun + 1 = hltN s) :
    let t := hltDisagree s
    bit (reg t hltA) 31 = true ∧ bit (reg t hltA) 30 = true ∧ bit (reg t (pHlt + Off.intStat)) 1 = true ∧
    t.hltRec = s.hltRec ++ [2] ∧ t.parts = s.parts := by
  obtain ⟨⟨hparts, -, -, hrec⟩, -, -⟩ := hltDisagreed_spec s
  have hfault : bit (reg (setRegF (hltDisagreed s) hltA 30 30 1) hltA) 30 = true := bit_setHlt _ (by decide) true 30
  have hset : HaltKept (hltDisagreed s) (setRegF (hltDisagreed s) hltA 30 30 1) [hltA] :=
    (regsOnly_setRegF ..).haltKept (cellsSame_setHlt _ 30 1)
  have hseal := sealPartial_haltKept (setRegF (hltDisagreed s) hltA 30 30 1)
  have hint (u : State) : HaltKept u (intBit u pHlt 1) [pHlt + Off.intStat] :=
    (regsOnly_intBit ..).haltKept (cellsSame_intBit_hlt u 1)
  dsimp only
  rw [hltDisagree_of_eq h]
  generalize setRegF (hltDisagreed s) hltA 30 30 1 = u at *
  obtain ⟨⟨hparts', -, -, hrec'⟩, -, hbits, hkept⟩ := haltEnter_spec (intBit (sealPartial u) pHlt 1) 2
  refine ⟨hbits 31, ?_, hkept 1 (bit_intBit_self _ (by decide) (by decide)), ?_, ?_⟩
  · rw [hbits 30, reg_hlt_of_cellsSame (hint _).cells (by decide) (by decide),
      reg_hlt_of_cellsSame hseal.cells (by decide) (by decide)]
    exact hfault
  · rw [hrec', (hint _).records, hseal.records, hset.records, hrec]
  · rw [hparts', (hint _).parts, hseal.parts, hset.parts, hparts]

end Sys2Proof.Machine
end

section
/-! The checkpoint and the records of a HALT, its acknowledgement and its clear (R578, R579), and obligation O53. -/

namespace Sys2Proof.Machine

/-! ### The checkpoint and the records (R578) -/

/-- A record of the halt. -/
def hltRecord (s : State) (code : Nat) : State :=
  bbr s { cat := 4, code := code, loc := pHlt, arg0 := (reg s hltA).toNat, arg1 := (reg s (pHlt + Off.hltDiscCnt)).toNat }

/-- Records of the halt, one after the other, take the next sequence numbers. -/
theorem pair_hltRecords (codes : List Nat) (s : State) :
    pair (codes.foldl hltRecord s) (pBbr + Off.bbrHeadLo) = (pair s (pBbr + Off.bbrHeadLo) + codes.length) % 2 ^ 64 := by
  induction codes generalizing s with
  | nil => exact (Nat.mod_eq_of_lt (pair_lt s _)).symm
  | cons c codes ih =>
    rw [List.foldl_cons, ih, hltRecord, pair_bbr, Nat.mod_add_mod, List.length_cons, Nat.add_assoc, Nat.add_comm 1]

/-- The state in which the halt's records are written: checkpointed and at the floor. -/
def hltAtFloor (s : State) : State := if s.hltSaved then s else haltFloor (loftCkpt s) true

theorem hltAtFloor_haltKept (s : State) : HaltKept s (hltAtFloor s) ((pPwr + Off.pwrStat) :: loftCells) := by
  unfold hltAtFloor
  split
  · exact HaltKept.refl s _
  · exact ((loftCkpt_haltKept s).mono (List.subset_cons_self _ _)).trans ((haltFloor_haltKept _ true).mono (by simp))

theorem haltSaved_of_boundary {s : State} (hh : halted s = true) (hb : allAtBoundary s = true) (hr : s.hltRec ≠ []) :
    haltSaved s = { (hltAtFloor s).hltRec.foldl hltRecord (hltAtFloor s) with hltSaved := true, hltRec := [] } := by
  refine if_neg ?_
  simp [hh, hb, hr]

/-- With every step at its boundary the waiting records of the halt are written, and it stays in force. -/
theorem haltSaved_spec {s : State} (hh : halted s = true) (hb : allAtBoundary s = true) (hr : s.hltRec ≠ []) :
    let t := haltSaved s
    t.hltSaved = true ∧ t.hltRec = [] ∧ t.parts = s.parts ∧ halted t = true ∧
    pair t (pBbr + Off.bbrHeadLo) = (pair s (pBbr + Off.bbrHeadLo) + s.hltRec.length) % 2 ^ 64 := by
  obtain ⟨hlo, hhi⟩ := bbrHead_noIndex
  have hfloor := hltAtFloor_haltKept s
  have hrecs : HaltKept (hltAtFloor s) (s.hltRec.foldl hltRecord (hltAtFloor s)) bbrCells :=
    haltKept_foldl (fun t _ => bbr_haltKept t _) _ _
  dsimp only
  rw [haltSaved_of_boundary hh hb hr, hfloor.records]
  refine ⟨rfl, rfl, hrecs.parts.trans hfloor.parts, ?_, ?_⟩
  · have hstat : reg (s.hltRec.foldl hltRecord (hltAtFloor s)) hltA = reg s hltA :=
      (reg_hlt_of_cellsSame hrecs.cells (by decide) (by decide)).trans (reg_hlt_of_cellsSame hfloor.cells (by decide) (by decide))
    exact (congrArg (bit · 31) hstat).trans hh
  · refine (pair_hltRecords s.hltRec (hltAtFloor s)).trans ?_
    rw [pair_of_noIndex hlo hhi hfloor.cells (by decide) (by decide)]

/-- While a step is in flight nothing of it happens. -/
theorem haltSaved_of_inStep {s : State} (hb : allAtBoundary s = false) : haltSaved s = s := if_pos (by simp [hb])

/-! ### The acknowledgement (R579) -/

/-- The row of HLT.ACK. -/
def hltAckRow : RegRow := ⟨0x108, 1, 4, 1, 0, false, false, none, 0, 0, 1, 0, 0⟩

theorem rowAt_hltAck : rowAt (pHlt + Off.hltAck) = some hltAckRow := by decide

/-- A manager's write that the register's own definition refuses counts an error of its page. -/
theorem writeCore_managed_none (s : State) (w : Writer) (a : Nat) (v : W32) (b : Bool) (adj : W32 → W32 → Option W32) (r : RegRow)
    (h : s.managed w (pageOf a) = true) (ho : 0x28 ≤ a % 4096) (hrow : rowAt a = some r) (hwr : r.wr % 2 = 1) (hk : r.kind = 0)
    (hn : adj (reg s a) (applyFields r (reg s a) v) = none) : writeCore w a v b adj s = .none (errInc s (pageOf a)) := by
  obtain ⟨-, -, hlive, hret⟩ := (managed_iff ..).1 h
  have hctl : a % 4096 ≠ Off.pageCtl := by show a % 4096 ≠ 8; omega
  have hown : a % 4096 ≠ Off.owner := by show a % 4096 ≠ 0x20; omega
  simp [writeCore, hlive, hrow, hret, admits_managed s w r a v h hwr, hk, hctl, hown, headerVal, hn]

section
variable {s : State} {w : Writer} {v : W32}

theorem exec_haltAck (hm : s.managed w pHlt = true) : exec (.haltAck w v) s = .next (haltAck w v s) := by
  obtain ⟨⟨-, hw, -⟩, -⟩ := (managed_iff ..).1 hm
  exact checked_of_wf (.haltAck w v) _ hw

/-- GO while CLEAR_OK is 0 is refused. -/
theorem haltAck_refused (hm : s.managed w pHlt = true) (hv : bit v 0 = true) (hok : bit (reg s hltA) 29 = false) :
    haltAck w v s = errInc s pHlt := by
  have hwc := writeCore_managed_none s w (pHlt + Off.hltAck) v false (fun _ n => if bit v 0 && !bit (reg s hltA) 29 then none else some n)
    hltAckRow hm (by decide) rowAt_hltAck rfl rfl (by simp [hv, hok])
  simp only [haltAck, hwc]
  rfl

/-- GO while CLEAR_OK is 1 asks for the halt's clear, with a ledger record of the write. -/
theorem haltAck_spec (hm : s.managed w pHlt = true) (hv : bit v 0 = true) (hok : bit (reg s hltA) 29 = true) (hh : halted s = true) :
    (haltAck w v s).hltClr = true ∧
    ledgerOnly { s with hltClr := true } (haltAck w v s) 1 [pHlt + Off.hltAck, pHlt + Off.ledgerSeq] := by
  have hwc := writeCore_managed s w (pHlt + Off.hltAck) v _ false (fun _ n => if bit v 0 && !bit (reg s hltA) 29 then none else some n)
    hltAckRow hm (by decide) rowAt_hltAck rfl rfl (if_neg (by simp [hok]))
  have hgo : bit (v &&& w32 hltAckRow.wo) 0 = true := by
    simp only [bit] at hv ⊢
    simp [hv, hltAckRow, w32]
  obtain ⟨he, hcells, hmem⟩ := ledgerOnly_ledgerIf_setReg s w false (pHlt + Off.hltAck)
    (applyFields hltAckRow (reg s (pHlt + Off.hltAck)) v) (reg s (pHlt + Off.hltAck))
    (applyFields hltAckRow (reg s (pHlt + Off.hltAck)) v) (v &&& w32 hltAckRow.wo) (by decide) (by decide) (by decide)
  simp only [haltAck, hwc, hgo, hh, Bool.and_self, if_true]
  exact ⟨trivial, by rw [he], hcells, hmem⟩

end

/-! ### The clear (R579) -/

theorem haltClear_of_asked {s : State} (hc : s.hltClr = true) (hs : s.hltSaved = true) (hr : s.hltRec = []) :
    ∃ b, haltClear s =
      haltFloor { bbr (setRegF (setRegF s hltA 31 31 0) hltA 30 30 0) b with hltClr := false, hltSaved := false } false := by
  refine ⟨_, if_neg ?_⟩
  simp [hc, hs, hr]

/-- The clear ends the halt and its fault, with a record. -/
theorem haltClear_spec {s : State} (hc : s.hltClr = true) (hs : s.hltSaved = true) (hr : s.hltRec = []) :
    let t := haltClear s
    bit (reg t hltA) 31 = false ∧ bit (reg t hltA) 30 = false ∧ t.hltClr = false ∧ t.hltSaved = false ∧
    pair t (pBbr + Off.bbrHeadLo) = (pair s (pBbr + Off.bbrHeadLo) + 1) % 2 ^ 64 := by
  obtain ⟨hlo, hhi⟩ := bbrHead_noIndex
  obtain ⟨b, he⟩ := haltClear_of_asked hc hs hr
  have hset : cellsSame s (setRegF (setRegF s hltA 31 31 0) hltA 30 30 0) [hltA] :=
    (cellsSame_setHlt s 31 0).trans (cellsSame_setHlt _ 30 0)
  have hbits (j : Nat) : bit (reg (setRegF (setRegF s hltA 31 31 0) hltA 30 30 0) hltA) j =
      if j = 30 then false else if j = 31 then false else bit (reg s hltA) j := by
    rw [← bit_setHlt s (i := 31) (by decide) false j]
    exact bit_setHlt _ (by decide) false j
  dsimp only
  rw [he]
  generalize setRegF (setRegF s hltA 31 31 0) hltA 30 30 0 = u at *
  have hrec := (bbr_haltKept u b).cells
  have hpair := pair_bbr u b
  generalize bbr u b = x at *
  have hfloor := haltFloor_haltKept { x with hltClr := false, hltSaved := false } false
  have hstat : reg (haltFloor { x with hltClr := false, hltSaved := false } false) hltA = reg u hltA :=
    (reg_hlt_of_cellsSame hfloor.cells (by decide) (by decide)).trans (reg_hlt_of_cellsSame hrec (by decide) (by decide))
  refine ⟨?_, ?_, hfloor.clr, hfloor.saved, ?_⟩
  · rw [hstat, hbits 31]; rfl
  · rw [hstat, hbits 30]; rfl
  · rw [pair_of_noIndex hlo hhi hfloor.cells (by decide) (by decide)]
    refine hpair.trans ?_
    rw [pair_of_noIndex hlo hhi hset (by decide) (by decide)]

/-! ### The obligation -/

/-- Settles O53: a sample shows its inputs (`hltShown_spec`) and is judged as agreed or disagreeing (`hltAgreed_true_spec`,
`hltAgreed_false_spec`, `hltDisagree_of_lt`, `hltDisagree_fault_spec`); the records, the acknowledgement and the clear are
`haltSaved_spec`, `haltAck_refused`, `haltAck_spec` and `haltClear_spec`. -/
theorem haltFollowsItsInputs : Obligations.HaltFollowsItsInputs := by
  unfold Obligations.HaltFollowsItsInputs
  intro s w v a b now st due
  have hst (t : State) (i : Nat) : st t i = bit (reg t hltA) i := rfl
  have hshown (a b : Bool) := hltShown_spec s a b now
  have hn (a b : Bool) : hltN (hltShown s a b now) = hltN s := hltN_congr (hshown a b).2.1 (by decide)
  have hkept (a b : Bool) {r : Nat} (hr : r ∈ [pHlt + Off.hltDiscCnt, pHlt + Off.hltHaltCnt]) :
      reg (hltShown s a b now) r = reg s r := by
    refine reg_hlt_of_cellsSame (hshown a b).2.1 ?_ ?_ <;> revert r <;> decide
  refine ⟨exec_haltSample_early a b, ?asserted, ?deasserted, ?short, ?nth, ?saved, ?inStep, ?refused, ?acknowledged, ?cleared⟩
  case asserted =>
    intro hdue
    obtain ⟨⟨-, -, hrun, -, -⟩, -, hin⟩ := hshown false true
    obtain ⟨⟨hok, hrun'⟩, hbits, hcnt, hdisc⟩ := hltAgreed_true_spec (hltShown s false true now)
    refine ⟨_, exec_haltSample_asserted hdue, by simp [hst, hbits], by simp [hst, hbits], by simp [hst, hbits, hin],
      by simp [hst, hbits, hin], by simp [hst, hbits], hok, hrun', fun hs => ?_, fun hpos hlt => ?_⟩
    · rw [← hkept false true (r := pHlt + Off.hltHaltCnt) (by decide)]
      exact hcnt (by rw [halted, hin 31]; simpa [hst] using hs)
    · rw [← hkept false true (r := pHlt + Off.hltDiscCnt) (by decide)]
      exact hdisc (hrun.symm ▸ hpos) ((hn _ _).symm ▸ hrun.symm ▸ hlt)
  case deasserted =>
    intro hdue
    obtain ⟨⟨-, -, hrun, hok, -⟩, -, hin⟩ := hshown true false
    obtain ⟨hok', hbits, hdisc⟩ := hltAgreed_false_spec (hltShown s true false now)
    rw [hok] at hok' hbits
    refine ⟨_, exec_haltSample_deasserted hdue, by simp [hst, hbits, hin], by simp [hst, hbits, hin], by simp [hst, hbits], hok',
      by simp [hst, hbits], fun hpos hlt => ?_⟩
    rw [← hkept true false (r := pHlt + Off.hltDiscCnt) (by decide)]
    exact hdisc (hrun.symm ▸ hpos) ((hn _ _).symm ▸ hrun.symm ▸ hlt)
  case short =>
    intro hdue hab hlt
    subst hab
    obtain ⟨⟨hparts, hmram, hrun, -, -⟩, -, hin⟩ := hshown a a
    obtain ⟨⟨hparts', hmram', hrun', -⟩, -, hbits⟩ := hltDisagreed_spec (hltShown s a a now)
    have hlt' : (hltShown s a a now).hltRun + 1 < hltN (hltShown s a a now) := (hn a a).symm ▸ hrun.symm ▸ hlt
    refine ⟨_, exec_haltSample_equal a hdue, ?_⟩
    rw [hltDisagree_of_lt hlt']
    exact ⟨by simp [hst, hbits, hin], by simp [hst, hbits, hin], by simp [hst, hbits, hin], by simp [hst, hbits],
      hrun'.trans (by rw [hrun]), hparts'.trans hparts, hmram'.trans hmram⟩
  case nth =>
    intro hdue hab heq
    subst hab
    obtain ⟨⟨hparts, -, hrun, -, hrec⟩, -, -⟩ := hshown a a
    have heq' : (hltShown s a a now).hltRun + 1 = hltN (hltShown s a a now) := (hn a a).symm ▸ hrun.symm ▸ heq
    obtain ⟨hhalt, hfault, hint, hrec', hparts'⟩ := hltDisagree_fault_spec heq'
    exact ⟨_, exec_haltSample_equal a hdue, hhalt, hfault, hint, hrec'.trans (by rw [hrec]), hparts'.trans hparts⟩
  case saved => exact fun hh hb hr => ⟨_, checked_of_wf .haltCheckpointDone _ rfl, haltSaved_spec hh hb hr⟩
  case inStep =>
    intro hb
    refine (checked_of_wf .haltCheckpointDone (haltSaved s) rfl).trans ?_
    rw [haltSaved_of_inStep hb]
  case refused => exact fun hm hv hok => by rw [exec_haltAck hm, haltAck_refused hm hv hok]
  case acknowledged => exact fun hm hv hok hh => ⟨_, exec_haltAck hm, haltAck_spec hm hv hok hh⟩
  case cleared => exact fun hc hs hr => ⟨_, checked_of_wf .haltClear _ rfl, haltClear_spec hc hs hr⟩

end Sys2Proof.Machine
end
